-- ==== Sys2Proof/Word.lean ====
section
/-! DEFINITION. The word types of the device: a word is 16 bits (spec/04 R100), an address 32 bits. -/
namespace Sys2Proof

/-- A device word (R100): 16 bits. -/
abbrev Word := BitVec 16

/-- A device word address, and the content of an a register (R100, R102): 32 bits. -/
abbrev Addr := BitVec 32

/-- A byte, as the host sees it (R9). -/
abbrev Byte := BitVec 8

end Sys2Proof
end

