-- ==== Sys2Proof/Syntax.lean ====
section
/-! DEFINITION. The commands of the block: one constructor of `Instr` per row of spec/opcode_table.json, with the
operands the rules give it, and the operand types. A command names the core, the register, the port, the slot or the
requester it concerns; what it does is in `Sys2Proof.Machine`. -/
namespace Sys2Proof

/-- A crew index, 0–95 (R17). -/
abbrev Crew := Fin 96

/-- A core that runs instructions (R99): a seat of a crew, the control core of a crew, or the boathouse core. -/
inductive CoreId where
  | seat (crew : Fin 96) (s : Fin 8)
  | cox (crew : Fin 96)
  | boathouse
  deriving DecidableEq, Repr

/-- A requester of register space (R39, R45): a control core, the boathouse, or PF0 of the host interface. -/
inductive Requester where
  | cox (crew : Fin 96)
  | boathouse
  | host
  deriving DecidableEq, Repr

/-- Element types of the TY field (R134). -/
inductive ElemTy where
  | i16 | u16 | f16 | bf16 | i8 | u8 | e4m3 | e5m2
  deriving DecidableEq, Repr

/-- Where LOOP takes its count (R116): the COUNT field (CS = 0), a w register or an a register (CS = 1). -/
inductive LoopCount where
  | imm (n : BitVec 11)
  | w (r : Fin 16)
  | a (r : Fin 8)
  deriving DecidableEq, Repr

/-- The stride operand of tile and accumulator loads and stores (R142): SR = 1, a register w8–w15 with a word offset,
or SR = 0, the immediate stride of the OFF field. -/
inductive TileStride where
  | reg (r : Fin 8) (off : BitVec 12)
  | imm (stride : BitVec 12)
  deriving DecidableEq, Repr

/-- The two instructions spelled TST: the flag test of R110, and the tile store of R142, which shares its mnemonic. -/
inductive TstForm where
  | scalar (x y : Fin 16)
  | tile (t : Fin 8) (b : Fin 8) (wb : Bool) (stride : TileStride)
  deriving DecidableEq, Repr

/-- The two zeroings of R198: the seat memories of a crew, and every crew store. -/
inductive ZeroKind where
  | seatMemories (crew : Fin 96)
  | crewStores
  deriving DecidableEq, Repr

/-- Where a request of the host goes: BAR0 or BAR2 of a function, or its configuration space; or an atomic operation on BAR0, which
the endpoint does not support (R477, R480). -/
inductive HostSpace where
  | bar0 | bar2 | config | atomic
  deriving DecidableEq, Repr

/-- A request of the PCI Express host to a function (R59, R60, R480, R482): where it goes, its first doubleword, its
length in doublewords, the byte enables of the first and of the last of them, and for a write its data. -/
structure HostReq where
  space : HostSpace
  dw    : Nat
  len   : Nat
  first : BitVec 4
  last  : BitVec 4
  write : Option (List (BitVec 32))
  deriving DecidableEq, Repr

/-- What resets PF0 (R463): PERST#, a Hot Reset, the link going down, or a function-level reset. -/
inductive PfReset where
  | perst | hot | linkDown | flr
  deriving DecidableEq, Repr

/-- A domain, or a section of one, that firmware powers at a time (R471): VMESH; VSTORE in the crews of a section; VGW's section
of two ports; the VC domain of a crew. -/
inductive Section where
  | vmesh
  | vstore (crews : BitVec 96)
  | vgw (k : Fin 16)
  | vc (crew : Fin 96)
  deriving DecidableEq, Repr

/-- What a mesh link does to the first packet of a burst (R255): nothing, a single-bit error, or a double-bit error. -/
inductive LinkFlaw where
  | none | single | double
  deriving DecidableEq, Repr

/-- A turn of a router's output (R255, R259): the output, 0–3 N, E, S, W, 4 L, 5 A, 6 H, and what its link does to the packet. -/
structure LinkTurn where
  out  : Fin 7
  flaw : LinkFlaw
  deriving DecidableEq, Repr

/-- The fields of a flit header (R294) but for FTYPE, which the command names. -/
structure FlitHdr where
  seq    : BitVec 12
  ack    : BitVec 12
  nak    : Bool
  fvc    : Fin 8
  cvc    : Fin 8
  crdcum : BitVec 8
  pstart : BitVec 7
  deriving DecidableEq, Repr

/-- A flit as it comes off a link (R293): its header, the 123 words of its payload (a missing word reads 0), its CRC field,
whether it overlaps an uncorrectable FEC codeword (R295), the uncorrectable codewords first met with it (each with whether symbols of
lanes 0–3, and of lanes 4–7, were beyond correction), and the symbols corrected with it on partner lanes 0–7 (R302). -/
structure Flit where
  hdr     : FlitHdr
  payload : List Word
  crc     : BitVec 32
  fec     : Bool
  unc     : List (Bool × Bool) := []
  fixed   : List Nat := []
  deriving DecidableEq, Repr

/-- The fields of a CTRL IDENT (R306). -/
structure Ident where
  id     : BitVec 8
  port   : Fin 32
  sysid  : Word
  feat0  : Word
  locked : BitVec 8
  strict : Bool
  deg4   : Bool
  cause  : Fin 16
  deriving DecidableEq, Repr

/-- Where a remote request waits to be sequenced (R339): the hail port of a crew, or a DMA engine. -/
inductive RmaSource where
  | hailPort (crew : Fin 96)
  | engine (crew : Fin 96) (n : Fin 4)
  deriving DecidableEq, Repr

/-- What a governor period has from outside the rules (R403, R409): the package power estimate, the estimated ballast power
and the ballast available, in mW; the on-die estimate of the coolant inlet temperature in 0.01 °C; and, by crew, the ballast
share and the clock ceiling (10 MHz units) that the firmware half chooses; and the section that an orderly shutdown would power
off next, with its draw in mW (R476). -/
structure GovInput where
  est    : Nat
  ball   : Nat
  balcap : Nat
  inlet  : Int
  shares : List Nat
  ceils  : List Nat
  off    : Option (Section × Nat)
  deriving DecidableEq, Repr

/-- What a trim step has from outside the rules (R404): the package power estimate in mW, the crews that have work, and, by
crew, the steps taken of the clock (10 MHz units) and of ballast (%), each used up to the limit of the rule. -/
structure TrimInput where
  est  : Nat
  work : BitVec 96
  clk  : List Nat
  bal  : List Nat
  deriving DecidableEq, Repr

/-- Common command codes of a target port (R427), with what they carry; any other code by its number. -/
inductive CccCmd where
  | entdaa (addr : BitVec 7)
  | setdasa (static addr : BitVec 7)
  | setnewda (addr : BitVec 7)
  | rstdaa
  | enec (ev : BitVec 8)
  | disec (ev : BitVec 8)
  | setmwl (n : Word)
  | setmrl (n : Word)
  | getmwl
  | getmrl
  | getpid
  | getbcr
  | getdcr
  | getstatus
  | rstact (v : BitVec 8)
  | other (code : BitVec 8)
  deriving DecidableEq, Repr

/-- Requests of PLDM types 0 and 2 (R429): base discovery, a numeric sensor (0 input power, 1 input voltage, 2 coolant inlet
temperature, 3–6 tachometers), a state sensor (0 PACE_STAT, 1 PWR_FLT), a record of the PDR repository; and any request the device
does not support, by its PLDM type and command code. -/
inductive PldmQuery where
  | discovery
  | numeric (n : Fin 7)
  | stateSensor (n : Fin 2)
  | pdr (n : Word)
  | other (type code : BitVec 8)
  deriving DecidableEq, Repr

/-- What BHDEBUG asks of the boathouse core (R446): run control, and access to its memory by word offset. -/
inductive DebugOp where
  | halt
  | step
  | resume
  | coreReset
  | read (off : BitVec 19)
  | write (off : BitVec 19) (v : Word)
  deriving DecidableEq, Repr

/-- What a lid sensor hears in one window or frame (R452, R453): its components, each a frequency in mHz with its mean power in
2⁻⁴⁸ of full scale. -/
abbrev Spectrum := List (Nat × Nat)

/-- The commands (spec/opcode_table.json), one constructor per row, in the table's order. -/
inductive Instr where
  /-- REGISTER_WRITE (R10): A write to a register or table word that has no row of its own stores, ignores or pulses each field according to its access code. -/
  | registerWrite (who : Requester) (a : BitVec 27) (wide : Bool) (v : BitVec 32)
  /-- CLEARING_READ (R10): An ordinary read of a register with RC fields returns the value and then clears those fields for every requester. -/
  | clearingRead (who : Requester) (a : BitVec 27) (wide : Bool)
  /-- SNAPSHOT_READ (R45): A read of word _0 of a four-word quantity samples all four words and keeps words _1 to _3 as that requester's snapshot. -/
  | snapshotRead (who : Requester) (a : BitVec 27)
  /-- ALIAS_READ (R53): A read of a bit-alias word returns the bit as 0x0000 or 0x0001 and clears that one bit if it is RC. -/
  | aliasRead (who : Requester) (a : BitVec 27) (wide : Bool)
  /-- ALIAS_WRITE (R54): A write to a bit-alias word sets, clears or pulses the one bit according to its access code, and is ignored for RO and RC bits. -/
  | aliasWrite (who : Requester) (a : BitVec 27) (wide : Bool) (v : BitVec 32)
  /-- PEEK_WRITE (R57): A write to the peek window is ignored, and a host write there sets HST_ACCERR_STAT.PEEKWR. -/
  | peekWrite (who : Requester) (a : BitVec 28) (wide : Bool) (v : BitVec 32)
  /-- HOST_REQUEST (R60): A PF0 host read or write is translated to word accesses by byte enables and length limits, or fails with the response of R62. -/
  | hostRequest (r : HostReq)
  /-- STROKE_ENABLE (R73): Writing STK_CTRL.EN to 1 moves the stroke logic from OFF to SYNC, and writing it to 0 returns it to OFF. -/
  | strokeEnable (ctrl : Word)
  /-- STK_APPLY (R72): A pulse of STK_CMD.APPLY on the master distributes the clamped parameters for use from the catch two strokes later, or sets NOTMASTER elsewhere. -/
  | stkApply
  /-- ELECT (R85): A pulse of STK_CMD.ELECT starts a system-wide election whose winner takes over at a catch instant of the existing schedule. -/
  | elect
  /-- CATCH_INSTANT (R92): At each catch instant the stroke count increments, STK_CATCHTIME is set, catch-kind gates open and each cox dispatches released tasks. -/
  | catchInstant
  /-- DRIVE_ENTRY (R92): At drive entry the drive-kind phase gates open. -/
  | driveEntry
  /-- FINISH_INSTANT (R96): At the finish instant finish-kind gates open and each crew applies the overrun test and its sampled policy. -/
  | finishInstant
  /-- RECOVERY_ENTRY (R92): At recovery entry the recovery-kind gates open, current reports are stamped with STK_COUNT and pending governor settings take effect. -/
  | recoveryEntry
  /-- MASTER_LOSS (R86): When no time message from the master arrives for STK_LOSSTO, the device enters HOLDOVER, sets MLOSS and starts an election. -/
  | masterLoss
  /-- SYNC_LISTEN_TIMEOUT (R91): A device in SYNC that hears no master for STK_LOSSTO takes part in an election, or runs alone as master if no port is up. -/
  | syncListenTimeout
  /-- HOLDOVER_EXPIRY (R88): After 50 ms in HOLDOVER without a master, the device enters ISOLATED and sets STK_EVT.ISOL. -/
  | holdoverExpiry
  /-- FIRST_STROKE_START (R91): The winner of a start-up election starts stroke count 0 at a catch instant 20 µs after the election completes. -/
  | firstStrokeStart
  /-- HOLD_LIMIT (R98): If the hold has not cleared 3 µs before the hold limit, the master announces the limit and each device sets HOLDEXP. -/
  | holdLimit
  /-- STROKE_RESUME (R98): A pulse of COX_STROKE_CTRL.RESUME clears HALTED, resumes the stopped seats and restarts dispatch at the next catch. -/
  | strokeResume (crew : Fin 96)
  /-- SYNC_FLIT (R309): A received SYNC flit delivers time, stroke, parameters, hold, election, catch-group and call state and events from the partner. -/
  | syncFlit (p : Fin 32) (f : Flit)
  /-- UPSTREAM_SWITCH (R313): When the upstream port goes down or degrades, the device switches in the next slot to the port with the lowest HOPS. -/
  | upstreamSwitch
  /-- ADD (R110): ADD writes ws + wt to wd and sets ZNCV. -/
  | add (c : CoreId) (d x y : Fin 16)
  /-- ADC (R110): ADC writes ws + wt + C to wd and sets ZNCV. -/
  | adc (c : CoreId) (d x y : Fin 16)
  /-- SUB (R110): SUB writes ws - wt to wd and sets ZNCV. -/
  | sub (c : CoreId) (d x y : Fin 16)
  /-- SBC (R110): SBC writes ws - wt - (1 - C) to wd and sets ZNCV. -/
  | sbc (c : CoreId) (d x y : Fin 16)
  /-- AND (R110): AND writes the bitwise AND to wd, sets ZN and clears C and V. -/
  | and (c : CoreId) (d x y : Fin 16)
  /-- OR (R110): OR writes the bitwise OR to wd, sets ZN and clears C and V. -/
  | or (c : CoreId) (d x y : Fin 16)
  /-- XOR (R110): XOR writes the bitwise XOR to wd, sets ZN and clears C and V. -/
  | xor (c : CoreId) (d x y : Fin 16)
  /-- NOT (R110): NOT writes the complement of ws to wd and sets ZN. -/
  | not (c : CoreId) (d x : Fin 16)
  /-- NEG (R110): NEG writes 0 - ws to wd and sets ZNCV. -/
  | neg (c : CoreId) (d x : Fin 16)
  /-- MOV (R110): MOV copies ws to wd. -/
  | mov (c : CoreId) (d x : Fin 16)
  /-- CMP (R110): CMP sets ZNCV from ws - wt. -/
  | cmp (c : CoreId) (x y : Fin 16)
  /-- TST (R110): TST sets ZN from ws AND wt and clears C and V. -/
  | tst (c : CoreId) (form : TstForm)
  /-- MIN (R110): MIN writes the signed minimum to wd and sets ZN. -/
  | min (c : CoreId) (d x y : Fin 16)
  /-- MAX (R110): MAX writes the signed maximum to wd and sets ZN. -/
  | max (c : CoreId) (d x y : Fin 16)
  /-- MINU (R110): MINU writes the unsigned minimum to wd and sets ZN. -/
  | minu (c : CoreId) (d x y : Fin 16)
  /-- MAXU (R110): MAXU writes the unsigned maximum to wd and sets ZN. -/
  | maxu (c : CoreId) (d x y : Fin 16)
  /-- SEL (R110): SEL writes ws to wd if the condition holds, else wt. -/
  | sel (c : CoreId) (d x y : Fin 16) (cc : Fin 16)
  /-- SHL (R110): SHL shifts ws left by wt bits 3:0 into wd. -/
  | shl (c : CoreId) (d x y : Fin 16)
  /-- SHR (R110): SHR shifts ws logically right by wt bits 3:0 into wd. -/
  | shr (c : CoreId) (d x y : Fin 16)
  /-- SAR (R110): SAR shifts ws arithmetically right by wt bits 3:0 into wd. -/
  | sar (c : CoreId) (d x y : Fin 16)
  /-- ROL (R110): ROL rotates ws left by wt bits 3:0 into wd. -/
  | rol (c : CoreId) (d x y : Fin 16)
  /-- ROR (R110): ROR rotates ws right by wt bits 3:0 into wd. -/
  | ror (c : CoreId) (d x y : Fin 16)
  /-- SHLI (R110): SHLI shifts ws left by the immediate amount in AUX 3:0. -/
  | shli (c : CoreId) (d x : Fin 16) (aux : BitVec 8)
  /-- SHRI (R110): SHRI shifts ws logically right by the immediate amount. -/
  | shri (c : CoreId) (d x : Fin 16) (aux : BitVec 8)
  /-- SARI (R110): SARI shifts ws arithmetically right by the immediate amount. -/
  | sari (c : CoreId) (d x : Fin 16) (aux : BitVec 8)
  /-- ROLI (R110): ROLI rotates ws left by the immediate amount. -/
  | roli (c : CoreId) (d x : Fin 16) (aux : BitVec 8)
  /-- RORI (R110): RORI rotates ws right by the immediate amount. -/
  | rori (c : CoreId) (d x : Fin 16) (aux : BitVec 8)
  /-- CLZ (R110): CLZ writes the count of leading zeros of ws, 16 for zero. -/
  | clz (c : CoreId) (d x : Fin 16)
  /-- POPC (R110): POPC writes the count of set bits of ws. -/
  | popc (c : CoreId) (d x : Fin 16)
  /-- BREV (R110): BREV writes ws with its bit order reversed. -/
  | brev (c : CoreId) (d x : Fin 16)
  /-- MUL (R110): MUL writes the low 16 bits of ws × wt. -/
  | mul (c : CoreId) (d x y : Fin 16)
  /-- MULHS (R110): MULHS writes the high 16 bits of the signed product. -/
  | mulhs (c : CoreId) (d x y : Fin 16)
  /-- MULHU (R110): MULHU writes the high 16 bits of the unsigned product. -/
  | mulhu (c : CoreId) (d x y : Fin 16)
  /-- MULWU (R110): MULWU writes the unsigned 32-bit product to an address register. -/
  | mulwu (c : CoreId) (d : Fin 8) (x y : Fin 16)
  /-- ADDA (R110): ADDA adds a sign-extended w register to an address register. -/
  | adda (c : CoreId) (d s : Fin 8) (y : Fin 16)
  /-- ADDAU (R110): ADDAU adds a zero-extended w register to an address register. -/
  | addau (c : CoreId) (d s : Fin 8) (y : Fin 16)
  /-- ADDAA (R110): ADDAA adds two address registers. -/
  | addaa (c : CoreId) (d s t : Fin 8)
  /-- SUBAA (R110): SUBAA subtracts one address register from another. -/
  | subaa (c : CoreId) (d s t : Fin 8)
  /-- MOVA (R110): MOVA copies an address register. -/
  | mova (c : CoreId) (d s : Fin 8)
  /-- MOVAL (R110): MOVAL copies bits 15:0 of an address register to wd. -/
  | moval (c : CoreId) (d : Fin 16) (s : Fin 8)
  /-- MOVAH (R110): MOVAH copies bits 31:16 of an address register to wd. -/
  | movah (c : CoreId) (d : Fin 16) (s : Fin 8)
  /-- MOVWA (R110): MOVWA forms an address register from two w registers. -/
  | movwa (c : CoreId) (d : Fin 8) (x y : Fin 16)
  /-- CMPA (R110): CMPA sets ZNCV from the 32-bit difference of two address registers. -/
  | cmpa (c : CoreId) (s t : Fin 8)
  /-- SHLA (R110): SHLA shifts an address register left by AUX 4:0. -/
  | shla (c : CoreId) (d s : Fin 8) (aux : BitVec 8)
  /-- EXTB (R110): EXTB writes byte k of ws, zero-extended. -/
  | extb (c : CoreId) (d x : Fin 16) (k : Fin 2)
  /-- EXTBS (R110): EXTBS writes byte k of ws, sign-extended. -/
  | extbs (c : CoreId) (d x : Fin 16) (k : Fin 2)
  /-- INSB (R110): INSB writes bits 7:0 of ws into byte k of wd. -/
  | insb (c : CoreId) (d x : Fin 16) (k : Fin 2)
  /-- PACKB (R110): PACKB packs the low bytes of ws and wt into wd. -/
  | packb (c : CoreId) (d x y : Fin 16)
  /-- SWPB (R110): SWPB exchanges the two bytes of ws into wd. -/
  | swpb (c : CoreId) (d x : Fin 16)
  /-- ADDI (R110): ADDI adds an immediate to ws and sets ZNCV. -/
  | addi (c : CoreId) (d x : Fin 16) (imm : Word)
  /-- ANDI (R110): ANDI ANDs ws with an immediate. -/
  | andi (c : CoreId) (d x : Fin 16) (imm : Word)
  /-- ORI (R110): ORI ORs ws with an immediate. -/
  | ori (c : CoreId) (d x : Fin 16) (imm : Word)
  /-- XORI (R110): XORI XORs ws with an immediate. -/
  | xori (c : CoreId) (d x : Fin 16) (imm : Word)
  /-- LI (R110): LI loads an immediate into wd. -/
  | li (c : CoreId) (d : Fin 16) (imm : Word)
  /-- CMPI (R110): CMPI sets ZNCV from ws minus an immediate. -/
  | cmpi (c : CoreId) (x : Fin 16) (imm : Word)
  /-- ADDAI (R110): ADDAI adds a sign-extended immediate to an address register. -/
  | addai (c : CoreId) (d s : Fin 8) (imm : Word)
  /-- LAL (R110): LAL loads bits 15:0 of an address register from an immediate. -/
  | lal (c : CoreId) (d : Fin 8) (imm : Word)
  /-- LAH (R110): LAH loads bits 31:16 of an address register from an immediate. -/
  | lah (c : CoreId) (d : Fin 8) (imm : Word)
  /-- LD (R111): LD loads a word from the effective address into wd, with optional write-back of the base. -/
  | ld (c : CoreId) (d : Fin 16) (b : Fin 8) (wb : Bool) (off : BitVec 12)
  /-- ST (R111): ST stores ws to the effective address. -/
  | st (c : CoreId) (d : Fin 16) (b : Fin 8) (wb : Bool) (off : BitVec 12)
  /-- LDD (R111): LDD loads a 32-bit value from an even effective address. -/
  | ldd (c : CoreId) (d b : Fin 8) (wb : Bool) (off : BitVec 12)
  /-- STD (R111): STD stores a 32-bit value to an even effective address. -/
  | std (c : CoreId) (d b : Fin 8) (wb : Bool) (off : BitVec 12)
  /-- LOAD_RETURN (R112): Data of an outstanding load returns and releases instructions stalled on its destination register. -/
  | loadReturn (c : CoreId) (n : Nat)
  /-- IMPRECISE_ERROR_REPORT (R126): An error reported after the access issued raises an imprecise ACCESS or BUSERR, or is held while EXL is 1. -/
  | impreciseErrorReport (c : CoreId)
  /-- BC (R110): BC branches by DISP if its condition holds. -/
  | bc (c : CoreId) (cc : Fin 16) (disp : BitVec 20)
  /-- CALL (R110): CALL pushes the return address and branches by DISP. -/
  | call (c : CoreId) (disp : BitVec 20)
  /-- JR (R110): JR jumps to the address in as. -/
  | jr (c : CoreId) (s : Fin 8)
  /-- CALLR (R110): CALLR pushes the return address and jumps to as. -/
  | callr (c : CoreId) (s : Fin 8)
  /-- RET (R110): RET pops the return address into PC. -/
  | ret (c : CoreId)
  /-- NOP (R114): NOP does nothing. -/
  | nop (c : CoreId)
  /-- MFS (R114): MFS reads a special register into wd. -/
  | mfs (c : CoreId) (d : Fin 16) (sr : BitVec 8)
  /-- MTS (R114): MTS writes ws to a special register from the next instruction. -/
  | mts (c : CoreId) (sr : BitVec 8) (x : Fin 16)
  /-- RETI (R114): RETI restores CST from ECST and jumps to EPC. -/
  | reti (c : CoreId)
  /-- WFI (R114): WFI waits until an enabled interrupt source is asserted. -/
  | wfi (c : CoreId)
  /-- BRK (R114): BRK raises the BRK exception with EVAL = AUX. -/
  | brk (c : CoreId) (imm : BitVec 8)
  /-- TRAP (R114): TRAP raises the TRAP exception with EVAL = AUX, resuming at the next instruction. -/
  | trap (c : CoreId) (imm : BitVec 8)
  /-- CSYNC (R114): CSYNC waits until every earlier load, store and write-back of the core is complete at its target. -/
  | csync (c : CoreId)
  /-- CFLUSH (R114): CFLUSH writes back the dirty L1D line holding an address and leaves it clean. -/
  | cflush (c : CoreId) (s : Fin 8)
  /-- CINV (R114): CINV invalidates the L1D line holding an address, discarding dirty data. -/
  | cinv (c : CoreId) (s : Fin 8)
  /-- CFLUSH_A (R114): CFLUSH.A writes back every dirty L1D line. -/
  | cflushA (c : CoreId)
  /-- CINV_A (R114): CINV.A invalidates the whole L1D, discarding dirty data. -/
  | cinvA (c : CoreId)
  /-- CINV_I (R114): CINV.I invalidates the whole L1 instruction cache. -/
  | cinvI (c : CoreId)
  /-- LSAVE (R120): LSAVE pushes loop level 0 and shifts the other levels down, freeing one level. -/
  | lsave (c : CoreId)
  /-- LREST (R120): LREST shifts levels up and pops level 0 from the stack. -/
  | lrest (c : CoreId)
  /-- LPOP (R119): LPOP ends the innermost loop level without a transfer. -/
  | lpop (c : CoreId)
  /-- LOOP (R116): LOOP opens a hardware loop level with its count, or skips the body when the count is 0. -/
  | loop (c : CoreId) (count : LoopCount) (len : BitVec 12)
  /-- REPMOV (R121): REPMOV copies a6 words from a4 to a5 upward, resumably. -/
  | repmov (c : CoreId)
  /-- REPMOV_D (R121): REPMOV.D copies a6 words from a4 to a5 downward, resumably. -/
  | repmovD (c : CoreId)
  /-- REPSET (R121): REPSET fills a6 words at a5 with ws. -/
  | repset (c : CoreId) (x : Fin 16)
  /-- REPCMP (R121): REPCMP compares words at a4 and a5 until a difference or a6 reaches 0. -/
  | repcmp (c : CoreId)
  /-- REPSCAN (R121): REPSCAN scans from a4 for a word equal to ws. -/
  | repscan (c : CoreId) (x : Fin 16)
  /-- REPSCAN_NE (R121): REPSCAN.NE scans from a4 for a word not equal to ws. -/
  | repscanNe (c : CoreId) (x : Fin 16)
  /-- BLOCK_REPEAT_ELEMENT (R123): One element of a block-repeat instruction completes once its data is present, updating a4, a5 and a6. -/
  | blockRepeatElement (c : CoreId)
  /-- HLEA (R114): HLEA forms the address of a handle's base plus an offset after the handle checks. -/
  | hlea (c : CoreId) (d : Fin 8) (x : Fin 16) (t : Fin 8)
  /-- HAIL (R115): HAIL sends 1–4 words to a remote window through the crew's hail port and names a counter to advance at the target. -/
  | hail (c : CoreId) (d : Fin 16) (s : Fin 8) (y : Fin 16) (n : Fin 4)
  /-- HAIL_ACCEPT (R115): The hail port accepts a stalled hail once it has room. -/
  | hailAccept (c : CoreId)
  /-- TEND (R114): TEND ends the seat's running task. -/
  | tend (c : CoreId)
  /-- CGA (R273): CGA records an arrival, or an early arrival, at a catch group, or stalls when one is already held. -/
  | cga (c : CoreId) (g : Fin 64)
  /-- CGW (R275): CGW waits until the catch group's generation advances past the core's last arrival. -/
  | cgw (c : CoreId) (g : Fin 64)
  /-- CLS (R279): CLS sets a call locally or sends the set to the master for a SYS call. -/
  | cls (c : CoreId) (n : Fin 256)
  /-- CLC (R279): CLC clears a call locally or sends the clear to the master for a SYS call. -/
  | clc (c : CoreId) (n : Fin 256)
  /-- CLT (R281): CLT returns the call's value on the device. -/
  | clt (c : CoreId) (d : Fin 16) (n : Fin 256)
  /-- CLW (R281): CLW waits until the call's value is 1. -/
  | clw (c : CoreId) (n : Fin 256)
  /-- INTERRUPT (R128): An enabled pending interrupt is taken at an instruction boundary with IE = 1, lowest vector first. -/
  | interrupt (c : CoreId)
  /-- SEAT_STOP (R130): After draining its queues, a seat stops with its state held, writes EPC, ECAUSE and EVAL and reports to its cox. -/
  | seatStop (crew : Fin 96) (s : Fin 8)
  /-- VLD (R143): VLD loads contiguous words into enabled lanes of vd. -/
  | vld (c : CoreId) (d : Fin 16) (b : Fin 8) (wb : Bool) (off : BitVec 12) (pr : Fin 4)
  /-- VLD_B (R143): VLD.B broadcasts one word into the enabled lanes. -/
  | vldB (c : CoreId) (d : Fin 16) (b : Fin 8) (wb : Bool) (off : BitVec 12) (pr : Fin 4)
  /-- VST (R143): VST stores enabled lanes to contiguous words. -/
  | vst (c : CoreId) (d : Fin 16) (b : Fin 8) (wb : Bool) (off : BitVec 12) (pr : Fin 4)
  /-- VLDS (R143): VLDS loads enabled lanes with a register stride. -/
  | vlds (c : CoreId) (d : Fin 16) (b : Fin 8) (wb : Bool) (off : BitVec 12) (sr : Fin 4) (pr : Fin 4)
  /-- VSTS (R143): VSTS stores enabled lanes with a register stride, higher lanes prevailing. -/
  | vsts (c : CoreId) (d : Fin 16) (b : Fin 8) (wb : Bool) (off : BitVec 12) (sr : Fin 4) (pr : Fin 4)
  /-- TLD (R142): TLD queues a tile load of 16 rows on the tile path. -/
  | tld (c : CoreId) (t : Fin 8) (b : Fin 8) (wb : Bool) (stride : TileStride)
  /-- ZLD (R142): ZLD queues an accumulator load. -/
  | zld (c : CoreId) (z : Fin 4) (b : Fin 8) (wb : Bool) (stride : TileStride)
  /-- ZST (R142): ZST queues an accumulator store. -/
  | zst (c : CoreId) (z : Fin 4) (b : Fin 8) (wb : Bool) (stride : TileStride)
  /-- TILE_PATH_TRANSFER (R157): A queued tile-path operation executes in program order when its interlocks allow and completes after its queue time. -/
  | tilePathTransfer (c : CoreId)
  /-- MATRIX_QUEUE_OPERATION (R158): A queued matrix-queue operation executes when its tile and accumulator dependencies allow and completes after its queue time. -/
  | matrixQueueOperation (c : CoreId)
  /-- VADD (R146): VADD adds lanes modulo the width. -/
  | vadd (c : CoreId) (d x y : Fin 16) (pr : Fin 4) (ty : ElemTy)
  /-- VSUB (R146): VSUB subtracts lanes modulo the width. -/
  | vsub (c : CoreId) (d x y : Fin 16) (pr : Fin 4) (ty : ElemTy)
  /-- VADDS (R146): VADDS adds lanes with saturation. -/
  | vadds (c : CoreId) (d x y : Fin 16) (pr : Fin 4) (ty : ElemTy)
  /-- VSUBS (R146): VSUBS subtracts lanes with saturation. -/
  | vsubs (c : CoreId) (d x y : Fin 16) (pr : Fin 4) (ty : ElemTy)
  /-- VMUL (R146): VMUL writes the low 16 bits of lane products. -/
  | vmul (c : CoreId) (d x y : Fin 16) (pr : Fin 4) (ty : ElemTy)
  /-- VMULH (R146): VMULH writes the high 16 bits of lane products. -/
  | vmulh (c : CoreId) (d x y : Fin 16) (pr : Fin 4) (ty : ElemTy)
  /-- VMIN (R146): VMIN writes lane minima. -/
  | vmin (c : CoreId) (d x y : Fin 16) (pr : Fin 4) (ty : ElemTy)
  /-- VMAX (R146): VMAX writes lane maxima. -/
  | vmax (c : CoreId) (d x y : Fin 16) (pr : Fin 4) (ty : ElemTy)
  /-- VAND (R146): VAND writes bitwise AND of lanes. -/
  | vand (c : CoreId) (d x y : Fin 16) (pr : Fin 4) (ty : ElemTy)
  /-- VOR (R146): VOR writes bitwise OR of lanes. -/
  | vor (c : CoreId) (d x y : Fin 16) (pr : Fin 4) (ty : ElemTy)
  /-- VXOR (R146): VXOR writes bitwise XOR of lanes. -/
  | vxor (c : CoreId) (d x y : Fin 16) (pr : Fin 4) (ty : ElemTy)
  /-- VSHL (R146): VSHL shifts lanes left. -/
  | vshl (c : CoreId) (d x y : Fin 16) (pr : Fin 4) (ty : ElemTy)
  /-- VSHR (R146): VSHR shifts lanes right by type. -/
  | vshr (c : CoreId) (d x y : Fin 16) (pr : Fin 4) (ty : ElemTy)
  /-- VABS (R146): VABS writes lane absolute values. -/
  | vabs (c : CoreId) (d x : Fin 16) (pr : Fin 4) (ty : ElemTy)
  /-- VMOV (R146): VMOV copies lanes. -/
  | vmov (c : CoreId) (d x : Fin 16) (pr : Fin 4) (ty : ElemTy)
  /-- VMAC (R146): VMAC accumulates lane products into vd. -/
  | vmac (c : CoreId) (d x y : Fin 16) (pr : Fin 4) (ty : ElemTy)
  /-- VFADD (R155): VFADD adds floating-point lanes. -/
  | vfadd (c : CoreId) (d x y : Fin 16) (pr : Fin 4) (ty : ElemTy)
  /-- VFSUB (R155): VFSUB subtracts floating-point lanes. -/
  | vfsub (c : CoreId) (d x y : Fin 16) (pr : Fin 4) (ty : ElemTy)
  /-- VFMUL (R155): VFMUL multiplies floating-point lanes. -/
  | vfmul (c : CoreId) (d x y : Fin 16) (pr : Fin 4) (ty : ElemTy)
  /-- VFMA (R155): VFMA fused multiply-adds into vd. -/
  | vfma (c : CoreId) (d x y : Fin 16) (pr : Fin 4) (ty : ElemTy)
  /-- VFMS (R155): VFMS fused multiply-subtracts from vd. -/
  | vfms (c : CoreId) (d x y : Fin 16) (pr : Fin 4) (ty : ElemTy)
  /-- VFMIN (R146): VFMIN writes floating-point lane minima. -/
  | vfmin (c : CoreId) (d x y : Fin 16) (pr : Fin 4) (ty : ElemTy)
  /-- VFMAX (R146): VFMAX writes floating-point lane maxima. -/
  | vfmax (c : CoreId) (d x y : Fin 16) (pr : Fin 4) (ty : ElemTy)
  /-- VFABS (R146): VFABS clears lane signs. -/
  | vfabs (c : CoreId) (d x : Fin 16) (pr : Fin 4) (ty : ElemTy)
  /-- VFNEG (R146): VFNEG inverts lane signs. -/
  | vfneg (c : CoreId) (d x : Fin 16) (pr : Fin 4) (ty : ElemTy)
  /-- VFRCP (R155): VFRCP writes correctly rounded reciprocals. -/
  | vfrcp (c : CoreId) (d x : Fin 16) (pr : Fin 4) (ty : ElemTy)
  /-- VFRSQ (R155): VFRSQ writes correctly rounded reciprocal square roots. -/
  | vfrsq (c : CoreId) (d x : Fin 16) (pr : Fin 4) (ty : ElemTy)
  /-- VFEXP2 (R155): VFEXP2 writes 2 to the power of each lane. -/
  | vfexp2 (c : CoreId) (d x : Fin 16) (pr : Fin 4) (ty : ElemTy)
  /-- VFLOG2 (R155): VFLOG2 writes the base-2 logarithm of each lane. -/
  | vflog2 (c : CoreId) (d x : Fin 16) (pr : Fin 4) (ty : ElemTy)
  /-- VCMP (R146): VCMP writes every bit of pd from a lane comparison under the predicate. -/
  | vcmp (c : CoreId) (pd : Fin 4) (x y : Fin 16) (cond : Fin 6) (pr : Fin 4) (ty : ElemTy)
  /-- VBC (R146): VBC broadcasts ws into enabled lanes. -/
  | vbc (c : CoreId) (d x : Fin 16) (pr : Fin 4)
  /-- VINS (R146): VINS inserts ws into one lane. -/
  | vins (c : CoreId) (d x y : Fin 16) (pr : Fin 4)
  /-- VEXT (R146): VEXT extracts one lane into wd. -/
  | vext (c : CoreId) (d x y : Fin 16)
  /-- VPERM (R146): VPERM permutes lanes by indices in vt. -/
  | vperm (c : CoreId) (d x y : Fin 16) (pr : Fin 4)
  /-- VROT (R146): VROT rotates lanes by wt. -/
  | vrot (c : CoreId) (d x y : Fin 16) (pr : Fin 4)
  /-- VSEL (R146): VSEL selects lanes from vs or vt by predicate. -/
  | vsel (c : CoreId) (d x y : Fin 16) (pr : Fin 4)
  /-- VIOTA (R146): VIOTA writes each lane's index. -/
  | viota (c : CoreId) (d : Fin 16) (pr : Fin 4)
  /-- VRADD (R146): VRADD sums participating lanes into wd. -/
  | vradd (c : CoreId) (d x : Fin 16) (pr : Fin 4) (ty : ElemTy)
  /-- VRMIN (R146): VRMIN writes the minimum of participating lanes. -/
  | vrmin (c : CoreId) (d x : Fin 16) (pr : Fin 4) (ty : ElemTy)
  /-- VRMAX (R146): VRMAX writes the maximum of participating lanes. -/
  | vrmax (c : CoreId) (d x : Fin 16) (pr : Fin 4) (ty : ElemTy)
  /-- VFRADD (R147): VFRADD sums participating lanes by the fixed five-round tree. -/
  | vfradd (c : CoreId) (d x : Fin 16) (pr : Fin 4) (ty : ElemTy)
  /-- VFRMIN (R146): VFRMIN writes the floating-point minimum of participating lanes. -/
  | vfrmin (c : CoreId) (d x : Fin 16) (pr : Fin 4) (ty : ElemTy)
  /-- VFRMAX (R146): VFRMAX writes the floating-point maximum of participating lanes. -/
  | vfrmax (c : CoreId) (d x : Fin 16) (pr : Fin 4) (ty : ElemTy)
  /-- VCVT (R156): VCVT converts lanes between types with rounding and saturation. -/
  | vcvt (c : CoreId) (d x : Fin 16) (dst src : ElemTy) (h sat : Bool)
  /-- PAND (R146): PAND writes the AND of two predicates. -/
  | pand (c : CoreId) (d x y : Fin 4)
  /-- POR (R146): POR writes the OR of two predicates. -/
  | por (c : CoreId) (d x y : Fin 4)
  /-- PXOR (R146): PXOR writes the XOR of two predicates. -/
  | pxor (c : CoreId) (d x y : Fin 4)
  /-- PNOT (R146): PNOT complements a predicate. -/
  | pnot (c : CoreId) (d x : Fin 4)
  /-- PTAIL (R146): PTAIL sets predicate bits below wt. -/
  | ptail (c : CoreId) (d : Fin 4) (y : Fin 16)
  /-- PCNT (R146): PCNT counts predicate bits set into wd. -/
  | pcnt (c : CoreId) (d : Fin 16) (x : Fin 4)
  /-- PMOVA (R146): PMOVA copies a predicate to an address register. -/
  | pmova (c : CoreId) (d : Fin 8) (x : Fin 4)
  /-- PMOVP (R146): PMOVP copies an address register to a predicate. -/
  | pmovp (c : CoreId) (d : Fin 4) (s : Fin 8)
  /-- MMA (R148): MMA queues zd = acc + A × B on the matrix queue, using the reuse latches when hinted. -/
  | mma (c : CoreId) (d : Fin 4) (a b : Fin 8) (fresh : Bool) (bfmt : Fin 4) (ra rb : Bool) (ty : ElemTy)
  /-- ZZERO (R149): ZZERO queues zeroing of an accumulator. -/
  | zzero (c : CoreId) (d : Fin 4)
  /-- ZCVT (R149): ZCVT queues conversion of an accumulator into a tile. -/
  | zcvt (c : CoreId) (t : Fin 8) (z : Fin 4) (sh : Fin 16) (int sat h : Bool) (ty : ElemTy)
  /-- ZMOVR (R149): ZMOVR queues a move of one accumulator row into vd. -/
  | zmovr (c : CoreId) (d : Fin 16) (z : Fin 4) (r : Fin 16)
  /-- TZERO (R149): TZERO queues zeroing of a tile. -/
  | tzero (c : CoreId) (t : Fin 8)
  /-- TTR (R149): TTR queues a whole-word transpose of a tile. -/
  | ttr (c : CoreId) (d s : Fin 8)
  /-- TMOVR (R149): TMOVR queues a move of a vector into two tile rows. -/
  | tmovr (c : CoreId) (t : Fin 8) (x : Fin 16) (r : Fin 16)
  /-- VMOVT (R149): VMOVT queues a move of two tile rows into a vector. -/
  | vmovt (c : CoreId) (d : Fin 16) (t : Fin 8) (r : Fin 16)
  /-- INVALL (R193): A pulse of COX_CC_CMD.INVALL starts invalidating every crew-cache line valid at the pulse. -/
  | invall (crew : Fin 96)
  /-- INVRANGE (R193): A pulse of COX_CC_CMD.INVRANGE starts invalidating crew-cache lines in the RBASE/RLEN range. -/
  | invrange (crew : Fin 96)
  /-- CC_COMMAND_DONE (R193): A crew-cache command ends after 1,024 cc, clearing BUSY and setting DONE. -/
  | ccCommandDone (crew : Fin 96)
  /-- CC_DISABLE (R194): Writing COX_CC_CTRL.EN to 0 drops every line and starts zeroing the cache storage range. -/
  | ccDisable (crew : Fin 96)
  /-- CC_DISABLE_DONE (R194): After 512 cc of zeroing the range becomes crew store, BUSY clears and DONE sets. -/
  | ccDisableDone (crew : Fin 96)
  /-- CC_ENABLE (R195): Writing COX_CC_CTRL.EN to 1 makes the storage range cache storage at once, unmapped for access. -/
  | ccEnable (crew : Fin 96)
  /-- HCAS (R181): A COX_HCAS write compares the handle state with EXPECT and stores NEW if equal, recording the result per requester. -/
  | hcas (who : Requester) (crew : Fin 96) (h : Fin 256) (expect new : Fin 4)
  /-- LINE_FILL (R187): An L1 data cache miss fill returns from the crew cache or the target and installs the line. -/
  | lineFill (c : CoreId) (n : Nat)
  /-- CORRECTED_WRITEBACK (R175): A corrected single-bit error is written back in the next free cycle of the bank or port. -/
  | correctedWriteback (addr : Addr)
  /-- BANK_GRANT (R170): A crew-store bank grants one request per cycle, oldest first, serving same-block reads together. -/
  | bankGrant (crew : Fin 96) (row col : Fin 4)
  /-- MEMORY_ZEROING_DONE (R198): Zeroing of seat memories or crew stores after power-up completes, allowing crew release. -/
  | memoryZeroingDone (kind : ZeroKind)
  /-- CNT_INC (R204): A COX_CNT_INC write advances the named counter by AMT, summed with other advances that cycle. -/
  | cntInc (crew : Fin 96) (cnt : Fin 64) (amt : BitVec 8)
  /-- GATE_EVALUATION (R204): In the cycle after a counter or handle state changes, the scoreboard evaluates and latches every gate naming it. -/
  | gateEvaluation (crew : Fin 96) (q : Fin 32)
  /-- COX_DBELL_SET (R221): A COX_DBELL_SET write sets doorbell bits and asserts vector 26. -/
  | coxDbellSet (crew : Fin 96) (bits : Word)
  /-- QUEUE_ENABLE (R206): Writing a queue's EN from 0 to 1 zeroes HEAD and TAIL, checks the ring and enters RUN or ERROR. -/
  | queueEnable (crew : Fin 96) (q : Fin 32) (ctrl : Word)
  /-- QUEUE_DISABLE (R206): Writing a queue's EN to 0 puts it in OFF and discards the head buffer. -/
  | queueDisable (crew : Fin 96) (q : Fin 32) (ctrl : Word)
  /-- TAIL_WRITE (R207): A TAIL write enqueues or withdraws records, or sets OVERFLOW if the ring would overfill. -/
  | tailWrite (crew : Fin 96) (q : Fin 32) (v : Word)
  /-- HEAD_WRITE (R209): A HEAD write in EVENT mode consumes records, and is ignored if it would pass TAIL. -/
  | headWrite (crew : Fin 96) (q : Fin 32) (v : Word)
  /-- HEAD_FETCH (R210): A RUN queue fetches its head record into the head buffer and checks it. -/
  | headFetch (crew : Fin 96) (q : Fin 32)
  /-- DISPATCH_ROUND (R212): Every 4 cc the scheduler chooses the eligible queue of highest priority and dispatches its head task to the lowest IDLE seat. -/
  | dispatchRound (crew : Fin 96)
  /-- TASK_COMPLETION (R216): After TEND and drain the cox applies the handle update, counter advance and TDONE actions in order. -/
  | taskCompletion (crew : Fin 96) (s : Fin 8)
  /-- COUNTER_ADVANCE_ARRIVAL (R216): A cross-crew counter advance arriving over the control network is applied, refused or dropped with a TARGET error. -/
  | counterAdvanceArrival (n : Nat)
  /-- RESTART (R217): COX_Qq_CMD.RESTART refetches the head record of a queue in ERROR and returns it to RUN. -/
  | restart (crew : Fin 96) (q : Fin 32)
  /-- SKIP (R217): COX_Qq_CMD.SKIP retires the head record of a queue in ERROR without actions and returns it to RUN. -/
  | skip (crew : Fin 96) (q : Fin 32)
  /-- FLUSH (R207): COX_Qq_CMD.FLUSH sets HEAD to TAIL and discards the head buffer. -/
  | flush (crew : Fin 96) (q : Fin 32)
  /-- COX_SEAT_STOP (R218): The STOP seat command stops a running seat at its next boundary, or stops an IDLE seat holding no task. -/
  | coxSeatStop (crew : Fin 96) (s : Fin 8)
  /-- COX_SEAT_RESUME (R218): The RESUME seat command continues a stopped seat at EPC. -/
  | coxSeatResume (crew : Fin 96) (s : Fin 8)
  /-- COX_SEAT_ABORT (R218): The ABORT seat command ends the seat's task with no completion actions. -/
  | coxSeatAbort (crew : Fin 96) (s : Fin 8)
  /-- DMA_START (R245): DMA_CMD.START clears counts and starts the chain at DMA_HEAD. -/
  | dmaStart (crew : Fin 96) (n : Fin 4)
  /-- DMA_STOP (R245): DMA_CMD.STOP halts the engine at the next descriptor boundary, or at once while waiting. -/
  | dmaStop (crew : Fin 96) (n : Fin 4)
  /-- DMA_ABORT (R245): DMA_CMD.ABORT stops issuing at once and enters ABORTING. -/
  | dmaAbort (crew : Fin 96) (n : Fin 4)
  /-- DMA_RESUME (R246): DMA_CMD.RESUME continues a halted chain from DMA_CUR. -/
  | dmaResume (crew : Fin 96) (n : Fin 4)
  /-- ABORT_COMPLETE (R245): When issued writes of an aborting engine complete, it becomes IDLE and sets ABORTED. -/
  | abortComplete (crew : Fin 96) (n : Fin 4)
  /-- DESCRIPTOR_FETCH (R228): An engine reads and checks a descriptor, halting on the first failed check. -/
  | descriptorFetch (crew : Fin 96) (n : Fin 4)
  /-- DMA_GATE_OPEN (R234): A waiting descriptor's gate is evaluated after its counter or handle changes and the engine leaves WAIT. -/
  | dmaGateOpen (crew : Fin 96) (n : Fin 4)
  /-- LIST_ENTRY_READ (R230): An engine reads the next scatter/gather entry, halting with LISTLEN if the list mismatches LEN. -/
  | listEntryRead (crew : Fin 96) (n : Fin 4) (dst : Bool)
  /-- DMA_BURST_GRANT (R248): The crew DMA arbiter grants a burst of up to 64 flits to the highest-priority, longest-waiting engine. -/
  | dmaBurstGrant (crew : Fin 96)
  /-- DMA_RESPONSE (R235): A read data or write acknowledgement returns to an engine. -/
  | dmaResponse (crew : Fin 96) (n : Fin 4)
  /-- DESCRIPTOR_COMPLETION (R238): A descriptor signals POSTED or VERIFIED completion and applies its handle, counter, FULL and next-fetch actions. -/
  | descriptorCompletion (crew : Fin 96) (n : Fin 4)
  /-- DMA_TIMEOUT (R242): A request unanswered within its timeout halts the engine with TIMEOUT. -/
  | dmaTimeout (crew : Fin 96) (n : Fin 4) (i : Nat)
  /-- ROUTER_ARBITRATION (R259): Each mesh output grants the eligible head of highest priority and age once per mesh cycle. -/
  | routerArbitration (router : Fin 96) (turn : LinkTurn)
  /-- MESH_WRITE (R264): A write packet reaches its target, enters the port or bank queue and is acknowledged. -/
  | meshWrite (router : Fin 96)
  /-- MESH_READ (R257): A read packet reaches its target and returns read data. -/
  | meshRead (router : Fin 96)
  /-- WRITE_ACKNOWLEDGE (R264): A write acknowledgement reaches the requester, completing the write for CSYNC and VERIFIED. -/
  | writeAcknowledge (router : Fin 96)
  /-- CONTROL_TRANSACTION (R269): A control-network register transaction reaches its target block and is applied whole. -/
  | controlTransaction (n : Nat)
  /-- CONTROL_TIMEOUT (R271): A control-network transaction not accepted within 10 µs ends with an error response. -/
  | controlTimeout (n : Nat)
  /-- CATCH_GROUP_COMPLETION (R274): A catch group completes, increments GEN, releases waiters and signals CATCH gates. -/
  | catchGroupCompletion (g : Fin 64)
  /-- CATCH_GROUP_ENABLE (R272): Writing SYN_CGCTRLg.EN from 0 to 1 clears arrivals, early arrivals and GEN. -/
  | catchGroupEnable (g : Fin 64) (ctrl : Word)
  /-- CATCH_GROUP_DISABLE (R272): Writing SYN_CGCTRLg.EN from 1 to 0 releases every waiter with ACCESS. -/
  | catchGroupDisable (g : Fin 64) (ctrl : Word)
  /-- CALL_SET (R279): A SYN_CALLSETk bit sets an enabled call as CLS does, or is discarded for a SYS call with no SYS traffic. -/
  | callSet (k : Fin 16) (bits : Word)
  /-- CALL_CLEAR (R279): A SYN_CALLCLRk bit clears an enabled call as CLC does. -/
  | callClear (k : Fin 16) (bits : Word)
  /-- CALL_DISABLE (R278): Writing SYN_CALLCFGc.EN from 1 to 0 clears the call's value on the device. -/
  | callDisable (n : Fin 256) (cfg : Word)
  /-- FLIT_SLOT (R297): Each flit position the sender sends a SYNC, CTRL, DATA or IDLE flit by precedence. -/
  | flitSlot (p : Fin 32)
  /-- DATA_FLIT (R299): A received DATA flit is accepted in sequence, discarded as duplicate, or treated as a gap with NAK. -/
  | dataFlit (p : Fin 32) (f : Flit)
  /-- IDLE_FLIT (R299): A received IDLE flit carries ACK, NAK and credits and is never replayed. -/
  | idleFlit (p : Fin 32) (f : Flit)
  /-- NAK_REPEAT (R301): When the expected flit is not accepted within the round trip plus 200 ns, the receiver repeats the NAK. -/
  | nakRepeat (p : Fin 32)
  /-- RETRY_EXHAUSTION (R301): A retry episode needing a ninth NAK or lasting 2 µs exhausts the budget, setting RETRYEXH and degrading or downing the port. -/
  | retryExhaustion (p : Fin 32) (upper : Bool)
  /-- DEGRADE (R302): A received CTRL DEGRADE moves the port to the named half and starts DEGRADE_ACK. -/
  | degrade (p : Fin 32) (h : FlitHdr) (upper : Bool)
  /-- DEGRADE_ACK (R302): A received DEGRADE_ACK naming the chosen half moves the sender's transmitter to that half. -/
  | degradeAck (p : Fin 32) (h : FlitHdr) (upper : Bool)
  /-- DEGRADE_TIMEOUT (R302): No DEGRADE_ACK within 8 µs of the first DEGRADE takes the port down with cause RETRY. -/
  | degradeTimeout (p : Fin 32)
  /-- LOS (R303): Loss of optical signal on active lanes degrades the port if one half, else downs it after 1 µs. -/
  | los (p : Fin 32) (lanes : BitVec 8)
  /-- CTRL_DOWN (R303): A received CTRL DOWN takes the port down with cause PARTNER. -/
  | ctrlDown (p : Fin 32) (h : FlitHdr) (cause : Fin 16)
  /-- CREDIT_TIMEOUT (R303): A channel with waiting flits and no credit for 1 ms takes the port down with cause CREDIT. -/
  | creditTimeout (p : Fin 32) (vc : Fin 6)
  /-- IDENT (R307): A received IDENT is checked for SYSID, DUPID and MISWIRE, and the port enters ACTIVE or HELD. -/
  | ident (p : Fin 32) (h : FlitHdr) (id : Ident)
  /-- LIGHT_DETECT (R305): Light on at least four lanes moves a port from DETECT to LOCK. -/
  | lightDetect (p : Fin 32) (lanes : BitVec 8)
  /-- LOCK_COMPLETE (R305): Lock of every lit lane moves the port to ALIGN. -/
  | lockComplete (p : Fin 32) (lanes : BitVec 8)
  /-- ALIGN_COMPLETE (R305): Codeword lock with a valid device ID moves the port to IDENT. -/
  | alignComplete (p : Fin 32)
  /-- TRAINING_TIMEOUT (R305): A training step exceeding its limit takes the port down with cause TRAIN. -/
  | trainingTimeout (p : Fin 32)
  /-- DOWN_END (R305): After 1 ms dark a down port returns to DETECT if AUTO is 1. -/
  | downEnd (p : Fin 32)
  /-- HELD_IDENT (R305): A HELD port sends IDENT every 1 ms. -/
  | heldIdent (p : Fin 32)
  /-- PORT_ENABLE (R305): Writing GW_CTRL.EN to 1 starts training, and to 0 disables the port, going down with CMD if up. -/
  | portEnable (p : Fin 32) (ctrl : Word)
  /-- RETRAIN (R305): GW_CMD.RETRAIN takes the port down if up and returns it to DETECT after 1 ms. -/
  | retrain (p : Fin 32)
  /-- GW_CMD_DOWN (R303): GW_CMD.DOWN takes the port down with cause CMD. -/
  | gwCmdDown (p : Fin 32)
  /-- DEVID_WRITE (R308): A GW_DEVID or GW_SYSID write takes effect only while every port is down, else is ignored with IDLOCK. -/
  | devidWrite (sysid : Bool) (v : Word)
  /-- ROUTING_ENTRY_WRITE (R323): A routing entry write applies to packets routed from the next cycle and discards nothing. -/
  | routingEntryWrite (d : Fin 256) (v : Word)
  /-- PACKET_FORWARD (R319): A transport packet not for this device decrements HOPLEFT and leaves by the port its routing entry selects. -/
  | packetForward (p : Fin 32)
  /-- ROUTING_TABLE_BUILD (R322): Boathouse firmware writes the default routing table after UP, DOWN or NBRCHG events. -/
  | routingTableBuild
  /-- WINDOW_OPEN (R329): Writing a window's OPEN from 0 to 1 checks the entry and opens it or sets BAD. -/
  | windowOpen (w : Fin 4096) (ctrl : Word)
  /-- WINDOW_CLOSE (R330): Writing OPEN from 1 to 0 closes the window and resets the lane's receive contexts. -/
  | windowClose (w : Fin 4096) (ctrl : Word)
  /-- REQUEST_SEQUENCED (R339): A remote request is numbered in its stream and leaves the sequencer when a context and tokens are available. -/
  | requestSequenced (src : RmaSource)
  /-- WRITE_PACKET (R336): A WRITE packet at the target passes context, sequence and window checks and is written and acknowledged, or refused. -/
  | writePacket (p : Option (Fin 32))
  /-- READ_PACKET (R336): A READ packet at the target returns its words in one RDATA after earlier requests of the stream. -/
  | readPacket (p : Option (Fin 32))
  /-- HAIL_PACKET (R337): A HAIL packet writes its words, waits for earlier writes, advances the counter, posts an event record and ACKs. -/
  | hailPacket (p : Option (Fin 32))
  /-- RDATA (R343): An RDATA response completes its matching read request, or is dropped as stale. -/
  | rdata (p : Option (Fin 32))
  /-- ACK (R343): An ACK completes its matching request, triggers a GAP resend, or is dropped as stale. -/
  | ack (p : Option (Fin 32))
  /-- NAK (R348): A NAK fails its request and reports it by engine halt or hail failure status. -/
  | nak (p : Option (Fin 32))
  /-- ATTEMPT_TIMEOUT (R347): An attempt timer expiry retransmits the request and later ones, or fails the request after the last attempt. -/
  | attemptTimeout (sq : Fin 32) (lane : Fin 1024) (dev : Fin 256) (seq : BitVec 32)
  /-- CONTEXT_CLOSE (R340): An initiator context with nothing outstanding for 500 µs is closed. -/
  | contextClose (sq : Fin 32) (lane : Fin 1024) (dev : Fin 256)
  /-- QUARANTINE_END (R369): A new epoch's SYN may leave once 500 µs have passed since the previous epoch's last packet. -/
  | quarantineEnd (sq : Fin 32) (lane : Fin 1024) (dev : Fin 256)
  /-- RATE_INCREASE (R350): After RMA_INC.INTERVAL without WASH, the destination rate rises by STEP up to 1,024. -/
  | rateIncrease (dev : Fin 256)
  /-- AGE_DISCARD (R368): A transport packet older than 100 µs in a device is discarded and counted in RMA_AGEDROP. -/
  | ageDiscard (p : Option (Fin 32)) (egress : Bool)
  /-- RMA_TIMEOUT_WRITE (R345): A write of RMA_TIMEOUT below the 12 µs clamp sets RMA_EVT.CLAMP and the clamp is used. -/
  | rmaTimeoutWrite (v : Word)
  /-- REARM (R359): A pulse of HST_FLT_CMD.REARM resends the host fault message if the masked summary is non-zero. -/
  | rearm
  /-- ACTIVATE (R379): LANE_SLOT_CMD.ACTIVATE moves a FREE slot with a unique non-zero lane to ACTIVE, or sets IGNORED. -/
  | activate (slot : Fin 16)
  /-- RELEASE (R390): RELEASE written through PF0 moves a HELD slot to SCRUB. -/
  | release (who : Requester) (slot : Fin 16)
  /-- LANE_KILL (R384): A kill of an ACTIVE slot puts it in DRAIN and stops the lane's cox, seats, engines, windows and contexts in one cycle. -/
  | laneKill (who : Requester) (v : Word)
  /-- VF_KILL (R383): Writing 0x8001 to a VF's VF_KILL is the slot's kill request without RETAIN. -/
  | vfKill (slot : Fin 16) (key : Word)
  /-- CREW_ASSIGN (R378): A LANE_CREW write with EN = 1 assigns an unassigned crew to an ACTIVE slot, or is refused. -/
  | crewAssign (crew : Crew) (v : Word)
  /-- DRAIN_END (R385): When accepted writes into the lane are acknowledged, the slot moves to SCRUB, or HELD with retention. -/
  | drainEnd (slot : Fin 16)
  /-- ZERO_PASS_END (R387): The scrub's zero pass ends after 16,384 cc with the listed registers returned to Reset. -/
  | zeroPassEnd (slot : Fin 16)
  /-- SCRUB_END (R387): After the verify pass the crews become UNASSIGNED, the slot FREE, KTIME is recorded and OVERTIME set if late. -/
  | scrubEnd (slot : Fin 16)
  /-- QUIET_REPORT (R382): Every 100 ms the current report of QUIET crews is replaced by the lane's mean. -/
  | quietReport
  /-- CURRENT_REPORT (R398): Every 1 ms the device posts average domain currents and input voltage, current and power. -/
  | currentReport (vin iin : Word) (pin : BitVec 32) (dom : Vector Word 4) (aux : Word) (crews : List Word)
  /-- LIMITER_STEP (R399): Every 1 µs the fast limiter lowers or lifts clock caps against power and current limits. -/
  | limiterStep (power amps : Nat) (crews : List Nat)
  /-- THERMAL_STEP (R400): Every 10 µs at or above 95 °C the thermal cap falls by 50 MHz, and rises below 93 °C. -/
  | thermalStep (temps : List Word)
  /-- GOVERNOR_PERIOD (R403): Every 1 ms the firmware half moves T, calibrates, and publishes ballast shares, clock ceilings and band limits. -/
  | governorPeriod (g : GovInput)
  /-- TRIM (R404): Every 1 µs the trim raises clocks and ballast below lo or lowers ballast and ceilings above hi. -/
  | trim (t : TrimInput)
  /-- SHORT (R407): E below lo for 100 µs with all ballast at 100 % sets SHORT. -/
  | short
  /-- OVER (R407): E above hi for 100 µs with every crew at minimum clock sets OVER. -/
  | over
  /-- PACE_APPLY (R402): A pulse of PACE_CMD.APPLY takes the clamped shadow set as pending after the stagger delay. -/
  | paceApply
  /-- PENDING_SET_IN_FORCE (R402): A pending pace set comes into force at the first governor period after its stagger delay. -/
  | pendingSetInForce
  /-- PACE_ENABLE (R401): Writing PACE_CTRL.EN to 1 starts the trajectory at the last PWR_PIN. -/
  | paceEnable (ctrl : Word)
  /-- KICK (R410): A pulse of PACE_CMD.KICK restarts the firmware-half watchdog and clears STALE. -/
  | kick
  /-- PACE_WATCHDOG_EXPIRY (R410): No KICK for PACE_WDOG ms sets STALE and holds lo and hi. -/
  | paceWatchdogExpiry
  /-- STALE_HOLD_END (R410): After a further PACE_WDOG ms the device lowers ballast at the down slew and stops holding a trajectory. -/
  | staleHoldEnd
  /-- UVIN (R411): PWR_VIN below 38.0 V for 20 µs turns off every domain except VBH with cause UVIN. -/
  | uvin (mw : BitVec 32)
  /-- OVERPOWER (R411): Input power above 1.65 kW for 20 µs trips the package. -/
  | overpower (mw : BitVec 32)
  /-- OVERVOLT (R411): 48 V input above 62 V for 20 µs trips the package. -/
  | overvolt (mw : BitVec 32)
  /-- STAGE (R411): A stage-1 phase fault trips the package. -/
  | stage (mw : BitVec 32)
  /-- REG (R411): A stage-2 output out of regulation by more than 50 mV for 10 µs trips the package. -/
  | reg (dom : Fin 100) (mw : BitVec 32)
  /-- TJMAX (R411): Any junction sensor at 100 °C trips the package. -/
  | tjmax (mw : BitVec 32)
  /-- SHUT (R411): A pulse of PWR_CMD.SHUT orders a boathouse shutdown. -/
  | shut
  /-- ORDER (R411): A boathouse-ordered shutdown turns off every domain except VBH within 100 µs with cause ORDER. -/
  | order (mw : BitVec 32)
  /-- DOMAIN_SECTION_POWER_UP (R471): Firmware powers the next domain section once D plus its draw stays within hi. -/
  | domainSectionPowerUp (sec : Section) (draw : Nat)
  /-- BH_CORERST (R419): A pulse of BH_CMD.CORERST resets the boathouse core. -/
  | bhCorerst
  /-- WDKICK (R420): A pulse of BH_CMD.WDKICK restarts the boathouse watchdog. -/
  | wdkick
  /-- BH_WATCHDOG_EXPIRY (R420): No kick within the watchdog timeout resets the boathouse core. -/
  | bhWatchdogExpiry
  /-- LOCKUP_RESET (R419): 1 ms after the boathouse core enters LOCKUP the device resets the core. -/
  | lockupReset
  /-- TSET (R422): A pulse of BH_CMD.TSET loads BH_TIMESET into system time while the stroke is OFF, else sets TSETREF. -/
  | tset
  /-- TIMEBASE_TICK (R422): Each 100 MHz tick advances system time by 10 ns. -/
  | timebaseTick
  /-- PLL_LOCK (R421): The reference PLL locks and sets BH_CLK.LOCK. -/
  | pllLock
  /-- LOSS_OF_LOCK (R421): A PLL loss of lock clears LOCK, sets LOSS and ends master candidacy. -/
  | lossOfLock
  /-- BOOT (R425): The boot ROM chooses, verifies and copies an image, or enters recovery. -/
  | boot
  /-- ERASE (R426): BH_FL_CMD.ERASE erases a 64 KiB sector, or is refused with ERR. -/
  | erase
  /-- PROG (R426): BH_FL_CMD.PROG programs a 256-byte page from BH_FL_BUF, or is refused with ERR. -/
  | prog
  /-- FLASH_DONE (R426): A flash erase or program ends, clearing BUSY and setting DONE or ERR. -/
  | flashDone
  /-- I3C_TIMEOUT (R427): A target port holding the bus with no transfer for BH_I3Cn_TOUT releases SDA and SCL and sets TOUT. -/
  | i3cTimeout (port : Fin 2)
  /-- GET_PACE_COMMITMENT (R430): GetPaceCommitment returns the commitment state, IDs and set in force. -/
  | getPaceCommitment (eid : BitVec 8) (payload : List (BitVec 8))
  /-- PROPOSE_COMMITMENT (R431): ProposeCommitment from a facility endpoint checks ranges and replaces the held proposal. -/
  | proposeCommitment (eid : BitVec 8) (payload : List (BitVec 8))
  /-- CONFIRM_COMMITMENT (R431): ConfirmCommitment of the held proposal writes the shadow set, pulses APPLY and returns the in-force time. -/
  | confirmCommitment (eid : BitVec 8) (payload : List (BitVec 8))
  /-- WITHDRAW_PROPOSAL (R431): WithdrawProposal discards the named held proposal or answers ID_MISMATCH. -/
  | withdrawProposal (eid : BitVec 8) (payload : List (BitVec 8))
  /-- GET_POWER_READING (R430): GetPowerReading returns input power, trajectory, demand, ballast, PACE_STAT, stroke count and time. -/
  | getPowerReading (eid : BitVec 8) (payload : List (BitVec 8))
  /-- FIRMWARE_UPDATE (R429): A PLDM firmware update writes the slot not booted and sets it for trial. -/
  | firmwareUpdate (image : List (BitVec 8))
  /-- UART_RECEIVE (R433): A received UART byte enters the FIFO with its error flags, or is discarded with OVR when full. -/
  | uartReceive (n : Fin 2) (v : BitVec 8) (frame parity : Bool)
  /-- UART_DATA_WRITE (R433): A write of BH_UARTn_DATA pushes a byte for transmission. -/
  | uartDataWrite (n : Fin 2) (v : Word)
  /-- UART_DATA_READ (R433): A read of BH_UARTn_DATA pops a received byte with its flags. -/
  | uartDataRead (who : Requester) (n : Fin 2)
  /-- SPI_DATA_WRITE (R434): A write of BH_SPI_DATA pushes a frame for transfer. -/
  | spiDataWrite (v : Word)
  /-- SPI_FRAME_DONE (R434): An SPI transfer completes and sets DONE. -/
  | spiFrameDone (miso : Word)
  /-- TACH_EDGE (R435): A tachometer falling edge updates the measured RPM. -/
  | tachEdge (n : Fin 4) (width : Nat)
  /-- TACH_STALL (R435): No tachometer edge for STALLT × 100 ms sets RPM to 0 and STALL. -/
  | tachStall (n : Fin 4)
  /-- PWM_PERIOD (R436): At each PWM period start the written PERIOD and DUTY take effect. -/
  | pwmPeriod (n : Fin 2)
  /-- MIO_FSEL_WRITE (R438): A change of a pin's FSEL disconnects the old function and holds the pin with a keeper. -/
  | mioFselWrite (pin : Fin 24) (v : Word)
  /-- MIO_SWITCH_END (R438): 5 ns after the switch the keeper releases and the new function drives and sees the pin. -/
  | mioSwitchEnd (pin : Fin 24)
  /-- AIN_CONVERSION_END (R441): An analog conversion ends at its aligned time. -/
  | ainConversionEnd (ch : Fin 8) (ratio : BitVec 24) (split : Bool)
  /-- AIN_RESULT_POST (R442): 50 µs after a conversion ends the result is posted and AIN_DONE set, or marked OPEN or SHORT and discarded. -/
  | ainResultPost (ch : Fin 8)
  /-- SHUTIN (R445): MIO23 low for 10 µs in F1 orders a protection shutdown. -/
  | shutin
  /-- TIMER_EXPIRY (R418): The boathouse periodic timer expires and sets BH_TMR_CTRL.EXP. -/
  | timerExpiry
  /-- BH_DBELL_SET (R418): A BH_DBELL_SET write sets boathouse doorbell bits and asserts vector 33. -/
  | bhDbellSet (bits : Word)
  /-- BYPASS (R446): The JTAG BYPASS instruction selects the bypass register. -/
  | bypass
  /-- IDCODE (R446): The JTAG IDCODE instruction returns 0x1960_096F. -/
  | idcode
  /-- SAMPLE_PRELOAD (R446): The JTAG SAMPLE/PRELOAD instruction samples or preloads the boundary register. -/
  | samplePreload (cells : BitVec 24)
  /-- EXTEST (R446): EXTEST drives the boundary register only while every other domain is off, else loads as BYPASS. -/
  | extest
  /-- CLAMP (R446): CLAMP acts only while every other domain is off, else loads as BYPASS. -/
  | clamp
  /-- HIGHZ (R446): HIGHZ acts only while every other domain is off, else loads as BYPASS. -/
  | highz
  /-- BHDEBUG (R446): BHDEBUG gives boathouse-core run control and memory access while DBGEN is 1. -/
  | bhdebug (op : DebugOp)
  /-- S0_WINDOW (R452): Each 10 ms window S0 compares sensor energy with its floor and wakes S1 after HOLD windows beyond threshold. -/
  | s0Window (x : Vector Spectrum 4)
  /-- SETTLE_END (R449): 1.33 ms after a mode change samples become valid again. -/
  | settleEnd
  /-- S1_FRAME (R453): Each 512-sample frame S1 forms band energies and class scores. -/
  | s1Frame (x : Vector Spectrum 4)
  /-- S2_RESULT (R456): After 4 frames S2 writes lags, location and quality and sets WAKE3, or OVR. -/
  | s2Result (lags : Vector Word 6) (loc : Word) (q : BitVec 8)
  /-- VERDICT_POST (R458): A post of LL_VERDICT raises an event of its class if CONF reaches LL_S3_THR. -/
  | verdictPost (v : Word)
  /-- SENSOR_FAIL (R461): A PDM stream stuck for 1 ms clears SENSOK and sets SENSFAIL. -/
  | sensorFail (n : Fin 4)
  /-- SENSOR_RECOVERY (R461): After 10 ms of valid data a failed sensor's SENSOK sets again. -/
  | sensorRecovery (n : Fin 4)
  /-- LISTENER_ENABLE (R462): Writing LL_CTRL.EN to 1 restarts the listener in LEARN, and to 0 stops every stage. -/
  | listenerEnable (ctrl : Word)
  /-- FORCEACT (R456): Setting LL_CTRL.FORCEACT enters active mode at once and runs S1 continuously. -/
  | forceact (ctrl : Word)
  /-- LEARN_END (R462): After 2 s of windows S0 leaves LEARN with seeded floors. -/
  | learnEnd
  /-- VBH_POWER_ON (R470): The 12 V input rising into range resets VBH blocks, starts system time and the listener. -/
  | vbhPowerOn
  /-- STAGE1_CHECK (R470): Every 1 ms the boot ROM enables stage 1 once the input is good and no fault or protection cause is latched. -/
  | stage1Check
  /-- PACKAGE_POWER_ON (R463): Powering stage 1 after all domains were off resets the blocks that answer to package power-on. -/
  | packagePowerOn
  /-- AUX_LOSS (R502): 12 V leaving range while stage 1 is on stops stage 1 and every domain with no fault record. -/
  | auxLoss
  /-- UVIN_RESTART (R475): After UVIN, once PWR_VIN stays at 42.0 V or more for 1 s, the package powers on again. -/
  | uvinRestart
  /-- WARM (R465): A pulse of HST_DEVRST.WARM downs ports, frees slots and stops cores, engines and seats. -/
  | warm
  /-- WARM_RESET_DONE (R465): Within 100 µs every answering block holds its Reset values and control cores are held. -/
  | warmResetDone
  /-- COX_CORERST (R466): A pulse of COX_RSTCMD.CORERST resets the control core alone and ends LOCKUP. -/
  | coxCorerst (crew : Fin 96)
  /-- CREWRST (R466): A pulse of COX_RSTCMD.CREWRST resets an unassigned crew, or is refused. -/
  | crewrst (crew : Fin 96)
  /-- CREW_RESET_DONE (R466): A crew reset completes within 2 µs and the crew's registers answer again. -/
  | crewResetDone (crew : Fin 96)
  /-- RUN (R467): A pulse of COX_RSTCMD.RUN releases a held control core to fetch at COX_BOOT. -/
  | run (crew : Fin 96)
  /-- LDDATA (R468): An LDDATA write stores a word at OFF of the crew store and increments OFF, or is discarded with REFUSED. -/
  | lddata (crew : Fin 96) (v : Word)
  /-- COX_LOAD (R472): Firmware loads each released crew's cox image from flash and pulses RUN, or waits for the host. -/
  | coxLoad (host : Bool)
  /-- FABRIC_BRINGUP (R473): Once every crew is released, firmware writes IDs, enables ports, builds routes and enables the stroke. -/
  | fabricBringup (devid sysid : Word)
  /-- LINK_TRAINING (R469): After PERST# deassertion with VIO up the endpoint starts link training. -/
  | linkTraining (speed : Fin 7) (width : Fin 32) (flit : Bool)
  /-- PF0_RESET (R464): A conventional reset or PF0 FLR resets HST_ registers, PF0 state and every VF. -/
  | pf0Reset (kind : PfReset)
  /-- VF_RESET (R464): A VF FLR resets that VF's configuration, page, channel and MSI-X table without killing its lane. -/
  | vfReset (k : Fin 16)
  /-- BME_CLEAR (R479): Bus Master Enable cleared halts the function's channel with BME and holds its MSI-X messages. -/
  | bmeClear (fn : Fin 17) (bme : Bool)
  /-- VF_ACCESS (R481): A VF BAR0 access is served only for an ACTIVE slot's lane memory, else completes as Unsupported Request. -/
  | vfAccess (k : Fin 16) (r : HostReq)
  /-- VF_DBELL (R482): A 32-bit VF_DBELL write sets doorbell bits of a crew of the lane, or sets VF_ERR.DBELL. -/
  | vfDbell (k : Fin 16) (bits : Word) (crew : BitVec 7)
  /-- IRQ_SEND (R483): HST_IRQ_SEND.GO sends the named MSI-X vector of the named function, or sets IRQERR. -/
  | irqSend (v : Word)
  /-- HDMA_START (R485): HDMA_CMD.START fetches the descriptor at HEAD. -/
  | hdmaStart (fn : Fin 17)
  /-- HDMA_ABORT (R485): HDMA_CMD.ABORT stops issuing, discards read data and returns the channel to IDLE. -/
  | hdmaAbort (fn : Fin 17)
  /-- HDMA_DESCRIPTOR_FETCH (R484): A host DMA channel reads and checks a 32-byte descriptor from host memory. -/
  | hdmaDescriptorFetch (fn : Fin 17) (data : Option (List (BitVec 8)))
  /-- HDMA_COMPLETION (R485): A host DMA descriptor completes and applies its counter advance, DONE and IRQ in order. -/
  | hdmaCompletion (fn : Fin 17) (data : List Word) (failed : Bool)
  /-- DEGRADE_REPEAT (R302): Every 1 µs during a degrade, a port resends CTRL DEGRADE, or DEGRADE_ACK until a flit arrives on the four lanes. -/
  | degradeRepeat (p : Fin 32)
  /-- VOLTAGE_RISE (R396): A crew's domain voltage reaches the level for a higher clock, and the waiting clock rise takes effect. -/
  | voltageRise (crew : Fin 96)
  /-- CCC (R427): A common command code received on an I3C port in target role, such as ENTDAA, SETDASA, SETNEWDA, RSTDAA or GETSTATUS, assigns or resets the dynamic address or is answered. -/
  | ccc (port : Fin 2) (code : CccCmd)
  /-- SET_ENDPOINT_ID (R428): An MCTP Set Endpoint ID control message from the bus owner assigns the device's endpoint ID. -/
  | setEndpointId (port : Fin 2) (eid : BitVec 8)
  /-- PLATFORM_MONITORING_REQUEST (R429): A PLDM type 0 base-discovery or type 2 platform monitoring and control request is answered from sensors and the PDR repository. -/
  | platformMonitoringRequest (eid : BitVec 8) (query : PldmQuery)
  /-- UART_BYTE_SENT (R433): A UART finishes sending a byte from its transmit FIFO, freeing room and setting TXE once the FIFO is empty. -/
  | uartByteSent (n : Fin 2)
  /-- TEST_LOGIC_RESET (R446): TRST_N or the Test-Logic-Reset state resets the JTAG TAP alone, never the boathouse core. -/
  | testLogicReset
  /-- D3HOT (R479): A host change of a function's power state to D3hot or back to D0 stops or restores BAR decoding, MSI-X messages and that function's host DMA issue. -/
  | d3hot (fn : Fin 17) (on : Bool)
  /-- VF_ENABLE (R464): A host write of VF Enable in the SR-IOV capability makes the 16 VFs appear or disappear. -/
  | vfEnable (on : Bool)
  /-- CPLTO (R486): A host DMA read that receives no completion within the completion timeout halts its channel with cause CPLTO. -/
  | cplto (fn : Fin 17)
  deriving DecidableEq, Repr

end Sys2Proof
end

