-- ==== Sys2Proof/Decode.lean ====
section
/-! DEFINITION. The commands that words spell: none, since no row of spec/opcode_table.json gives a command bits. -/
namespace Sys2Proof

/-- The command a word of `nbits` bits spells by the table's bits: the table gives no row bits. -/
def decodeTableWord (nbits w : Nat) : Option Instr :=
  let _ := nbits
  let _ := w
  none

end Sys2Proof
end

