-- ==== Sys2Proof/Machine/Encode.lean ====
section
/-! DEFINITION. Instruction words (spec/04 R108, R116; spec/05 R134, R140–R142, R148, R149): the formats, the word of every
instruction of a core, and which words the instruction-set chapters assign (R14). -/
namespace Sys2Proof.Machine

/-! ## Formats (R108) -/

/-- Format A. -/
def encA (op d s t fn aux : Nat) : BitVec 32 :=
  BitVec.ofNat 32 (op * 2 ^ 26 + d * 2 ^ 22 + s * 2 ^ 18 + t * 2 ^ 14 + fn * 2 ^ 8 + aux)

/-- Format I. -/
def encI (op d s sub : Nat) (imm : Word) : BitVec 32 :=
  BitVec.ofNat 32 (op * 2 ^ 26 + d * 2 ^ 22 + s * 2 ^ 18 + sub * 2 ^ 16 + imm.toNat)

/-- Format M. -/
def encM (op d b : Nat) (wb : Bool) (x : Nat) (off : BitVec 12) : BitVec 32 :=
  BitVec.ofNat 32 (op * 2 ^ 26 + d * 2 ^ 22 + b * 2 ^ 19 + (if wb then 2 ^ 18 else 0) + x * 2 ^ 12 + off.toNat)

/-- Format B. -/
def encB (op cond : Nat) (disp : BitVec 20) : BitVec 32 :=
  BitVec.ofNat 32 (op * 2 ^ 26 + cond * 2 ^ 22 + disp.toNat)

/-- Format L. -/
def encL (op cs count : Nat) (len : BitVec 12) : BitVec 32 :=
  BitVec.ofNat 32 (op * 2 ^ 26 + cs * 2 ^ 23 + count * 2 ^ 12 + len.toNat)

/-- Format X. -/
def encX (op d s t pr fn ty : Nat) : BitVec 32 :=
  BitVec.ofNat 32 (op * 2 ^ 26 + d * 2 ^ 22 + s * 2 ^ 18 + t * 2 ^ 14 + pr * 2 ^ 12 + fn * 2 ^ 4 + ty)

/-- The TY code of an element type (R134). -/
def tyCode (t : ElemTy) : Nat :=
  match t with
  | .i16 => 0 | .u16 => 1 | .f16 => 2 | .bf16 => 3 | .i8 => 4 | .u8 => 5 | .e4m3 => 6 | .e5m2 => 7

/-- The X and OFF fields of a tile or accumulator access (R142); `kind` is bits 17:16. -/
def tileFields (kind : Nat) (t : TileStride) : Nat × BitVec 12 :=
  match t with
  | .reg r off => (kind * 16 + 8 + r.val, off)
  | .imm n => (kind * 16, n)

/-- CS and COUNT of LOOP (R116). -/
def loopField (n : LoopCount) : Nat × Nat :=
  match n with
  | .imm v => (0, v.toNat)
  | .w r => (1, r.val)
  | .a r => (1, 16 + r.val)

/-- A flag as a number. -/
def flagBit (b : Bool) : Nat := if b then 1 else 0

/-! ## The word of an instruction -/

/-- The word of a tile or accumulator access. -/
def tileWord (kind d : Nat) (b : Fin 8) (wb : Bool) (stride : TileStride) : BitVec 32 :=
  encM 0x1D d b.val wb (tileFields kind stride).1 (tileFields kind stride).2

/-- The word of a three-operand or two-operand instruction on w registers. -/
def wordWWW (op fn : Nat) (d x y : Fin 16) : BitVec 32 := encA op d.val x.val y.val fn 0

/-- The word of a vector instruction with a predicate and a type. -/
def wordVec (op fn : Nat) (d x y : Nat) (pr : Fin 4) (ty : ElemTy) : BitVec 32 := encX op d x y pr.val fn (tyCode ty)

end Sys2Proof.Machine
namespace Sys2Proof
open Machine

/-- The word of an instruction of a core, from the tables of spec/04 and spec/05; 0, which is the word of none, for a command
that is no instruction. -/
def Instr.word (i : Instr) : BitVec 32 :=
  match i with
  | .add _ d x y => wordWWW 0x01 0x00 d x y
  | .adc _ d x y => wordWWW 0x01 0x01 d x y
  | .sub _ d x y => wordWWW 0x01 0x02 d x y
  | .sbc _ d x y => wordWWW 0x01 0x03 d x y
  | .and _ d x y => wordWWW 0x01 0x04 d x y
  | .or _ d x y => wordWWW 0x01 0x05 d x y
  | .xor _ d x y => wordWWW 0x01 0x06 d x y
  | .not _ d x => wordWWW 0x01 0x07 d x 0
  | .neg _ d x => wordWWW 0x01 0x08 d x 0
  | .mov _ d x => wordWWW 0x01 0x09 d x 0
  | .cmp _ x y => wordWWW 0x01 0x0A 0 x y
  | .tst _ (.scalar x y) => wordWWW 0x01 0x0B 0 x y
  | .tst _ (.tile t b wb stride) => tileWord 1 t.val b wb stride
  | .min _ d x y => wordWWW 0x01 0x0C d x y
  | .max _ d x y => wordWWW 0x01 0x0D d x y
  | .minu _ d x y => wordWWW 0x01 0x0E d x y
  | .maxu _ d x y => wordWWW 0x01 0x0F d x y
  | .sel _ d x y cc => encA 0x01 d.val x.val y.val 0x10 cc.val
  | .shl _ d x y => wordWWW 0x02 0x00 d x y
  | .shr _ d x y => wordWWW 0x02 0x01 d x y
  | .sar _ d x y => wordWWW 0x02 0x02 d x y
  | .rol _ d x y => wordWWW 0x02 0x03 d x y
  | .ror _ d x y => wordWWW 0x02 0x04 d x y
  | .shli _ d x aux => encA 0x02 d.val x.val 0 0x08 aux.toNat
  | .shri _ d x aux => encA 0x02 d.val x.val 0 0x09 aux.toNat
  | .sari _ d x aux => encA 0x02 d.val x.val 0 0x0A aux.toNat
  | .roli _ d x aux => encA 0x02 d.val x.val 0 0x0B aux.toNat
  | .rori _ d x aux => encA 0x02 d.val x.val 0 0x0C aux.toNat
  | .clz _ d x => wordWWW 0x02 0x10 d x 0
  | .popc _ d x => wordWWW 0x02 0x11 d x 0
  | .brev _ d x => wordWWW 0x02 0x12 d x 0
  | .mul _ d x y => wordWWW 0x03 0x00 d x y
  | .mulhs _ d x y => wordWWW 0x03 0x01 d x y
  | .mulhu _ d x y => wordWWW 0x03 0x02 d x y
  | .mulwu _ d x y => encA 0x03 d.val x.val y.val 0x03 0
  | .adda _ d a y => encA 0x04 d.val a.val y.val 0x00 0
  | .addau _ d a y => encA 0x04 d.val a.val y.val 0x01 0
  | .addaa _ d a b => encA 0x04 d.val a.val b.val 0x02 0
  | .subaa _ d a b => encA 0x04 d.val a.val b.val 0x03 0
  | .mova _ d a => encA 0x04 d.val a.val 0 0x04 0
  | .moval _ d a => encA 0x04 d.val a.val 0 0x05 0
  | .movah _ d a => encA 0x04 d.val a.val 0 0x06 0
  | .movwa _ d x y => encA 0x04 d.val x.val y.val 0x07 0
  | .cmpa _ a b => encA 0x04 0 a.val b.val 0x08 0
  | .shla _ d a aux => encA 0x04 d.val a.val 0 0x09 aux.toNat
  | .extb _ d x k => encA 0x05 d.val x.val 0 0x00 k.val
  | .extbs _ d x k => encA 0x05 d.val x.val 0 0x01 k.val
  | .insb _ d x k => encA 0x05 d.val x.val 0 0x02 k.val
  | .packb _ d x y => wordWWW 0x05 0x03 d x y
  | .swpb _ d x => wordWWW 0x05 0x04 d x 0
  | .addi _ d x imm => encI 0x10 d.val x.val 0 imm
  | .andi _ d x imm => encI 0x11 d.val x.val 0 imm
  | .ori _ d x imm => encI 0x11 d.val x.val 1 imm
  | .xori _ d x imm => encI 0x11 d.val x.val 2 imm
  | .li _ d imm => encI 0x12 d.val 0 0 imm
  | .cmpi _ x imm => encI 0x12 0 x.val 1 imm
  | .addai _ d a imm => encI 0x13 d.val a.val 0 imm
  | .lal _ d imm => encI 0x13 d.val 0 1 imm
  | .lah _ d imm => encI 0x13 d.val 0 2 imm
  | .ld _ d b wb off => encM 0x18 d.val b.val wb 0 off
  | .st _ d b wb off => encM 0x19 d.val b.val wb 0 off
  | .ldd _ d b wb off => encM 0x1A d.val b.val wb 0 off
  | .std _ d b wb off => encM 0x1B d.val b.val wb 0 off
  | .bc _ cc disp => encB 0x20 cc.val disp
  | .call _ disp => encB 0x21 0 disp
  | .jr _ a => encA 0x06 0 a.val 0 0x08 0
  | .callr _ a => encA 0x06 0 a.val 0 0x09 0
  | .ret _ => encA 0x06 0 0 0 0x0A 0
  | .nop _ => encA 0x06 0 0 0 0x00 0
  | .mfs _ d sr => encA 0x06 d.val 0 0 0x01 sr.toNat
  | .mts _ sr x => encA 0x06 0 x.val 0 0x02 sr.toNat
  | .reti _ => encA 0x06 0 0 0 0x03 0
  | .wfi _ => encA 0x06 0 0 0 0x04 0
  | .brk _ imm => encA 0x06 0 0 0 0x05 imm.toNat
  | .trap _ imm => encA 0x06 0 0 0 0x06 imm.toNat
  | .csync _ => encA 0x06 0 0 0 0x10 0
  | .cflush _ a => encA 0x06 0 a.val 0 0x11 0
  | .cinv _ a => encA 0x06 0 a.val 0 0x12 0
  | .cflushA _ => encA 0x06 0 0 0 0x13 0
  | .cinvA _ => encA 0x06 0 0 0 0x14 0
  | .cinvI _ => encA 0x06 0 0 0 0x15 0
  | .lsave _ => encA 0x06 0 0 0 0x18 0
  | .lrest _ => encA 0x06 0 0 0 0x19 0
  | .lpop _ => encA 0x06 0 0 0 0x1A 0
  | .loop _ count len => encL 0x24 (loopField count).1 (loopField count).2 len
  | .repmov _ => encA 0x07 0 0 0 0x00 0
  | .repmovD _ => encA 0x07 0 0 0 0x01 0
  | .repset _ x => encA 0x07 0 x.val 0 0x02 0
  | .repcmp _ => encA 0x07 0 0 0 0x03 0
  | .repscan _ x => encA 0x07 0 x.val 0 0x04 0
  | .repscanNe _ x => encA 0x07 0 x.val 0 0x05 0
  | .hlea _ d x t => encA 0x08 d.val x.val t.val 0x00 0
  | .hail _ d a y n => encA 0x08 d.val a.val y.val 0x01 n.val
  | .tend _ => encA 0x08 0 0 0 0x02 0
  | .cga _ g => encA 0x08 0 0 0 0x10 g.val
  | .cgw _ g => encA 0x08 0 0 0 0x11 g.val
  | .cls _ n => encA 0x08 0 0 0 0x12 n.val
  | .clc _ n => encA 0x08 0 0 0 0x13 n.val
  | .clt _ d n => encA 0x08 d.val 0 0 0x14 n.val
  | .clw _ n => encA 0x08 0 0 0 0x15 n.val
  | .vld _ d b wb off pr => encM 0x1C d.val b.val wb (pr.val * 4) off
  | .vldB _ d b wb off pr => encM 0x1C d.val b.val wb (pr.val * 4 + 1) off
  | .vst _ d b wb off pr => encM 0x1C d.val b.val wb (16 + pr.val * 4) off
  | .vlds _ d b wb off sr pr => encM 0x1C d.val b.val wb (32 + pr.val * 4 + sr.val) off
  | .vsts _ d b wb off sr pr => encM 0x1C d.val b.val wb (48 + pr.val * 4 + sr.val) off
  | .tld _ t b wb stride => tileWord 0 t.val b wb stride
  | .zld _ z b wb stride => tileWord 2 z.val b wb stride
  | .zst _ z b wb stride => tileWord 3 z.val b wb stride
  | .vadd _ d x y pr ty => wordVec 0x28 0x00 d.val x.val y.val pr ty
  | .vsub _ d x y pr ty => wordVec 0x28 0x01 d.val x.val y.val pr ty
  | .vadds _ d x y pr ty => wordVec 0x28 0x02 d.val x.val y.val pr ty
  | .vsubs _ d x y pr ty => wordVec 0x28 0x03 d.val x.val y.val pr ty
  | .vmul _ d x y pr ty => wordVec 0x28 0x04 d.val x.val y.val pr ty
  | .vmulh _ d x y pr ty => wordVec 0x28 0x05 d.val x.val y.val pr ty
  | .vmin _ d x y pr ty => wordVec 0x28 0x06 d.val x.val y.val pr ty
  | .vmax _ d x y pr ty => wordVec 0x28 0x07 d.val x.val y.val pr ty
  | .vand _ d x y pr ty => wordVec 0x28 0x08 d.val x.val y.val pr ty
  | .vor _ d x y pr ty => wordVec 0x28 0x09 d.val x.val y.val pr ty
  | .vxor _ d x y pr ty => wordVec 0x28 0x0A d.val x.val y.val pr ty
  | .vshl _ d x y pr ty => wordVec 0x28 0x0B d.val x.val y.val pr ty
  | .vshr _ d x y pr ty => wordVec 0x28 0x0C d.val x.val y.val pr ty
  | .vabs _ d x pr ty => wordVec 0x28 0x0D d.val x.val 0 pr ty
  | .vmov _ d x pr ty => wordVec 0x28 0x0E d.val x.val 0 pr ty
  | .vmac _ d x y pr ty => wordVec 0x28 0x0F d.val x.val y.val pr ty
  | .vfadd _ d x y pr ty => wordVec 0x29 0x00 d.val x.val y.val pr ty
  | .vfsub _ d x y pr ty => wordVec 0x29 0x01 d.val x.val y.val pr ty
  | .vfmul _ d x y pr ty => wordVec 0x29 0x02 d.val x.val y.val pr ty
  | .vfma _ d x y pr ty => wordVec 0x29 0x03 d.val x.val y.val pr ty
  | .vfms _ d x y pr ty => wordVec 0x29 0x04 d.val x.val y.val pr ty
  | .vfmin _ d x y pr ty => wordVec 0x29 0x05 d.val x.val y.val pr ty
  | .vfmax _ d x y pr ty => wordVec 0x29 0x06 d.val x.val y.val pr ty
  | .vfabs _ d x pr ty => wordVec 0x29 0x07 d.val x.val 0 pr ty
  | .vfneg _ d x pr ty => wordVec 0x29 0x08 d.val x.val 0 pr ty
  | .vfrcp _ d x pr ty => wordVec 0x29 0x09 d.val x.val 0 pr ty
  | .vfrsq _ d x pr ty => wordVec 0x29 0x0A d.val x.val 0 pr ty
  | .vfexp2 _ d x pr ty => wordVec 0x29 0x0B d.val x.val 0 pr ty
  | .vflog2 _ d x pr ty => wordVec 0x29 0x0C d.val x.val 0 pr ty
  | .vcmp _ pd x y cond pr ty => wordVec 0x2A cond.val pd.val x.val y.val pr ty
  | .vbc _ d x pr => encX 0x2B d.val x.val 0 pr.val 0x00 0
  | .vins _ d x y pr => encX 0x2B d.val x.val y.val pr.val 0x01 0
  | .vext _ d x y => encX 0x2B d.val x.val y.val 0 0x02 0
  | .vperm _ d x y pr => encX 0x2B d.val x.val y.val pr.val 0x03 0
  | .vrot _ d x y pr => encX 0x2B d.val x.val y.val pr.val 0x04 0
  | .vsel _ d x y pr => encX 0x2B d.val x.val y.val pr.val 0x05 0
  | .viota _ d pr => encX 0x2B d.val 0 0 pr.val 0x06 0
  | .vradd _ d x pr ty => wordVec 0x2C 0x00 d.val x.val 0 pr ty
  | .vrmin _ d x pr ty => wordVec 0x2C 0x01 d.val x.val 0 pr ty
  | .vrmax _ d x pr ty => wordVec 0x2C 0x02 d.val x.val 0 pr ty
  | .vfradd _ d x pr ty => wordVec 0x2C 0x04 d.val x.val 0 pr ty
  | .vfrmin _ d x pr ty => wordVec 0x2C 0x05 d.val x.val 0 pr ty
  | .vfrmax _ d x pr ty => wordVec 0x2C 0x06 d.val x.val 0 pr ty
  | .vcvt _ d x dst src h sat => encX 0x2D d.val x.val 0 0 (tyCode src + 16 * flagBit h + 32 * flagBit sat) (tyCode dst)
  | .pand _ d x y => encX 0x2E d.val x.val y.val 0 0x00 0
  | .por _ d x y => encX 0x2E d.val x.val y.val 0 0x01 0
  | .pxor _ d x y => encX 0x2E d.val x.val y.val 0 0x02 0
  | .pnot _ d x => encX 0x2E d.val x.val 0 0 0x03 0
  | .ptail _ d y => encX 0x2E d.val 0 y.val 0 0x04 0
  | .pcnt _ d x => encX 0x2E d.val x.val 0 0 0x05 0
  | .pmova _ d x => encX 0x2E d.val x.val 0 0 0x06 0
  | .pmovp _ d a => encX 0x2E d.val a.val 0 0 0x07 0
  | .mma _ d a b fresh bfmt ra rb ty =>
    encX 0x30 d.val a.val b.val (flagBit ra + 2 * flagBit rb) (flagBit fresh + 2 * bfmt.val) (tyCode ty)
  | .zzero _ d => encX 0x31 d.val 0 0 0 0x00 0
  | .zcvt _ t z sh int sat h ty =>
    encX 0x31 t.val z.val sh.val 0 (0x10 + flagBit int + 2 * flagBit sat + 4 * flagBit h) (tyCode ty)
  | .zmovr _ d z r => encX 0x31 d.val z.val r.val 0 0x20 0
  | .tzero _ t => encX 0x32 t.val 0 0 0 0x00 0
  | .ttr _ d a => encX 0x32 d.val a.val 0 0 0x01 0
  | .tmovr _ t x r => encX 0x32 t.val x.val r.val 0 0x02 0
  | .vmovt _ d t r => encX 0x32 d.val t.val r.val 0 0x03 0
  | _ => 0

end Sys2Proof
namespace Sys2Proof.Machine

/-! ## Assigned words (R14, R108)

A row gives, for a range of FN values, the number of values each register field may take (1: unused, so 0; 16: w and v registers;
8: a registers and tiles; 4: predicates and accumulators). -/

/-- A row of a table of format A: first and last FN, and how many values D, S, T and AUX may take. -/
structure RowA where
  lo  : Nat
  hi  : Nat
  d   : Nat
  s   : Nat
  t   : Nat
  aux : Nat

/-- The rows of OP 0x01–0x08. -/
def rowsA (op : Nat) : List RowA :=
  match op with
  | 0x01 => [⟨0x00, 0x06, 16, 16, 16, 1⟩, ⟨0x07, 0x09, 16, 16, 1, 1⟩, ⟨0x0A, 0x0B, 1, 16, 16, 1⟩, ⟨0x0C, 0x0F, 16, 16, 16, 1⟩,
             ⟨0x10, 0x10, 16, 16, 16, 15⟩]
  | 0x02 => [⟨0x00, 0x04, 16, 16, 16, 1⟩, ⟨0x08, 0x0C, 16, 16, 1, 256⟩, ⟨0x10, 0x12, 16, 16, 1, 1⟩]
  | 0x03 => [⟨0x00, 0x02, 16, 16, 16, 1⟩, ⟨0x03, 0x03, 8, 16, 16, 1⟩]
  | 0x04 => [⟨0x00, 0x01, 8, 8, 16, 1⟩, ⟨0x02, 0x03, 8, 8, 8, 1⟩, ⟨0x04, 0x04, 8, 8, 1, 1⟩, ⟨0x05, 0x06, 16, 8, 1, 1⟩,
             ⟨0x07, 0x07, 8, 16, 16, 1⟩, ⟨0x08, 0x08, 1, 8, 8, 1⟩, ⟨0x09, 0x09, 8, 8, 1, 256⟩]
  | 0x05 => [⟨0x00, 0x02, 16, 16, 1, 2⟩, ⟨0x03, 0x03, 16, 16, 16, 1⟩, ⟨0x04, 0x04, 16, 16, 1, 1⟩]
  | 0x06 => [⟨0x00, 0x00, 1, 1, 1, 1⟩, ⟨0x01, 0x01, 16, 1, 1, 256⟩, ⟨0x02, 0x02, 1, 16, 1, 256⟩, ⟨0x03, 0x04, 1, 1, 1, 1⟩,
             ⟨0x05, 0x06, 1, 1, 1, 256⟩, ⟨0x08, 0x09, 1, 8, 1, 1⟩, ⟨0x0A, 0x0A, 1, 1, 1, 1⟩, ⟨0x10, 0x10, 1, 1, 1, 1⟩,
             ⟨0x11, 0x12, 1, 8, 1, 1⟩, ⟨0x13, 0x15, 1, 1, 1, 1⟩, ⟨0x18, 0x1A, 1, 1, 1, 1⟩]
  | 0x07 => [⟨0x00, 0x01, 1, 1, 1, 1⟩, ⟨0x02, 0x02, 1, 16, 1, 1⟩, ⟨0x03, 0x03, 1, 1, 1, 1⟩, ⟨0x04, 0x05, 1, 16, 1, 1⟩]
  | 0x08 => [⟨0x00, 0x00, 8, 16, 8, 1⟩, ⟨0x01, 0x01, 16, 8, 16, 4⟩, ⟨0x02, 0x02, 1, 1, 1, 1⟩, ⟨0x10, 0x11, 1, 1, 1, 64⟩,
             ⟨0x12, 0x13, 1, 1, 1, 256⟩, ⟨0x14, 0x14, 16, 1, 1, 256⟩, ⟨0x15, 0x15, 1, 1, 1, 256⟩]
  | _ => []

/-- A row of a table of format X: first and last FN, how many values D, S, T and PR may take, and the TY codes allowed. -/
structure RowX where
  lo  : Nat
  hi  : Nat
  d   : Nat
  s   : Nat
  t   : Nat
  pr  : Nat
  tys : List Nat

/-- The rows of OP 0x28–0x32 but for VCVT, MMA and ZCVT. -/
def rowsX (op : Nat) : List RowX :=
  match op with
  | 0x28 => [⟨0x00, 0x03, 16, 16, 16, 4, [0, 1, 4, 5]⟩, ⟨0x04, 0x05, 16, 16, 16, 4, [0, 1]⟩, ⟨0x06, 0x0A, 16, 16, 16, 4, [0, 1, 4, 5]⟩,
             ⟨0x0B, 0x0C, 16, 16, 16, 4, [0, 1]⟩, ⟨0x0D, 0x0D, 16, 16, 1, 4, [0, 4]⟩, ⟨0x0E, 0x0E, 16, 16, 1, 4, [0, 1, 4, 5]⟩,
             ⟨0x0F, 0x0F, 16, 16, 16, 4, [0, 1]⟩]
  | 0x29 => [⟨0x00, 0x06, 16, 16, 16, 4, [2, 3]⟩, ⟨0x07, 0x0C, 16, 16, 1, 4, [2, 3]⟩]
  | 0x2A => [⟨0x00, 0x05, 4, 16, 16, 4, [0, 1, 2, 3]⟩]
  | 0x2B => [⟨0x00, 0x00, 16, 16, 1, 4, [0]⟩, ⟨0x01, 0x01, 16, 16, 16, 4, [0]⟩, ⟨0x02, 0x02, 16, 16, 16, 1, [0]⟩,
             ⟨0x03, 0x05, 16, 16, 16, 4, [0]⟩, ⟨0x06, 0x06, 16, 1, 1, 4, [0]⟩]
  | 0x2C => [⟨0x00, 0x02, 16, 16, 1, 4, [0, 1]⟩, ⟨0x04, 0x06, 16, 16, 1, 4, [2, 3]⟩]
  | 0x2E => [⟨0x00, 0x02, 4, 4, 4, 1, [0]⟩, ⟨0x03, 0x03, 4, 4, 1, 1, [0]⟩, ⟨0x04, 0x04, 4, 1, 16, 1, [0]⟩, ⟨0x05, 0x05, 16, 4, 1, 1, [0]⟩,
             ⟨0x06, 0x06, 8, 4, 1, 1, [0]⟩, ⟨0x07, 0x07, 4, 8, 1, 1, [0]⟩]
  | 0x31 => [⟨0x00, 0x00, 4, 1, 1, 1, [0]⟩, ⟨0x20, 0x20, 16, 4, 16, 1, [0]⟩]
  | 0x32 => [⟨0x00, 0x00, 8, 1, 1, 1, [0]⟩, ⟨0x01, 0x01, 8, 8, 1, 1, [0]⟩]
  | _ => []

/-- The pairs of VCVT (source and destination codes) whose H must be 0, and those with either H (R147). -/
def cvtPairs : List (Nat × Nat) × List (Nat × Nat) :=
  ([(2, 3), (3, 2), (0, 2), (0, 3), (2, 0), (3, 0)],
   [(4, 0), (5, 0), (4, 2), (4, 3), (5, 2), (5, 3), (6, 2), (6, 3), (7, 2), (7, 3), (2, 6), (2, 7), (3, 6), (3, 7), (0, 4), (1, 5)])

/-- The instruction-set chapters assign the word (R14, R108): every unused field is 0, and FN, SUB, X, TY, the condition, END and
the displacement hold listed values. -/
def assigned (w : BitVec 32) : Bool :=
  let f := fun (lo n : Nat) => w.toNat / 2 ^ lo % 2 ^ n
  let op := f 26 6
  let d := f 22 4
  let s := f 18 4
  let t := f 14 4
  let sub := f 16 2
  let fn := f 4 8
  let ty := f 0 4
  let pr := f 12 2
  if op ≤ 0x08 then
    (rowsA op).any (fun r => decide (r.lo ≤ f 8 6) && decide (f 8 6 ≤ r.hi) && decide (d < r.d) && decide (s < r.s) && decide (t < r.t)
      && decide (f 0 8 < r.aux))
  else
    match op with
    | 0x10 => sub == 0
    | 0x11 => decide (sub < 3)
    | 0x12 => (sub == 0 && s == 0) || (sub == 1 && d == 0)
    | 0x13 => decide (d < 8) && ((sub == 0 && decide (s < 8)) || ((sub == 1 || sub == 2) && s == 0))
    | 0x18 => f 12 6 == 0
    | 0x19 => f 12 6 == 0
    | 0x1A => f 12 6 == 0 && decide (d < 8)
    | 0x1B => f 12 6 == 0 && decide (d < 8)
    | 0x1C => (f 16 2 == 0 && decide (f 12 2 < 2)) || (f 16 2 == 1 && f 12 2 == 0) || decide (2 ≤ f 16 2)
    | 0x1D => (f 15 1 == 1 || f 12 3 == 0) && decide (d < if f 16 2 < 2 then 8 else 4)
    | 0x20 => f 20 2 == 0 && f 0 1 == 0 && d != 15
    | 0x21 => f 20 2 == 0 && f 0 1 == 0 && d == 0
    | 0x24 => f 24 2 == 0 && f 0 12 != 0 && (f 23 1 == 0 || (f 17 6 == 0 && (f 16 1 == 0 || f 15 1 == 0)))
    | 0x2D =>
      t == 0 && pr == 0 && f 10 2 == 0 &&
        ((cvtPairs.1.contains (f 4 4, ty) && f 8 1 == 0) || cvtPairs.2.contains (f 4 4, ty))
    | 0x30 =>
      decide (d < 4) && decide (s < 8) && decide (t < 8) && f 7 5 == 0 && decide (ty < 8) && ty != 1 && f 5 2 != 3
        && (f 5 2 == 0 || ty == 6 || ty == 7)
    | 0x31 =>
      (rowsX op).any (fun r => decide (r.lo ≤ fn) && decide (fn ≤ r.hi) && decide (d < r.d) && decide (s < r.s) && decide (t < r.t)
        && decide (pr < r.pr) && r.tys.contains ty) ||
      (decide (0x10 ≤ fn) && decide (fn ≤ 0x17) && decide (d < 8) && decide (s < 4) && pr == 0 && decide (ty < 8) &&
        (let int := ty == 0 || ty == 1 || ty == 4 || ty == 5
         (f 4 1 == 1) == int && (int || t == 0) && (f 6 1 == 0 || decide (4 ≤ ty))))
    | 0x32 =>
      (rowsX op).any (fun r => fn == r.lo && decide (d < r.d) && decide (s < r.s) && decide (t < r.t) && pr == 0 && ty == 0) ||
      (fn == 2 && decide (d < 8) && t % 2 == 0 && pr == 0 && ty == 0) || (fn == 3 && decide (s < 8) && t % 2 == 0 && pr == 0 && ty == 0)
    | _ =>
      (rowsX op).any (fun r => decide (r.lo ≤ fn) && decide (fn ≤ r.hi) && decide (d < r.d) && decide (s < r.s) && decide (t < r.t)
        && decide (pr < r.pr) && r.tys.contains ty)

end Sys2Proof.Machine
end

