-- ==== Sys2Proof/Config.lean ====
section
/-! DEFINITION. What the specification leaves open: free values, opaque constants no proof can evaluate. -/
namespace Sys2Proof.Config

/-- A value the specification leaves open, the `n`-th one a run meets: nothing constrains it (log entry 2). -/
opaque freeValue : Nat → BitVec 64

/-- The content of the boot ROM (R416), which the specification does not list, by word offset (log entry 7). -/
opaque bootRom : Nat → Word

/-- The fused voltage-frequency table (R396): the VOUT code of a crew domain for a clock in 10 MHz units (log entry 8). -/
opaque fusedVout : Nat → BitVec 8

/-- The levels the surroundings put on the MIO pins at a system time (R437): an input of the device. -/
opaque pins : Nat → BitVec 24

/-- The signature that follows a payload verifies against the key of the fuse (R424), by the words of the key's digest, the
header and the signature: the specification does not say where the key itself lies (log entry 66). -/
opaque signatureOk : List Word → List Word → List Word → Bool

end Sys2Proof.Config
end

