-- ==== Sys2Proof/Machine/RegMap.lean ====
section
/-! DEFINITION. The register map: for each block of spec/02 R35 its registers, with offset, copies, reset value
and the bits of each access code (R10), and an address function for each register name. The rows are those of the
register tables of the chapters; a word no row covers is a reserved word (R36). -/
namespace Sys2Proof.Machine

/-- One register of a block: its name in the manual, its offset in the block, `n1` copies at stride `s1`, each of
`n2` copies at stride `s2`, its reset value, and the masks of its RW, RC, W1P and WO bits (R10). Every other bit
reads its value and ignores writes (RO, or reserved: R13). -/
structure RegRow where
  name  : String
  off   : Nat
  n1    : Nat
  s1    : Nat
  n2    : Nat
  s2    : Nat
  reset : BitVec 16
  rw    : BitVec 16
  rc    : BitVec 16
  w1p   : BitVec 16
  wo    : BitVec 16
  deriving DecidableEq, Repr

/-- Registers of one crew, offsets from w:0xF000_0000 + crew × 0x1_0000 (R35), part 0. -/
def crewRows0 : List RegRow := [
  ⟨"COX_CNTn_LO", 0x0, 64, 2, 1, 1, 0x0, 0xFFFF, 0x0, 0x0, 0x0⟩,
  ⟨"COX_CNTn_HI", 0x1, 64, 2, 1, 1, 0x0, 0xFFFF, 0x0, 0x0, 0x0⟩,
  ⟨"COX_CNT_INC", 0x80, 1, 1, 1, 1, 0x0, 0x0, 0x0, 0x0, 0xFF3F⟩,
  ⟨"COX_CTRL", 0x100, 1, 1, 1, 1, 0x0, 0x1, 0x0, 0x0, 0x0⟩,
  ⟨"COX_IE", 0x101, 1, 1, 1, 1, 0x0, 0x1FFF, 0x0, 0x0, 0x0⟩,
  ⟨"COX_IP", 0x102, 1, 1, 1, 1, 0x0, 0x0, 0x0, 0x0, 0x0⟩,
  ⟨"COX_HAILQ", 0x103, 1, 1, 1, 1, 0x0, 0x1F, 0x0, 0x0, 0x0⟩,
  ⟨"COX_DBELL_SET", 0x104, 1, 1, 1, 1, 0x0, 0x0, 0x0, 0xFFFF, 0x0⟩,
  ⟨"COX_DBELL_STAT", 0x105, 1, 1, 1, 1, 0x0, 0x0, 0xFFFF, 0x0, 0x0⟩,
  ⟨"COX_TDONE_LO", 0x106, 1, 1, 1, 1, 0x0, 0x0, 0xFFFF, 0x0, 0x0⟩,
  ⟨"COX_TDONE_HI", 0x107, 1, 1, 1, 1, 0x0, 0x0, 0xFFFF, 0x0, 0x0⟩,
  ⟨"COX_QERR_LO", 0x108, 1, 1, 1, 1, 0x0, 0x0, 0x0, 0x0, 0x0⟩,
  ⟨"COX_QERR_HI", 0x109, 1, 1, 1, 1, 0x0, 0x0, 0x0, 0x0, 0x0⟩,
  ⟨"COX_SEATS", 0x10A, 1, 1, 1, 1, 0x0, 0x0, 0x0, 0x0, 0x0⟩,
  ⟨"COX_ABORTS", 0x10B, 1, 1, 1, 1, 0x0, 0x0, 0xFFFF, 0x0, 0x0⟩,
  ⟨"COX_DISPATCHED_LO", 0x10C, 1, 1, 1, 1, 0x0, 0x0, 0x0, 0x0, 0x0⟩,
  ⟨"COX_DISPATCHED_HI", 0x10D, 1, 1, 1, 1, 0x0, 0x0, 0x0, 0x0, 0x0⟩,
  ⟨"COX_Qq_BASE_LO", 0x1000, 32, 16, 1, 1, 0x0, 0xFFFF, 0x0, 0x0, 0x0⟩,
  ⟨"COX_Qq_BASE_HI", 0x1001, 32, 16, 1, 1, 0x0, 0xFFFF, 0x0, 0x0, 0x0⟩,
  ⟨"COX_Qq_CTRL", 0x1002, 32, 16, 1, 1, 0x0, 0xFFF, 0x0, 0x0, 0x0⟩,
  ⟨"COX_Qq_HEAD", 0x1003, 32, 16, 1, 1, 0x0, 0x7FF, 0x0, 0x0, 0x0⟩,
  ⟨"COX_Qq_TAIL", 0x1004, 32, 16, 1, 1, 0x0, 0x7FF, 0x0, 0x0, 0x0⟩,
  ⟨"COX_Qq_STAT", 0x1005, 32, 16, 1, 1, 0x0, 0x0, 0x0, 0x0, 0x0⟩,
  ⟨"COX_Qq_CMD", 0x1006, 32, 16, 1, 1, 0x0, 0x0, 0x0, 0x7, 0x0⟩,
  ⟨"COX_Qq_DROP", 0x1007, 32, 16, 1, 1, 0x0, 0x0, 0xFFFF, 0x0, 0x0⟩,
  ⟨"COX_SEATs_CMD", 0x2000, 8, 256, 1, 1, 0x0, 0x0, 0x0, 0x7, 0x0⟩,
  ⟨"COX_SEATs_STAT", 0x2001, 8, 256, 1, 1, 0x0, 0x0, 0x0, 0x0, 0x0⟩,
  ⟨"COX_SEATs_TAG", 0x2002, 8, 256, 1, 1, 0x0, 0x0, 0x0, 0x0, 0x0⟩,
  ⟨"COX_SEATs_Wn", 0x2010, 8, 256, 16, 1, 0x0, 0xFFFF, 0x0, 0x0, 0x0⟩,
  ⟨"COX_SEATs_An", 0x2020, 8, 256, 16, 1, 0x0, 0xFFFF, 0x0, 0x0, 0x0⟩,
  ⟨"COX_SEATs_CST", 0x2030, 8, 256, 1, 1, 0x0, 0x7DF, 0x0, 0x0, 0x0⟩,
  ⟨"COX_SEATs_ECST", 0x2031, 8, 256, 1, 1, 0x0, 0x7DF, 0x0, 0x0, 0x0⟩]

/-- Registers of one crew, offsets from w:0xF000_0000 + crew × 0x1_0000 (R35), part 1. -/
def crewRows1 : List RegRow := [
  ⟨"COX_SEATs_ECAUSE", 0x2032, 8, 256, 1, 1, 0x0, 0xC03F, 0x0, 0x0, 0x0⟩,
  ⟨"COX_SEATs_EPC_EVAL", 0x2034, 8, 256, 4, 1, 0x0, 0xFFFF, 0x0, 0x0, 0x0⟩,
  ⟨"COX_SEATs_LOOP", 0x2040, 8, 256, 24, 1, 0x0, 0xFFFF, 0x0, 0x0, 0x0⟩,
  ⟨"COX_RSTCMD", 0x3C00, 1, 1, 1, 1, 0x0, 0x0, 0x0, 0x7, 0x0⟩,
  ⟨"COX_RSTSTAT", 0x3C01, 1, 1, 1, 1, 0x1, 0x0, 0x2, 0x0, 0x0⟩,
  ⟨"COX_BOOT_LO", 0x3C02, 1, 1, 1, 1, 0x0, 0xFFFF, 0x0, 0x0, 0x0⟩,
  ⟨"COX_BOOT_HI", 0x3C03, 1, 1, 1, 1, 0x10, 0xFFFF, 0x0, 0x0, 0x0⟩,
  ⟨"COX_LDADDR_LO", 0x3C04, 1, 1, 1, 1, 0x0, 0xFFFF, 0x0, 0x0, 0x0⟩,
  ⟨"COX_LDADDR_HI", 0x3C05, 1, 1, 1, 1, 0x0, 0x7F, 0x0, 0x0, 0x0⟩,
  ⟨"COX_LDDATA", 0x3C06, 1, 1, 1, 1, 0x0, 0x0, 0x0, 0x0, 0xFFFF⟩,
  ⟨"COX_FAULT", 0x3D00, 1, 1, 1, 1, 0x0, 0x0, 0x0, 0x0, 0x0⟩,
  ⟨"COX_CC_CTRL", 0x3E00, 1, 1, 1, 1, 0x1, 0x3, 0x0, 0x0, 0x0⟩,
  ⟨"COX_CC_CLEANTHR", 0x3E01, 1, 1, 1, 1, 0x1800, 0x3FFF, 0x0, 0x0, 0x0⟩,
  ⟨"COX_CC_OCC", 0x3E02, 1, 1, 1, 1, 0x0, 0x0, 0x0, 0x0, 0x0⟩,
  ⟨"COX_CC_CMD", 0x3E03, 1, 1, 1, 1, 0x0, 0x0, 0x0, 0x3, 0x0⟩,
  ⟨"COX_CC_STAT", 0x3E04, 1, 1, 1, 1, 0x0, 0x0, 0xE, 0x0, 0x0⟩,
  ⟨"COX_CC_RBASE_LO", 0x3E06, 1, 1, 1, 1, 0x0, 0xFFFF, 0x0, 0x0, 0x0⟩,
  ⟨"COX_CC_RBASE_HI", 0x3E07, 1, 1, 1, 1, 0x0, 0xFFFF, 0x0, 0x0, 0x0⟩,
  ⟨"COX_CC_RLEN_LO", 0x3E08, 1, 1, 1, 1, 0x0, 0xFFFF, 0x0, 0x0, 0x0⟩,
  ⟨"COX_CC_RLEN_HI", 0x3E09, 1, 1, 1, 1, 0x0, 0xFFFF, 0x0, 0x0, 0x0⟩,
  ⟨"COX_MEM_ERR", 0x3E0A, 1, 1, 1, 1, 0x0, 0x0, 0x3, 0x0, 0x0⟩,
  ⟨"COX_MEM_CECNT", 0x3E0B, 1, 1, 1, 1, 0x0, 0x0, 0xFFFF, 0x0, 0x0⟩,
  ⟨"COX_MEM_ERRADDR_LO", 0x3E0C, 1, 1, 1, 1, 0x0, 0x0, 0x0, 0x0, 0x0⟩,
  ⟨"COX_MEM_ERRADDR_HI", 0x3E0D, 1, 1, 1, 1, 0x0, 0x0, 0x0, 0x0, 0x0⟩,
  ⟨"COX_BANK_WAIT_LO", 0x3E0E, 1, 1, 1, 1, 0x0, 0x0, 0x0, 0x0, 0x0⟩,
  ⟨"COX_BANK_WAIT_HI", 0x3E0F, 1, 1, 1, 1, 0x0, 0x0, 0x0, 0x0, 0x0⟩,
  ⟨"COX_HFIND", 0x3E10, 1, 1, 1, 1, 0x0, 0x0, 0x0, 0x0, 0x0⟩,
  ⟨"COX_HCAS", 0x3E11, 1, 1, 1, 1, 0x0, 0x0, 0x0, 0x0, 0xFFF⟩,
  ⟨"COX_HCAS_RES", 0x3E12, 1, 1, 1, 1, 0x0, 0x0, 0x0, 0x0, 0x0⟩,
  ⟨"COX_STROKE_CTRL", 0x3F00, 1, 1, 1, 1, 0x0, 0xF3, 0x0, 0x8000, 0x0⟩,
  ⟨"COX_STROKE_STAT", 0x3F01, 1, 1, 1, 1, 0x0, 0x0, 0xF, 0x0, 0x0⟩,
  ⟨"COX_OVR_COUNT", 0x3F02, 1, 1, 1, 1, 0x0, 0x0, 0xFFFF, 0x0, 0x0⟩]

/-- Registers of one crew, offsets from w:0xF000_0000 + crew × 0x1_0000 (R35), part 2. -/
def crewRows2 : List RegRow := [
  ⟨"COX_STROKE_IRQ", 0x3F03, 1, 1, 1, 1, 0x0, 0x0, 0xF, 0x0, 0x0⟩,
  ⟨"DMA_CTRL", 0x4000, 4, 1024, 1, 1, 0x0, 0x7, 0x0, 0x0, 0x0⟩,
  ⟨"DMA_CMD", 0x4001, 4, 1024, 1, 1, 0x0, 0x0, 0x0, 0xF, 0x0⟩,
  ⟨"DMA_HEAD_LO", 0x4002, 4, 1024, 1, 1, 0x0, 0xFFF0, 0x0, 0x0, 0x0⟩,
  ⟨"DMA_HEAD_HI", 0x4003, 4, 1024, 1, 1, 0x0, 0xFFFF, 0x0, 0x0, 0x0⟩,
  ⟨"DMA_STAT", 0x4004, 4, 1024, 1, 1, 0x0, 0x0, 0x100, 0x0, 0x0⟩,
  ⟨"DMA_CUR_LO", 0x4006, 4, 1024, 1, 1, 0x0, 0x0, 0x0, 0x0, 0x0⟩,
  ⟨"DMA_CUR_HI", 0x4007, 4, 1024, 1, 1, 0x0, 0x0, 0x0, 0x0, 0x0⟩,
  ⟨"DMA_REMAIN_LO", 0x4008, 4, 1024, 1, 1, 0x0, 0x0, 0x0, 0x0, 0x0⟩,
  ⟨"DMA_REMAIN_HI", 0x4009, 4, 1024, 1, 1, 0x0, 0x0, 0x0, 0x0, 0x0⟩,
  ⟨"DMA_FAILADDR_LO", 0x400A, 4, 1024, 1, 1, 0x0, 0x0, 0x0, 0x0, 0x0⟩,
  ⟨"DMA_FAILADDR_HI", 0x400B, 4, 1024, 1, 1, 0x0, 0x0, 0x0, 0x0, 0x0⟩,
  ⟨"DMA_IRQ", 0x400C, 4, 1024, 1, 1, 0x0, 0x0, 0xF, 0x0, 0x0⟩,
  ⟨"DMA_IE", 0x400D, 4, 1024, 1, 1, 0x0, 0xF, 0x0, 0x0, 0x0⟩,
  ⟨"DMA_CHAINMAX", 0x400E, 4, 1024, 1, 1, 0x1000, 0xFFFF, 0x0, 0x0, 0x0⟩,
  ⟨"DMA_TIMEOUT", 0x400F, 4, 1024, 1, 1, 0x14, 0x3FF, 0x0, 0x0, 0x0⟩,
  ⟨"DMA_NDESC_LO", 0x4010, 4, 1024, 1, 1, 0x0, 0x0, 0x0, 0x0, 0x0⟩,
  ⟨"DMA_NDESC_HI", 0x4011, 4, 1024, 1, 1, 0x0, 0x0, 0x0, 0x0, 0x0⟩,
  ⟨"DMA_NAK", 0x4012, 4, 1024, 1, 1, 0x0, 0x0, 0x0, 0x0, 0x0⟩,
  ⟨"DMA_WORDS_LO", 0x4014, 4, 1024, 1, 1, 0x0, 0x0, 0x0, 0x0, 0x0⟩,
  ⟨"DMA_WORDS_HI", 0x4015, 4, 1024, 1, 1, 0x0, 0x0, 0x0, 0x0, 0x0⟩,
  ⟨"HT_BASE_LO", 0x5000, 256, 16, 1, 1, 0x0, 0xFFFF, 0x0, 0x0, 0x0⟩,
  ⟨"HT_BASE_HI", 0x5001, 256, 16, 1, 1, 0x0, 0xFFFF, 0x0, 0x0, 0x0⟩,
  ⟨"HT_LEN_LO", 0x5002, 256, 16, 1, 1, 0x0, 0xFFFF, 0x0, 0x0, 0x0⟩,
  ⟨"HT_LEN_HI", 0x5003, 256, 16, 1, 1, 0x0, 0xFFFF, 0x0, 0x0, 0x0⟩,
  ⟨"HT_CTRL", 0x5004, 256, 16, 1, 1, 0x0, 0x1F, 0x0, 0x0, 0x0⟩,
  ⟨"HT_LANE", 0x5005, 256, 16, 1, 1, 0x0, 0x3FF, 0x0, 0x0, 0x0⟩,
  ⟨"HT_RWIN", 0x5006, 256, 16, 1, 1, 0x0, 0xFFF, 0x0, 0x0, 0x0⟩,
  ⟨"HT_RDEV", 0x5007, 256, 16, 1, 1, 0x0, 0xFF, 0x0, 0x0, 0x0⟩,
  ⟨"HT_KEY_LO", 0x5008, 256, 16, 1, 1, 0x0, 0xFFFF, 0x0, 0x0, 0x0⟩,
  ⟨"HT_KEY_HI", 0x5009, 256, 16, 1, 1, 0x0, 0xFFFF, 0x0, 0x0, 0x0⟩,
  ⟨"MESH_PRIO", 0x6000, 1, 1, 1, 1, 0x343, 0x777, 0x0, 0x0, 0x0⟩]

/-- Registers of one crew, offsets from w:0xF000_0000 + crew × 0x1_0000 (R35), part 3. -/
def crewRows3 : List RegRow := [
  ⟨"MESH_ERR", 0x6001, 1, 1, 1, 1, 0x0, 0x0, 0xF, 0x0, 0x0⟩,
  ⟨"MESH_BUSYn_LO", 0x6010, 7, 2, 1, 1, 0x0, 0x0, 0x0, 0x0, 0x0⟩,
  ⟨"MESH_BUSYn_HI", 0x6011, 7, 2, 1, 1, 0x0, 0x0, 0x0, 0x0, 0x0⟩,
  ⟨"SYN_CGMEMg", 0x7000, 64, 1, 1, 1, 0x0, 0x1FF, 0x0, 0x0, 0x0⟩,
  ⟨"SYN_CGARRg", 0x7040, 64, 1, 1, 1, 0x0, 0x0, 0x0, 0x0, 0x0⟩,
  ⟨"LANE_CREW", 0x8000, 1, 1, 1, 1, 0x0, 0xF1F, 0x0, 0x0, 0x0⟩,
  ⟨"LANE_CREW_STAT", 0x8001, 1, 1, 1, 1, 0x0, 0x0, 0x0, 0x0, 0x0⟩,
  ⟨"LANE_CEVT", 0x8002, 1, 1, 1, 1, 0x0, 0x0, 0x7, 0x0, 0x0⟩,
  ⟨"PWR_CLK", 0x9000, 1, 1, 1, 1, 0x50, 0xFF, 0x0, 0x0, 0x0⟩,
  ⟨"PWR_CLKEFF", 0x9001, 1, 1, 1, 1, 0x150, 0x0, 0x0, 0x0, 0x0⟩,
  ⟨"PWR_VOUT", 0x9002, 1, 1, 1, 1, 0x0, 0x0, 0x0, 0x0, 0x0⟩,
  ⟨"PWR_CUR", 0x9003, 1, 1, 1, 1, 0x0, 0x0, 0x0, 0x0, 0x0⟩,
  ⟨"PWR_BAL", 0x9004, 1, 1, 1, 1, 0x0, 0x0, 0x0, 0x0, 0x0⟩,
  ⟨"PWR_CTRL", 0x9005, 1, 1, 1, 1, 0x1, 0x1, 0x0, 0x0, 0x0⟩,
  ⟨"PWR_ILIM", 0x9006, 1, 1, 1, 1, 0x9C4, 0xFFF, 0x0, 0x0, 0x0⟩,
  ⟨"PWR_TJ", 0x9007, 1, 1, 1, 1, 0x0, 0x0, 0x0, 0x0, 0x0⟩,
  ⟨"COX_CREW_ID", 0xFFF0, 1, 1, 1, 1, 0x0, 0x0, 0x0, 0x0, 0x0⟩,
  ⟨"COX_CREW_ATTACH", 0xFFF1, 1, 1, 1, 1, 0x0, 0x0, 0x0, 0x0, 0x0⟩]

/-- Registers of one crew, offsets from w:0xF000_0000 + crew × 0x1_0000 (R35). -/
def crewRows : List RegRow := crewRows0 ++ crewRows1 ++ crewRows2 ++ crewRows3

/-- Device-global registers, offsets from w:0xF060_0000 (R35), part 0. -/
def globRows0 : List RegRow := [
  ⟨"STK_PERIOD_LO", 0x0, 1, 1, 1, 1, 0x4E20, 0xFFFF, 0x0, 0x0, 0x0⟩,
  ⟨"STK_PERIOD_HI", 0x1, 1, 1, 1, 1, 0x0, 0x1F, 0x0, 0x0, 0x0⟩,
  ⟨"STK_RECOV_LO", 0x2, 1, 1, 1, 1, 0x7D0, 0xFFFF, 0x0, 0x0, 0x0⟩,
  ⟨"STK_RECOV_HI", 0x3, 1, 1, 1, 1, 0x0, 0x1F, 0x0, 0x0, 0x0⟩,
  ⟨"STK_CATCH", 0x4, 1, 1, 1, 1, 0x64, 0x3FF, 0x0, 0x0, 0x0⟩,
  ⟨"STK_HOLDMAX_LO", 0x6, 1, 1, 1, 1, 0x7D0, 0xFFFF, 0x0, 0x0, 0x0⟩,
  ⟨"STK_HOLDMAX_HI", 0x7, 1, 1, 1, 1, 0x0, 0x1F, 0x0, 0x0, 0x0⟩,
  ⟨"STK_CTRL", 0x8, 1, 1, 1, 1, 0x2, 0xF, 0x0, 0x0, 0x0⟩,
  ⟨"STK_CMD", 0x9, 1, 1, 1, 1, 0x0, 0x0, 0x0, 0x3, 0x0⟩,
  ⟨"STK_STAT", 0xA, 1, 1, 1, 1, 0x0, 0x0, 0x0, 0x0, 0x0⟩,
  ⟨"STK_EVT", 0xB, 1, 1, 1, 1, 0x0, 0x0, 0x1FF, 0x0, 0x0⟩,
  ⟨"STK_MASTER", 0xC, 1, 1, 1, 1, 0x0, 0x0, 0x0, 0x0, 0x0⟩,
  ⟨"STK_OFFSET", 0xD, 1, 1, 1, 1, 0x0, 0x0, 0x0, 0x0, 0x0⟩,
  ⟨"STK_LOSSTO", 0xE, 1, 1, 1, 1, 0x64, 0x3FF, 0x0, 0x0, 0x0⟩,
  ⟨"STK_EFF_PERIOD_LO", 0x10, 1, 1, 1, 1, 0x4E20, 0x0, 0x0, 0x0, 0x0⟩,
  ⟨"STK_EFF_PERIOD_HI", 0x11, 1, 1, 1, 1, 0x0, 0x0, 0x0, 0x0, 0x0⟩,
  ⟨"STK_EFF_RECOV_LO", 0x12, 1, 1, 1, 1, 0x7D0, 0x0, 0x0, 0x0, 0x0⟩,
  ⟨"STK_EFF_RECOV_HI", 0x13, 1, 1, 1, 1, 0x0, 0x0, 0x0, 0x0, 0x0⟩,
  ⟨"STK_EFF_CATCH", 0x14, 1, 1, 1, 1, 0x64, 0x0, 0x0, 0x0, 0x0⟩,
  ⟨"STK_EFF_HOLDMAX_LO", 0x16, 1, 1, 1, 1, 0x7D0, 0x0, 0x0, 0x0, 0x0⟩,
  ⟨"STK_EFF_HOLDMAX_HI", 0x17, 1, 1, 1, 1, 0x0, 0x0, 0x0, 0x0, 0x0⟩,
  ⟨"STK_COUNT", 0x20, 4, 1, 1, 1, 0x0, 0x0, 0x0, 0x0, 0x0⟩,
  ⟨"STK_CATCHTIME", 0x24, 4, 1, 1, 1, 0x0, 0x0, 0x0, 0x0, 0x0⟩,
  ⟨"STK_TIME", 0x30, 4, 1, 1, 1, 0x0, 0x0, 0x0, 0x0, 0x0⟩,
  ⟨"MESH_STARVE", 0x1000, 1, 1, 1, 1, 0x80, 0xFFF, 0x0, 0x0, 0x0⟩,
  ⟨"SYN_CGCTRLg", 0x2000, 64, 1, 1, 1, 0x0, 0xFFF, 0x0, 0x0, 0x0⟩,
  ⟨"SYN_CGSTATg", 0x2040, 64, 1, 1, 1, 0x0, 0x0, 0x0, 0x0, 0x0⟩,
  ⟨"SYN_CALLCFGc", 0x2100, 256, 1, 1, 1, 0x0, 0xFFF, 0x0, 0x0, 0x0⟩,
  ⟨"SYN_CALLVALk", 0x2200, 16, 1, 1, 1, 0x0, 0x0, 0x0, 0x0, 0x0⟩,
  ⟨"SYN_CALLSETk", 0x2210, 16, 1, 1, 1, 0x0, 0x0, 0x0, 0xFFFF, 0x0⟩,
  ⟨"SYN_CALLCLRk", 0x2220, 16, 1, 1, 1, 0x0, 0x0, 0x0, 0xFFFF, 0x0⟩,
  ⟨"SYN_ERR", 0x2230, 1, 1, 1, 1, 0x0, 0x0, 0xF, 0x0, 0x0⟩]

/-- Device-global registers, offsets from w:0xF060_0000 (R35), part 1. -/
def globRows1 : List RegRow := [
  ⟨"GW_CTRL", 0x3000, 32, 256, 1, 1, 0xE, 0x1F, 0x0, 0x0, 0x0⟩,
  ⟨"GW_CMD", 0x3001, 32, 256, 1, 1, 0x0, 0x0, 0x0, 0x3, 0x0⟩,
  ⟨"GW_STAT", 0x3002, 32, 256, 1, 1, 0x0, 0x0, 0x0, 0x0, 0x0⟩,
  ⟨"GW_EVT", 0x3003, 32, 256, 1, 1, 0x0, 0x0, 0xFF, 0x0, 0x0⟩,
  ⟨"GW_IE", 0x3004, 32, 256, 1, 1, 0x0, 0xFF, 0x0, 0x0, 0x0⟩,
  ⟨"GW_NBR", 0x3005, 32, 256, 1, 1, 0x0, 0x0, 0x0, 0x0, 0x0⟩,
  ⟨"GW_RTT", 0x3006, 32, 256, 1, 1, 0x0, 0x0, 0x0, 0x0, 0x0⟩,
  ⟨"GW_TEST", 0x3007, 32, 256, 1, 1, 0x0, 0x7, 0x0, 0x0, 0x0⟩,
  ⟨"GW_CAUSE", 0x3008, 32, 256, 1, 1, 0x0, 0x0, 0x0, 0x0, 0x0⟩,
  ⟨"GW_CRCERR", 0x3010, 32, 256, 1, 1, 0x0, 0x0, 0xFFFF, 0x0, 0x0⟩,
  ⟨"GW_REPLAY", 0x3011, 32, 256, 1, 1, 0x0, 0x0, 0xFFFF, 0x0, 0x0⟩,
  ⟨"GW_FECUNC", 0x3012, 32, 256, 1, 1, 0x0, 0x0, 0xFFFF, 0x0, 0x0⟩,
  ⟨"GW_SYNCLOST", 0x3013, 32, 256, 1, 1, 0x0, 0x0, 0xFFFF, 0x0, 0x0⟩,
  ⟨"GW_LOST", 0x3014, 32, 256, 1, 1, 0x0, 0x0, 0xFFFF, 0x0, 0x0⟩,
  ⟨"GW_HOPDROP", 0x3015, 32, 256, 1, 1, 0x0, 0x0, 0xFFFF, 0x0, 0x0⟩,
  ⟨"GW_LANECEl", 0x3018, 32, 256, 8, 1, 0x0, 0x0, 0xFFFF, 0x0, 0x0⟩,
  ⟨"RMA_CTRL", 0x5000, 1, 1, 1, 1, 0x5, 0xF, 0x0, 0x0, 0x0⟩,
  ⟨"RMA_TIMEOUT", 0x5001, 1, 1, 1, 1, 0x40, 0x3FF, 0x0, 0x0, 0x0⟩,
  ⟨"RMA_TMOEFF", 0x5002, 1, 1, 1, 1, 0x40, 0x0, 0x0, 0x0, 0x0⟩,
  ⟨"RMA_WASHTHR", 0x5003, 1, 1, 1, 1, 0xC0, 0x3FF, 0x0, 0x0, 0x0⟩,
  ⟨"RMA_RATEMIN", 0x5004, 1, 1, 1, 1, 0x10, 0x7FF, 0x0, 0x0, 0x0⟩,
  ⟨"RMA_INC", 0x5005, 1, 1, 1, 1, 0x1008, 0xFFFF, 0x0, 0x0, 0x0⟩,
  ⟨"RMA_BURST", 0x5006, 1, 1, 1, 1, 0x40, 0xFF, 0x0, 0x0, 0x0⟩,
  ⟨"RMA_EVT", 0x5008, 1, 1, 1, 1, 0x0, 0x0, 0x3F, 0x0, 0x0⟩,
  ⟨"RMA_FCOX", 0x5009, 1, 1, 1, 1, 0x0, 0xFFF, 0x0, 0x0, 0x0⟩,
  ⟨"RMA_NAKTXc", 0x5011, 10, 1, 1, 1, 0x0, 0x0, 0xFFFF, 0x0, 0x0⟩,
  ⟨"RMA_STALE", 0x5020, 1, 1, 1, 1, 0x0, 0x0, 0xFFFF, 0x0, 0x0⟩,
  ⟨"RMA_DUP", 0x5021, 1, 1, 1, 1, 0x0, 0x0, 0xFFFF, 0x0, 0x0⟩,
  ⟨"RMA_RETX", 0x5022, 1, 1, 1, 1, 0x0, 0x0, 0xFFFF, 0x0, 0x0⟩,
  ⟨"RMA_GAP", 0x5023, 1, 1, 1, 1, 0x0, 0x0, 0xFFFF, 0x0, 0x0⟩,
  ⟨"RMA_SEQRST", 0x5024, 1, 1, 1, 1, 0x0, 0x0, 0xFFFF, 0x0, 0x0⟩,
  ⟨"RMA_EVDROP", 0x5025, 1, 1, 1, 1, 0x0, 0x0, 0xFFFF, 0x0, 0x0⟩]

/-- Device-global registers, offsets from w:0xF060_0000 (R35), part 2. -/
def globRows2 : List RegRow := [
  ⟨"RMA_BADPKT", 0x5026, 1, 1, 1, 1, 0x0, 0x0, 0xFFFF, 0x0, 0x0⟩,
  ⟨"RMA_FAILED", 0x5027, 1, 1, 1, 1, 0x0, 0x0, 0xFFFF, 0x0, 0x0⟩,
  ⟨"RMA_AGEDROP", 0x5028, 1, 1, 1, 1, 0x0, 0x0, 0xFFFF, 0x0, 0x0⟩,
  ⟨"RMA_HAILSTc", 0x5100, 96, 1, 1, 1, 0x0, 0x0, 0xC000, 0x0, 0x0⟩,
  ⟨"RMA_RATEd", 0x5400, 256, 1, 1, 1, 0x400, 0x0, 0x0, 0x0, 0x0⟩,
  ⟨"LANE_SLOT_ID", 0x6000, 16, 16, 1, 1, 0x0, 0x3FF, 0x0, 0x0, 0x0⟩,
  ⟨"LANE_SLOT_CTRL", 0x6001, 16, 16, 1, 1, 0x0, 0x1, 0x0, 0x0, 0x0⟩,
  ⟨"LANE_SLOT_CMD", 0x6002, 16, 16, 1, 1, 0x0, 0x0, 0x0, 0x3, 0x0⟩,
  ⟨"LANE_SLOT_STAT", 0x6003, 16, 16, 1, 1, 0x0, 0x0, 0x0, 0x0, 0x0⟩,
  ⟨"LANE_SLOT_EVT", 0x6004, 16, 16, 1, 1, 0x0, 0x0, 0x1F, 0x0, 0x0⟩,
  ⟨"LANE_SLOT_KTIME_LO", 0x6006, 16, 16, 1, 1, 0x0, 0x0, 0x0, 0x0, 0x0⟩,
  ⟨"LANE_SLOT_KTIME_HI", 0x6007, 16, 16, 1, 1, 0x0, 0x0, 0x0, 0x0, 0x0⟩,
  ⟨"LANE_SLOT_CREWSk", 0x6008, 16, 16, 6, 1, 0x0, 0x0, 0x0, 0x0, 0x0⟩,
  ⟨"LANE_KILL", 0x6100, 1, 1, 1, 1, 0x0, 0x0, 0x0, 0x8000, 0x1F⟩,
  ⟨"LANE_EVTSUM", 0x6101, 1, 1, 1, 1, 0x0, 0x0, 0x0, 0x0, 0x0⟩,
  ⟨"PWR_VIN", 0x7000, 1, 1, 1, 1, 0x0, 0x0, 0x0, 0x0, 0x0⟩,
  ⟨"PWR_IIN", 0x7001, 1, 1, 1, 1, 0x0, 0x0, 0x0, 0x0, 0x0⟩,
  ⟨"PWR_PIN_LO", 0x7002, 1, 1, 1, 1, 0x0, 0x0, 0x0, 0x0, 0x0⟩,
  ⟨"PWR_PIN_HI", 0x7003, 1, 1, 1, 1, 0x0, 0x0, 0x0, 0x0, 0x0⟩,
  ⟨"PWR_DOMCURd", 0x7004, 4, 1, 1, 1, 0x0, 0x0, 0x0, 0x0, 0x0⟩,
  ⟨"PWR_AUXP", 0x7008, 1, 1, 1, 1, 0x0, 0x0, 0x0, 0x0, 0x0⟩,
  ⟨"PWR_RPTSTK", 0x700C, 4, 1, 1, 1, 0x0, 0x0, 0x0, 0x0, 0x0⟩,
  ⟨"PWR_PLIM", 0x7010, 1, 1, 1, 1, 0x5DC, 0x7FF, 0x0, 0x0, 0x0⟩,
  ⟨"PWR_FLT", 0x7011, 1, 1, 1, 1, 0x0, 0x0, 0x1F, 0x0, 0x0⟩,
  ⟨"PWR_CAUSE", 0x7012, 1, 1, 1, 1, 0x0, 0x0, 0x0, 0x0, 0x0⟩,
  ⟨"PWR_CMD", 0x7015, 1, 1, 1, 1, 0x0, 0x0, 0x0, 0x1, 0x0⟩,
  ⟨"PWR_PSTEP_LO", 0x7016, 1, 1, 1, 1, 0x0, 0x0, 0x0, 0x0, 0x0⟩,
  ⟨"PWR_PSTEP_HI", 0x7017, 1, 1, 1, 1, 0x0, 0x0, 0x0, 0x0, 0x0⟩,
  ⟨"PACE_CTRL", 0x8000, 1, 1, 1, 1, 0x0, 0x1, 0x0, 0x0, 0x0⟩,
  ⟨"PACE_CMD", 0x8001, 1, 1, 1, 1, 0x0, 0x0, 0x0, 0x3, 0x0⟩,
  ⟨"PACE_TARGET_LO", 0x8002, 1, 1, 1, 1, 0x93E0, 0xFFFF, 0x0, 0x0, 0x0⟩,
  ⟨"PACE_TARGET_HI", 0x8003, 1, 1, 1, 1, 0x4, 0xFFFF, 0x0, 0x0, 0x0⟩]

/-- Device-global registers, offsets from w:0xF060_0000 (R35), part 3. -/
def globRows3 : List RegRow := [
  ⟨"PACE_FLOOR_LO", 0x8004, 1, 1, 1, 1, 0x0, 0xFFFF, 0x0, 0x0, 0x0⟩,
  ⟨"PACE_FLOOR_HI", 0x8005, 1, 1, 1, 1, 0x0, 0xFFFF, 0x0, 0x0, 0x0⟩,
  ⟨"PACE_SLEW_UP", 0x8006, 1, 1, 1, 1, 0xFA, 0x3FFF, 0x0, 0x0, 0x0⟩,
  ⟨"PACE_SLEW_DOWN", 0x8007, 1, 1, 1, 1, 0xFA, 0x3FFF, 0x0, 0x0, 0x0⟩,
  ⟨"PACE_BAND", 0x8008, 1, 1, 1, 1, 0x14, 0x7F, 0x0, 0x0, 0x0⟩,
  ⟨"PACE_STAGGER", 0x8009, 1, 1, 1, 1, 0x0, 0xFFFF, 0x0, 0x0, 0x0⟩,
  ⟨"PACE_SENSCAP", 0x800A, 1, 1, 1, 1, 0x46, 0x7F, 0x0, 0x0, 0x0⟩,
  ⟨"PACE_SENS", 0x800B, 1, 1, 1, 1, 0x3, 0x7FF, 0x0, 0x0, 0x0⟩,
  ⟨"PACE_WDOG", 0x800C, 1, 1, 1, 1, 0x64, 0x3FF, 0x0, 0x0, 0x0⟩,
  ⟨"PACE_STAT", 0x8010, 1, 1, 1, 1, 0x0, 0x0, 0x0, 0x0, 0x0⟩,
  ⟨"PACE_EVT", 0x8011, 1, 1, 1, 1, 0x0, 0x0, 0x7FF, 0x0, 0x0⟩,
  ⟨"PACE_TRAJ_LO", 0x8012, 1, 1, 1, 1, 0x0, 0x0, 0x0, 0x0, 0x0⟩,
  ⟨"PACE_TRAJ_HI", 0x8013, 1, 1, 1, 1, 0x0, 0x0, 0x0, 0x0, 0x0⟩,
  ⟨"PACE_ATARGET_LO", 0x8014, 1, 1, 1, 1, 0x0, 0x0, 0x0, 0x0, 0x0⟩,
  ⟨"PACE_ATARGET_HI", 0x8015, 1, 1, 1, 1, 0x0, 0x0, 0x0, 0x0, 0x0⟩,
  ⟨"PACE_DEMAND_LO", 0x8016, 1, 1, 1, 1, 0x0, 0x0, 0x0, 0x0, 0x0⟩,
  ⟨"PACE_DEMAND_HI", 0x8017, 1, 1, 1, 1, 0x0, 0x0, 0x0, 0x0, 0x0⟩,
  ⟨"PACE_BALLAST_LO", 0x8018, 1, 1, 1, 1, 0x0, 0x0, 0x0, 0x0, 0x0⟩,
  ⟨"PACE_BALLAST_HI", 0x8019, 1, 1, 1, 1, 0x0, 0x0, 0x0, 0x0, 0x0⟩,
  ⟨"PACE_BALCAP_LO", 0x801A, 1, 1, 1, 1, 0x0, 0x0, 0x0, 0x0, 0x0⟩,
  ⟨"PACE_BALCAP_HI", 0x801B, 1, 1, 1, 1, 0x0, 0x0, 0x0, 0x0, 0x0⟩,
  ⟨"HST_ACCERR_STAT", 0x9000, 1, 1, 1, 1, 0x0, 0x0, 0x801F, 0x0, 0x0⟩,
  ⟨"HST_ACCERR_INFO", 0x9001, 1, 1, 1, 1, 0x0, 0x0, 0x0, 0x0, 0x0⟩,
  ⟨"HST_ACCERR_ADDR_LO", 0x9002, 1, 1, 1, 1, 0x0, 0x0, 0x0, 0x0, 0x0⟩,
  ⟨"HST_ACCERR_ADDR_HI", 0x9003, 1, 1, 1, 1, 0x0, 0x0, 0x0, 0x0, 0x0⟩,
  ⟨"HST_FLT_STAT", 0x9100, 1, 1, 1, 1, 0x0, 0x0, 0x0, 0x0, 0x0⟩,
  ⟨"HST_FLT_HIE", 0x9101, 1, 1, 1, 1, 0x0, 0x3FFF, 0x0, 0x0, 0x0⟩,
  ⟨"HST_FLT_BIE", 0x9102, 1, 1, 1, 1, 0x0, 0x3FFF, 0x0, 0x0, 0x0⟩,
  ⟨"HST_FLT_CMD", 0x9103, 1, 1, 1, 1, 0x0, 0x0, 0x0, 0x1, 0x0⟩,
  ⟨"HST_FLT_CREWk", 0x9108, 6, 1, 1, 1, 0x0, 0x0, 0x0, 0x0, 0x0⟩,
  ⟨"HST_BOOTSTAT", 0x9200, 1, 1, 1, 1, 0x0, 0x3F, 0x0, 0x0, 0x0⟩,
  ⟨"HST_DEVRST", 0x9202, 1, 1, 1, 1, 0x0, 0x0, 0x0, 0x1, 0x0⟩]

/-- Device-global registers, offsets from w:0xF060_0000 (R35), part 4. -/
def globRows4 : List RegRow := [
  ⟨"HST_IRQ_SEND", 0x9203, 1, 1, 1, 1, 0x0, 0x0, 0x0, 0x8000, 0x7FF⟩,
  ⟨"HST_LINK", 0x9204, 1, 1, 1, 1, 0x0, 0x0, 0x200, 0x0, 0x0⟩,
  ⟨"HDMA_HEAD", 0x9210, 4, 1, 1, 1, 0x0, 0xFFFF, 0x0, 0x0, 0x0⟩,
  ⟨"HDMA_CMD", 0x9214, 1, 1, 1, 1, 0x0, 0x0, 0x0, 0x3, 0x0⟩,
  ⟨"HDMA_STAT", 0x9215, 1, 1, 1, 1, 0x0, 0x0, 0x0, 0x0, 0x0⟩,
  ⟨"HDMA_DONE_LO", 0x9216, 1, 1, 1, 1, 0x0, 0x0, 0x0, 0x0, 0x0⟩,
  ⟨"HDMA_DONE_HI", 0x9217, 1, 1, 1, 1, 0x0, 0x0, 0x0, 0x0, 0x0⟩,
  ⟨"HDMA_CUR", 0x9218, 4, 1, 1, 1, 0x0, 0x0, 0x0, 0x0, 0x0⟩,
  ⟨"FEATn", 0xFFF8, 8, 1, 1, 1, 0x0, 0x0, 0x0, 0x0, 0x0⟩]

/-- Device-global registers, offsets from w:0xF060_0000 (R35). -/
def globRows : List RegRow := globRows0 ++ globRows1 ++ globRows2 ++ globRows3 ++ globRows4

/-- Boathouse registers, offsets from w:0xF070_0000 (R35), part 0. -/
def bhRows0 : List RegRow := [
  ⟨"BH_IE_LO", 0x0, 1, 1, 1, 1, 0x0, 0xFFFF, 0x0, 0x0, 0x0⟩,
  ⟨"BH_IE_HI", 0x1, 1, 1, 1, 1, 0x0, 0x3, 0x0, 0x0, 0x0⟩,
  ⟨"BH_IP_LO", 0x2, 1, 1, 1, 1, 0x0, 0x0, 0x0, 0x0, 0x0⟩,
  ⟨"BH_IP_HI", 0x3, 1, 1, 1, 1, 0x0, 0x0, 0x0, 0x0, 0x0⟩,
  ⟨"BH_CMD", 0x4, 1, 1, 1, 1, 0x0, 0x0, 0x0, 0x7, 0x0⟩,
  ⟨"BH_WDOG", 0x5, 1, 1, 1, 1, 0x8064, 0x83FF, 0x0, 0x0, 0x0⟩,
  ⟨"BH_RSTCAUSE", 0x6, 1, 1, 1, 1, 0x0, 0x0, 0x0, 0x0, 0x0⟩,
  ⟨"BH_BOOT", 0x7, 1, 1, 1, 1, 0x0, 0xF, 0x0, 0x0, 0x0⟩,
  ⟨"BH_CLK", 0x8, 1, 1, 1, 1, 0x0, 0x0, 0x2, 0x0, 0x0⟩,
  ⟨"BH_EVT", 0x9, 1, 1, 1, 1, 0x0, 0x0, 0x3, 0x0, 0x0⟩,
  ⟨"BH_MEMERR", 0xA, 1, 1, 1, 1, 0x0, 0x0, 0x3, 0x0, 0x0⟩,
  ⟨"BH_TIMESET", 0xC, 4, 1, 1, 1, 0x0, 0xFFFF, 0x0, 0x0, 0x0⟩,
  ⟨"BH_TMR_PERIOD_LO", 0x10, 1, 1, 1, 1, 0x0, 0xFFFF, 0x0, 0x0, 0x0⟩,
  ⟨"BH_TMR_PERIOD_HI", 0x11, 1, 1, 1, 1, 0x0, 0xFFFF, 0x0, 0x0, 0x0⟩,
  ⟨"BH_TMR_CTRL", 0x12, 1, 1, 1, 1, 0x0, 0x1, 0x2, 0x0, 0x0⟩,
  ⟨"BH_DBELL_SET", 0x14, 1, 1, 1, 1, 0x0, 0x0, 0x0, 0xFFFF, 0x0⟩,
  ⟨"BH_DBELL_STAT", 0x15, 1, 1, 1, 1, 0x0, 0x0, 0xFFFF, 0x0, 0x0⟩,
  ⟨"BH_PROT_EN", 0x20, 1, 1, 1, 1, 0x1, 0xF, 0x0, 0x0, 0x0⟩,
  ⟨"BH_PROT_TMAX", 0x21, 1, 1, 1, 1, 0x55F0, 0xFFFF, 0x0, 0x0, 0x0⟩,
  ⟨"BH_PROT_TACH", 0x22, 1, 1, 1, 1, 0x0, 0xF, 0x0, 0x0, 0x0⟩,
  ⟨"BH_PROT_LL", 0x23, 1, 1, 1, 1, 0x0, 0x3F, 0x0, 0x0, 0x0⟩,
  ⟨"BH_PROT_CAUSE", 0x24, 1, 1, 1, 1, 0x0, 0x0, 0xF, 0x0, 0x0⟩,
  ⟨"BH_FAC_EID", 0x30, 1, 1, 1, 1, 0x0, 0xFFFF, 0x0, 0x0, 0x0⟩,
  ⟨"BH_COMMIT_STAT", 0x31, 1, 1, 1, 1, 0x0, 0x0, 0x4, 0x0, 0x0⟩,
  ⟨"BH_COMMIT_ID_LO", 0x32, 1, 1, 1, 1, 0x0, 0x0, 0x0, 0x0, 0x0⟩,
  ⟨"BH_COMMIT_ID_HI", 0x33, 1, 1, 1, 1, 0x0, 0x0, 0x0, 0x0, 0x0⟩,
  ⟨"BH_PROP_ID_LO", 0x34, 1, 1, 1, 1, 0x0, 0x0, 0x0, 0x0, 0x0⟩,
  ⟨"BH_PROP_ID_HI", 0x35, 1, 1, 1, 1, 0x0, 0x0, 0x0, 0x0, 0x0⟩,
  ⟨"BH_JTAG", 0x40, 1, 1, 1, 1, 0x0, 0x1, 0x0, 0x0, 0x0⟩,
  ⟨"BH_FL_CMD", 0x100, 1, 1, 1, 1, 0x0, 0x0, 0x0, 0x3, 0x0⟩,
  ⟨"BH_FL_STAT", 0x101, 1, 1, 1, 1, 0x0, 0x0, 0x6, 0x0, 0x0⟩,
  ⟨"BH_FL_ADDR_LO", 0x102, 1, 1, 1, 1, 0x0, 0xFFFF, 0x0, 0x0, 0x0⟩]

/-- Boathouse registers, offsets from w:0xF070_0000 (R35), part 1. -/
def bhRows1 : List RegRow := [
  ⟨"BH_FL_ADDR_HI", 0x103, 1, 1, 1, 1, 0x0, 0x1FF, 0x0, 0x0, 0x0⟩,
  ⟨"BH_FL_LOCK", 0x104, 1, 1, 1, 1, 0x0, 0x3, 0x0, 0x0, 0x0⟩,
  ⟨"BH_FL_BUF", 0x180, 128, 1, 1, 1, 0x0, 0xFFFF, 0x0, 0x0, 0x0⟩,
  ⟨"BH_I3Cn_CTRL", 0x200, 2, 128, 1, 1, 0x0, 0x3FF, 0x0, 0x0, 0x0⟩,
  ⟨"BH_I3Cn_STAT", 0x201, 2, 128, 1, 1, 0x0, 0x0, 0x0, 0x0, 0x0⟩,
  ⟨"BH_I3Cn_TOUT", 0x202, 2, 128, 1, 1, 0x19, 0xFF, 0x0, 0x0, 0x0⟩,
  ⟨"BH_I3Cn_EVT", 0x203, 2, 128, 1, 1, 0x0, 0x0, 0x7F, 0x0, 0x0⟩,
  ⟨"BH_I3Cn_TXF", 0x204, 2, 128, 1, 1, 0x0, 0x0, 0x0, 0x0, 0xFF⟩,
  ⟨"BH_I3Cn_RXF", 0x205, 2, 128, 1, 1, 0x0, 0x0, 0x0, 0x0, 0x0⟩,
  ⟨"BH_UARTn_CTRL", 0x300, 2, 64, 1, 1, 0x0, 0x1F, 0x0, 0x0, 0x0⟩,
  ⟨"BH_UARTn_DIV", 0x301, 2, 64, 1, 1, 0xD8, 0xFFF, 0x0, 0x0, 0x0⟩,
  ⟨"BH_UARTn_DATA", 0x302, 2, 64, 1, 1, 0x0, 0x0, 0x0, 0x0, 0x0⟩,
  ⟨"BH_UARTn_STAT", 0x303, 2, 64, 1, 1, 0x0, 0x18, 0x4, 0x0, 0x0⟩,
  ⟨"BH_SPI_CTRL", 0x380, 1, 1, 1, 1, 0x300, 0xFF3F, 0x0, 0x0, 0x0⟩,
  ⟨"BH_SPI_DATA", 0x381, 1, 1, 1, 1, 0x0, 0x0, 0x0, 0x0, 0x0⟩,
  ⟨"BH_SPI_STAT", 0x382, 1, 1, 1, 1, 0x0, 0x0, 0x2, 0x0, 0x0⟩,
  ⟨"BH_TACHn_CFG", 0x400, 4, 4, 1, 1, 0x29, 0x3FF, 0x0, 0x0, 0x0⟩,
  ⟨"BH_TACHn_RPM", 0x401, 4, 4, 1, 1, 0x0, 0x0, 0x0, 0x0, 0x0⟩,
  ⟨"BH_TACHn_STAT", 0x402, 4, 4, 1, 1, 0x0, 0x0, 0x1, 0x0, 0x0⟩,
  ⟨"BH_PWMn_PERIOD", 0x410, 2, 4, 1, 1, 0xFA0, 0xFFFF, 0x0, 0x0, 0x0⟩,
  ⟨"BH_PWMn_DUTY", 0x411, 2, 4, 1, 1, 0x400, 0x7FF, 0x0, 0x0, 0x0⟩,
  ⟨"LL_CTRL", 0x1000, 1, 1, 1, 1, 0x13, 0x1F, 0x0, 0x0, 0x0⟩,
  ⟨"LL_STAT", 0x1001, 1, 1, 1, 1, 0x1F0, 0x0, 0x0, 0x0, 0x0⟩,
  ⟨"LL_EVT", 0x1002, 1, 1, 1, 1, 0x0, 0x0, 0x7FF, 0x0, 0x0⟩,
  ⟨"LL_IE", 0x1003, 1, 1, 1, 1, 0x0, 0x7FF, 0x0, 0x0, 0x0⟩,
  ⟨"LL_S0_THR", 0x1004, 1, 1, 1, 1, 0x1418, 0xFFFF, 0x0, 0x0, 0x0⟩,
  ⟨"LL_S0_CFG", 0x1005, 1, 1, 1, 1, 0x1E02, 0xFF0F, 0x0, 0x0, 0x0⟩,
  ⟨"LL_S1_CFG", 0x1006, 1, 1, 1, 1, 0x340, 0xFFF, 0x0, 0x0, 0x0⟩,
  ⟨"LL_IDLE", 0x1007, 1, 1, 1, 1, 0x5E, 0xFFF, 0x0, 0x0, 0x0⟩,
  ⟨"LL_NOTCH", 0x1008, 1, 1, 1, 1, 0x2950, 0xFFFF, 0x0, 0x0, 0x0⟩,
  ⟨"LL_S3_THR", 0x1009, 1, 1, 1, 1, 0xA0, 0xFF, 0x0, 0x0, 0x0⟩,
  ⟨"LL_LASTTIME", 0x100C, 4, 1, 1, 1, 0x0, 0x0, 0x0, 0x0, 0x0⟩]

/-- Boathouse registers, offsets from w:0xF070_0000 (R35), part 2. -/
def bhRows2 : List RegRow := [
  ⟨"LL_LAST", 0x1010, 1, 1, 1, 1, 0x0, 0x0, 0x0, 0x0, 0x0⟩,
  ⟨"LL_COUNTc", 0x1011, 6, 1, 1, 1, 0x0, 0x0, 0xFFFF, 0x0, 0x0⟩,
  ⟨"LL_FLOORs", 0x1018, 4, 1, 1, 1, 0x0, 0x0, 0x0, 0x0, 0x0⟩,
  ⟨"LL_BANDb", 0x1020, 16, 1, 1, 1, 0x0, 0x0, 0x0, 0x0, 0x0⟩,
  ⟨"LL_BASEb", 0x1030, 16, 1, 1, 1, 0x0, 0x0, 0x0, 0x0, 0x0⟩,
  ⟨"LL_SCOREc", 0x1040, 6, 1, 1, 1, 0x0, 0x0, 0x0, 0x0, 0x0⟩,
  ⟨"LL_LAGp", 0x1048, 6, 1, 1, 1, 0x0, 0x0, 0x0, 0x0, 0x0⟩,
  ⟨"LL_LOC", 0x104E, 1, 1, 1, 1, 0x0, 0x0, 0x0, 0x0, 0x0⟩,
  ⟨"LL_LOCQ", 0x104F, 1, 1, 1, 1, 0x0, 0x0, 0x0, 0x0, 0x0⟩,
  ⟨"LL_VERDICT", 0x1050, 1, 1, 1, 1, 0x0, 0x0, 0x0, 0x8000, 0x7FF⟩,
  ⟨"LL_TPLCFGc", 0x1060, 6, 1, 1, 1, 0xA000, 0xFF01, 0x0, 0x0, 0x0⟩,
  ⟨"LL_TPLc_b", 0x1100, 6, 16, 16, 1, 0x0, 0xFF, 0x0, 0x0, 0x0⟩,
  ⟨"MIO_FSELn", 0x2000, 24, 1, 1, 1, 0x1, 0x1F, 0x0, 0x0, 0x0⟩,
  ⟨"MIO_OUT_LO", 0x2020, 1, 1, 1, 1, 0x0, 0xFFFF, 0x0, 0x0, 0x0⟩,
  ⟨"MIO_OUT_HI", 0x2021, 1, 1, 1, 1, 0x0, 0xFF, 0x0, 0x0, 0x0⟩,
  ⟨"MIO_OE_LO", 0x2022, 1, 1, 1, 1, 0x0, 0xFFFF, 0x0, 0x0, 0x0⟩,
  ⟨"MIO_OE_HI", 0x2023, 1, 1, 1, 1, 0x0, 0xFF, 0x0, 0x0, 0x0⟩,
  ⟨"MIO_IN_LO", 0x2024, 1, 1, 1, 1, 0x0, 0x0, 0x0, 0x0, 0x0⟩,
  ⟨"MIO_IN_HI", 0x2025, 1, 1, 1, 1, 0x0, 0x0, 0x0, 0x0, 0x0⟩,
  ⟨"MIO_EVT", 0x2026, 1, 1, 1, 1, 0x0, 0x0, 0x1, 0x0, 0x0⟩,
  ⟨"AIN_CFGn", 0x3000, 8, 16, 1, 1, 0x17, 0x1F, 0x0, 0x0, 0x0⟩,
  ⟨"AIN_RREFn", 0x3001, 8, 16, 1, 1, 0x2710, 0xFFFF, 0x0, 0x0, 0x0⟩,
  ⟨"AIN_RNOMn", 0x3002, 8, 16, 1, 1, 0x3E8, 0xFFFF, 0x0, 0x0, 0x0⟩,
  ⟨"AIN_BETAn", 0x3003, 8, 16, 1, 1, 0xD6B, 0xFFFF, 0x0, 0x0, 0x0⟩,
  ⟨"AIN_OFFSn", 0x3004, 8, 16, 1, 1, 0x0, 0xFFFF, 0x0, 0x0, 0x0⟩,
  ⟨"AIN_RESn_LO", 0x3006, 8, 16, 1, 1, 0x0, 0x0, 0x0, 0x0, 0x0⟩,
  ⟨"AIN_RESn_HI", 0x3007, 8, 16, 1, 1, 0x0, 0x0, 0x0, 0x0, 0x0⟩,
  ⟨"AIN_TEMPn", 0x3008, 8, 16, 1, 1, 0x0, 0x0, 0x0, 0x0, 0x0⟩,
  ⟨"AIN_CSTATn", 0x3009, 8, 16, 1, 1, 0x0, 0x0, 0x0, 0x0, 0x0⟩,
  ⟨"AIN_OPEN", 0x3080, 1, 1, 1, 1, 0x0, 0x0, 0xFF, 0x0, 0x0⟩,
  ⟨"AIN_SHORT", 0x3081, 1, 1, 1, 1, 0x0, 0x0, 0xFF, 0x0, 0x0⟩,
  ⟨"AIN_DONE", 0x3082, 1, 1, 1, 1, 0x0, 0x0, 0xFF, 0x0, 0x0⟩]

/-- Boathouse registers, offsets from w:0xF070_0000 (R35). -/
def bhRows : List RegRow := bhRows0 ++ bhRows1 ++ bhRows2

/-- The words of the window table, offsets from w:0xF100_0000 (R32, R328). -/
def winRows : List RegRow := [
  ⟨"WIN_BASE_LO", 0x0, 4096, 16, 1, 1, 0x0, 0xFFFF, 0x0, 0x0, 0x0⟩,
  ⟨"WIN_BASE_HI", 0x1, 4096, 16, 1, 1, 0x0, 0xFFFF, 0x0, 0x0, 0x0⟩,
  ⟨"WIN_LEN_LO", 0x2, 4096, 16, 1, 1, 0x0, 0xFFFF, 0x0, 0x0, 0x0⟩,
  ⟨"WIN_LEN_HI", 0x3, 4096, 16, 1, 1, 0x0, 0xFFFF, 0x0, 0x0, 0x0⟩,
  ⟨"WIN_CTRL", 0x4, 4096, 16, 1, 1, 0x0, 0x3FF, 0x0, 0x0, 0x0⟩,
  ⟨"WIN_LANE", 0x5, 4096, 16, 1, 1, 0x0, 0x3FF, 0x0, 0x0, 0x0⟩,
  ⟨"WIN_HCREW", 0x6, 4096, 16, 1, 1, 0x0, 0x7F, 0x0, 0x0, 0x0⟩,
  ⟨"WIN_KEY_LO", 0x8, 4096, 16, 1, 1, 0x0, 0xFFFF, 0x0, 0x0, 0x0⟩,
  ⟨"WIN_KEY_HI", 0x9, 4096, 16, 1, 1, 0x0, 0xFFFF, 0x0, 0x0, 0x0⟩,
  ⟨"WIN_NAKS", 0xA, 4096, 16, 1, 1, 0x0, 0x0, 0xFFFF, 0x0, 0x0⟩]

/-- The words of the routing tables, offsets from w:0xF140_0000 (R32, R318). -/
def rtRows : List RegRow := [
  ⟨"RT_W0", 0x0, 256, 2, 1, 1, 0x0, 0x1FFF, 0x0, 0x0, 0x0⟩,
  ⟨"RT_W1", 0x1, 256, 2, 1, 1, 0x0, 0x0, 0x0, 0x0, 0x0⟩,
  ⟨"GW_DEVID", 0x200, 1, 1, 1, 1, 0x0, 0x80FF, 0x0, 0x0, 0x0⟩,
  ⟨"GW_SYSID", 0x201, 1, 1, 1, 1, 0x0, 0xFFFF, 0x0, 0x0, 0x0⟩,
  ⟨"GW_FEVT", 0x202, 1, 1, 1, 1, 0x0, 0x0, 0x3, 0x0, 0x0⟩,
  ⟨"GW_NOROUTE", 0x203, 1, 1, 1, 1, 0x0, 0x0, 0xFFFF, 0x0, 0x0⟩,
  ⟨"GW_CALLDISC", 0x204, 1, 1, 1, 1, 0x0, 0x0, 0xFFFF, 0x0, 0x0⟩]

/-- The words of the lane table, offsets from w:0xF180_0000 (R32, R377). -/
def ltRows : List RegRow := [
  ⟨"LANE_TABLE_W0", 0x0, 1024, 2, 1, 1, 0x0, 0x0, 0x0, 0x0, 0x0⟩,
  ⟨"LANE_TABLE_KILLS", 0x1, 1024, 2, 1, 1, 0x0, 0x0, 0x0, 0x0, 0x0⟩]

/-! ## Register names: the word address of each register -/
namespace R

/-- COX_CNTn_LO (spec/07 R204). -/
abbrev COX_CNT_LO (c i : Nat) : Nat := 0xF0000000 + c * 0x10000 + i * 0x2
/-- COX_CNTn_HI (spec/07 R204). -/
abbrev COX_CNT_HI (c i : Nat) : Nat := 0xF0000001 + c * 0x10000 + i * 0x2
/-- COX_CNT_INC (spec/07 R204). -/
abbrev COX_CNT_INC (c : Nat) : Nat := 0xF0000080 + c * 0x10000
/-- COX_CTRL (spec/07 R212). -/
abbrev COX_CTRL (c : Nat) : Nat := 0xF0000100 + c * 0x10000
/-- COX_IE (spec/07 R221). -/
abbrev COX_IE (c : Nat) : Nat := 0xF0000101 + c * 0x10000
/-- COX_IP (spec/07 R221). -/
abbrev COX_IP (c : Nat) : Nat := 0xF0000102 + c * 0x10000
/-- COX_HAILQ (spec/07 R115). -/
abbrev COX_HAILQ (c : Nat) : Nat := 0xF0000103 + c * 0x10000
/-- COX_DBELL_SET (spec/07 R221). -/
abbrev COX_DBELL_SET (c : Nat) : Nat := 0xF0000104 + c * 0x10000
/-- COX_DBELL_STAT (spec/07 R221). -/
abbrev COX_DBELL_STAT (c : Nat) : Nat := 0xF0000105 + c * 0x10000
/-- COX_TDONE_LO (spec/07 R216). -/
abbrev COX_TDONE_LO (c : Nat) : Nat := 0xF0000106 + c * 0x10000
/-- COX_TDONE_HI (spec/07 R216). -/
abbrev COX_TDONE_HI (c : Nat) : Nat := 0xF0000107 + c * 0x10000
/-- COX_QERR_LO (spec/07 R217). -/
abbrev COX_QERR_LO (c : Nat) : Nat := 0xF0000108 + c * 0x10000
/-- COX_QERR_HI (spec/07 R217). -/
abbrev COX_QERR_HI (c : Nat) : Nat := 0xF0000109 + c * 0x10000
/-- COX_SEATS (spec/07 R218). -/
abbrev COX_SEATS (c : Nat) : Nat := 0xF000010A + c * 0x10000
/-- COX_ABORTS (spec/07 R218). -/
abbrev COX_ABORTS (c : Nat) : Nat := 0xF000010B + c * 0x10000
/-- COX_DISPATCHED_LO (spec/07 R212). -/
abbrev COX_DISPATCHED_LO (c : Nat) : Nat := 0xF000010C + c * 0x10000
/-- COX_DISPATCHED_HI (spec/07 R212). -/
abbrev COX_DISPATCHED_HI (c : Nat) : Nat := 0xF000010D + c * 0x10000
/-- COX_Qq_BASE_LO (spec/07 R206). -/
abbrev COX_Q_BASE_LO (c i : Nat) : Nat := 0xF0001000 + c * 0x10000 + i * 0x10
/-- COX_Qq_BASE_HI (spec/07 R206). -/
abbrev COX_Q_BASE_HI (c i : Nat) : Nat := 0xF0001001 + c * 0x10000 + i * 0x10
/-- COX_Qq_CTRL (spec/07 R206). -/
abbrev COX_Q_CTRL (c i : Nat) : Nat := 0xF0001002 + c * 0x10000 + i * 0x10
/-- COX_Qq_HEAD (spec/07 R206). -/
abbrev COX_Q_HEAD (c i : Nat) : Nat := 0xF0001003 + c * 0x10000 + i * 0x10
/-- COX_Qq_TAIL (spec/07 R207). -/
abbrev COX_Q_TAIL (c i : Nat) : Nat := 0xF0001004 + c * 0x10000 + i * 0x10
/-- COX_Qq_STAT (spec/07 R206). -/
abbrev COX_Q_STAT (c i : Nat) : Nat := 0xF0001005 + c * 0x10000 + i * 0x10
/-- COX_Qq_CMD (spec/07 R217). -/
abbrev COX_Q_CMD (c i : Nat) : Nat := 0xF0001006 + c * 0x10000 + i * 0x10
/-- COX_Qq_DROP (spec/07 R209). -/
abbrev COX_Q_DROP (c i : Nat) : Nat := 0xF0001007 + c * 0x10000 + i * 0x10
/-- COX_SEATs_CMD (spec/07 R218). -/
abbrev COX_SEAT_CMD (c i : Nat) : Nat := 0xF0002000 + c * 0x10000 + i * 0x100
/-- COX_SEATs_STAT (spec/07 R218). -/
abbrev COX_SEAT_STAT (c i : Nat) : Nat := 0xF0002001 + c * 0x10000 + i * 0x100
/-- COX_SEATs_TAG (spec/07 R200). -/
abbrev COX_SEAT_TAG (c i : Nat) : Nat := 0xF0002002 + c * 0x10000 + i * 0x100
/-- COX_SEATs_Wn (spec/07 R205). -/
abbrev COX_SEAT_W (c i j : Nat) : Nat := 0xF0002010 + c * 0x10000 + i * 0x100 + j
/-- COX_SEATs_An (spec/07 R205). -/
abbrev COX_SEAT_A (c i j : Nat) : Nat := 0xF0002020 + c * 0x10000 + i * 0x100 + j
/-- COX_SEATs_CST (spec/07 R205). -/
abbrev COX_SEAT_CST (c i : Nat) : Nat := 0xF0002030 + c * 0x10000 + i * 0x100
/-- COX_SEATs_ECST (spec/07 R205). -/
abbrev COX_SEAT_ECST (c i : Nat) : Nat := 0xF0002031 + c * 0x10000 + i * 0x100
/-- COX_SEATs_ECAUSE (spec/07 R205). -/
abbrev COX_SEAT_ECAUSE (c i : Nat) : Nat := 0xF0002032 + c * 0x10000 + i * 0x100
/-- COX_SEATs_EPC_EVAL (spec/07 R205). -/
abbrev COX_SEAT_EPC_EVAL (c i j : Nat) : Nat := 0xF0002034 + c * 0x10000 + i * 0x100 + j
/-- COX_SEATs_LOOP (spec/07 R205). -/
abbrev COX_SEAT_LOOP (c i j : Nat) : Nat := 0xF0002040 + c * 0x10000 + i * 0x100 + j
/-- COX_RSTCMD (spec/17 R466). -/
abbrev COX_RSTCMD (c : Nat) : Nat := 0xF0003C00 + c * 0x10000
/-- COX_RSTSTAT (spec/17 R466). -/
abbrev COX_RSTSTAT (c : Nat) : Nat := 0xF0003C01 + c * 0x10000
/-- COX_BOOT_LO (spec/17 R467). -/
abbrev COX_BOOT_LO (c : Nat) : Nat := 0xF0003C02 + c * 0x10000
/-- COX_BOOT_HI (spec/17 R467). -/
abbrev COX_BOOT_HI (c : Nat) : Nat := 0xF0003C03 + c * 0x10000
/-- COX_LDADDR_LO (spec/17 R468). -/
abbrev COX_LDADDR_LO (c : Nat) : Nat := 0xF0003C04 + c * 0x10000
/-- COX_LDADDR_HI (spec/17 R468). -/
abbrev COX_LDADDR_HI (c : Nat) : Nat := 0xF0003C05 + c * 0x10000
/-- COX_LDDATA (spec/17 R468). -/
abbrev COX_LDDATA (c : Nat) : Nat := 0xF0003C06 + c * 0x10000
/-- COX_FAULT (spec/12 R361). -/
abbrev COX_FAULT (c : Nat) : Nat := 0xF0003D00 + c * 0x10000
/-- COX_CC_CTRL (spec/06 R189). -/
abbrev COX_CC_CTRL (c : Nat) : Nat := 0xF0003E00 + c * 0x10000
/-- COX_CC_CLEANTHR (spec/06 R189). -/
abbrev COX_CC_CLEANTHR (c : Nat) : Nat := 0xF0003E01 + c * 0x10000
/-- COX_CC_OCC (spec/06 R189). -/
abbrev COX_CC_OCC (c : Nat) : Nat := 0xF0003E02 + c * 0x10000
/-- COX_CC_CMD (spec/06 R193). -/
abbrev COX_CC_CMD (c : Nat) : Nat := 0xF0003E03 + c * 0x10000
/-- COX_CC_STAT (spec/06 R193). -/
abbrev COX_CC_STAT (c : Nat) : Nat := 0xF0003E04 + c * 0x10000
/-- COX_CC_RBASE_LO (spec/06 R193). -/
abbrev COX_CC_RBASE_LO (c : Nat) : Nat := 0xF0003E06 + c * 0x10000
/-- COX_CC_RBASE_HI (spec/06 R193). -/
abbrev COX_CC_RBASE_HI (c : Nat) : Nat := 0xF0003E07 + c * 0x10000
/-- COX_CC_RLEN_LO (spec/06 R193). -/
abbrev COX_CC_RLEN_LO (c : Nat) : Nat := 0xF0003E08 + c * 0x10000
/-- COX_CC_RLEN_HI (spec/06 R193). -/
abbrev COX_CC_RLEN_HI (c : Nat) : Nat := 0xF0003E09 + c * 0x10000
/-- COX_MEM_ERR (spec/06 R176). -/
abbrev COX_MEM_ERR (c : Nat) : Nat := 0xF0003E0A + c * 0x10000
/-- COX_MEM_CECNT (spec/06 R175). -/
abbrev COX_MEM_CECNT (c : Nat) : Nat := 0xF0003E0B + c * 0x10000
/-- COX_MEM_ERRADDR_LO (spec/06 R176). -/
abbrev COX_MEM_ERRADDR_LO (c : Nat) : Nat := 0xF0003E0C + c * 0x10000
/-- COX_MEM_ERRADDR_HI (spec/06 R176). -/
abbrev COX_MEM_ERRADDR_HI (c : Nat) : Nat := 0xF0003E0D + c * 0x10000
/-- COX_BANK_WAIT_LO (spec/06 R170). -/
abbrev COX_BANK_WAIT_LO (c : Nat) : Nat := 0xF0003E0E + c * 0x10000
/-- COX_BANK_WAIT_HI (spec/06 R170). -/
abbrev COX_BANK_WAIT_HI (c : Nat) : Nat := 0xF0003E0F + c * 0x10000
/-- COX_HFIND (spec/06 R183). -/
abbrev COX_HFIND (c : Nat) : Nat := 0xF0003E10 + c * 0x10000
/-- COX_HCAS (spec/06 R181). -/
abbrev COX_HCAS (c : Nat) : Nat := 0xF0003E11 + c * 0x10000
/-- COX_HCAS_RES (spec/06 R163). -/
abbrev COX_HCAS_RES (c : Nat) : Nat := 0xF0003E12 + c * 0x10000
/-- COX_STROKE_CTRL (spec/03 R96). -/
abbrev COX_STROKE_CTRL (c : Nat) : Nat := 0xF0003F00 + c * 0x10000
/-- COX_STROKE_STAT (spec/03 R96). -/
abbrev COX_STROKE_STAT (c : Nat) : Nat := 0xF0003F01 + c * 0x10000
/-- COX_OVR_COUNT (spec/03 R96). -/
abbrev COX_OVR_COUNT (c : Nat) : Nat := 0xF0003F02 + c * 0x10000
/-- COX_STROKE_IRQ (spec/07 R221). -/
abbrev COX_STROKE_IRQ (c : Nat) : Nat := 0xF0003F03 + c * 0x10000
/-- DMA_CTRL (spec/08 R249). -/
abbrev DMA_CTRL (c i : Nat) : Nat := 0xF0004000 + c * 0x10000 + i * 0x400
/-- DMA_CMD (spec/08 R245). -/
abbrev DMA_CMD (c i : Nat) : Nat := 0xF0004001 + c * 0x10000 + i * 0x400
/-- DMA_HEAD_LO (spec/08 R245). -/
abbrev DMA_HEAD_LO (c i : Nat) : Nat := 0xF0004002 + c * 0x10000 + i * 0x400
/-- DMA_HEAD_HI (spec/08 R245). -/
abbrev DMA_HEAD_HI (c i : Nat) : Nat := 0xF0004003 + c * 0x10000 + i * 0x400
/-- DMA_STAT (spec/08 R243). -/
abbrev DMA_STAT (c i : Nat) : Nat := 0xF0004004 + c * 0x10000 + i * 0x400
/-- DMA_CUR_LO (spec/08 R243). -/
abbrev DMA_CUR_LO (c i : Nat) : Nat := 0xF0004006 + c * 0x10000 + i * 0x400
/-- DMA_CUR_HI (spec/08 R243). -/
abbrev DMA_CUR_HI (c i : Nat) : Nat := 0xF0004007 + c * 0x10000 + i * 0x400
/-- DMA_REMAIN_LO (spec/08 R243). -/
abbrev DMA_REMAIN_LO (c i : Nat) : Nat := 0xF0004008 + c * 0x10000 + i * 0x400
/-- DMA_REMAIN_HI (spec/08 R243). -/
abbrev DMA_REMAIN_HI (c i : Nat) : Nat := 0xF0004009 + c * 0x10000 + i * 0x400
/-- DMA_FAILADDR_LO (spec/08 R243). -/
abbrev DMA_FAILADDR_LO (c i : Nat) : Nat := 0xF000400A + c * 0x10000 + i * 0x400
/-- DMA_FAILADDR_HI (spec/08 R243). -/
abbrev DMA_FAILADDR_HI (c i : Nat) : Nat := 0xF000400B + c * 0x10000 + i * 0x400
/-- DMA_IRQ (spec/08 R244). -/
abbrev DMA_IRQ (c i : Nat) : Nat := 0xF000400C + c * 0x10000 + i * 0x400
/-- DMA_IE (spec/08 R244). -/
abbrev DMA_IE (c i : Nat) : Nat := 0xF000400D + c * 0x10000 + i * 0x400
/-- DMA_CHAINMAX (spec/08 R240). -/
abbrev DMA_CHAINMAX (c i : Nat) : Nat := 0xF000400E + c * 0x10000 + i * 0x400
/-- DMA_TIMEOUT (spec/08 R242). -/
abbrev DMA_TIMEOUT (c i : Nat) : Nat := 0xF000400F + c * 0x10000 + i * 0x400
/-- DMA_NDESC_LO (spec/08 R238). -/
abbrev DMA_NDESC_LO (c i : Nat) : Nat := 0xF0004010 + c * 0x10000 + i * 0x400
/-- DMA_NDESC_HI (spec/08 R238). -/
abbrev DMA_NDESC_HI (c i : Nat) : Nat := 0xF0004011 + c * 0x10000 + i * 0x400
/-- DMA_NAK (spec/08 R243). -/
abbrev DMA_NAK (c i : Nat) : Nat := 0xF0004012 + c * 0x10000 + i * 0x400
/-- DMA_WORDS_LO (spec/08 R245). -/
abbrev DMA_WORDS_LO (c i : Nat) : Nat := 0xF0004014 + c * 0x10000 + i * 0x400
/-- DMA_WORDS_HI (spec/08 R245). -/
abbrev DMA_WORDS_HI (c i : Nat) : Nat := 0xF0004015 + c * 0x10000 + i * 0x400
/-- HT_BASE_LO (spec/06 R178). -/
abbrev HT_BASE_LO (c i : Nat) : Nat := 0xF0005000 + c * 0x10000 + i * 0x10
/-- HT_BASE_HI (spec/06 R178). -/
abbrev HT_BASE_HI (c i : Nat) : Nat := 0xF0005001 + c * 0x10000 + i * 0x10
/-- HT_LEN_LO (spec/06 R178). -/
abbrev HT_LEN_LO (c i : Nat) : Nat := 0xF0005002 + c * 0x10000 + i * 0x10
/-- HT_LEN_HI (spec/06 R178). -/
abbrev HT_LEN_HI (c i : Nat) : Nat := 0xF0005003 + c * 0x10000 + i * 0x10
/-- HT_CTRL (spec/06 R178). -/
abbrev HT_CTRL (c i : Nat) : Nat := 0xF0005004 + c * 0x10000 + i * 0x10
/-- HT_LANE (spec/06 R178). -/
abbrev HT_LANE (c i : Nat) : Nat := 0xF0005005 + c * 0x10000 + i * 0x10
/-- HT_RWIN (spec/06 R178). -/
abbrev HT_RWIN (c i : Nat) : Nat := 0xF0005006 + c * 0x10000 + i * 0x10
/-- HT_RDEV (spec/06 R178). -/
abbrev HT_RDEV (c i : Nat) : Nat := 0xF0005007 + c * 0x10000 + i * 0x10
/-- HT_KEY_LO (spec/06 R178). -/
abbrev HT_KEY_LO (c i : Nat) : Nat := 0xF0005008 + c * 0x10000 + i * 0x10
/-- HT_KEY_HI (spec/06 R178). -/
abbrev HT_KEY_HI (c i : Nat) : Nat := 0xF0005009 + c * 0x10000 + i * 0x10
/-- MESH_PRIO (spec/09 R258). -/
abbrev MESH_PRIO (c : Nat) : Nat := 0xF0006000 + c * 0x10000
/-- MESH_ERR (spec/09 R255). -/
abbrev MESH_ERR (c : Nat) : Nat := 0xF0006001 + c * 0x10000
/-- MESH_BUSYn_LO (spec/09 R253). -/
abbrev MESH_BUSY_LO (c i : Nat) : Nat := 0xF0006010 + c * 0x10000 + i * 0x2
/-- MESH_BUSYn_HI (spec/09 R253). -/
abbrev MESH_BUSY_HI (c i : Nat) : Nat := 0xF0006011 + c * 0x10000 + i * 0x2
/-- SYN_CGMEMg (spec/09 R272). -/
abbrev SYN_CGMEM (c i : Nat) : Nat := 0xF0007000 + c * 0x10000 + i
/-- SYN_CGARRg (spec/09 R273). -/
abbrev SYN_CGARR (c i : Nat) : Nat := 0xF0007040 + c * 0x10000 + i
/-- LANE_CREW (spec/13 R378). -/
abbrev LANE_CREW (c : Nat) : Nat := 0xF0008000 + c * 0x10000
/-- LANE_CREW_STAT (spec/13 R373). -/
abbrev LANE_CREW_STAT (c : Nat) : Nat := 0xF0008001 + c * 0x10000
/-- LANE_CEVT (spec/13 R378). -/
abbrev LANE_CEVT (c : Nat) : Nat := 0xF0008002 + c * 0x10000
/-- PWR_CLK (spec/14 R397). -/
abbrev PWR_CLK (c : Nat) : Nat := 0xF0009000 + c * 0x10000
/-- PWR_CLKEFF (spec/14 R397). -/
abbrev PWR_CLKEFF (c : Nat) : Nat := 0xF0009001 + c * 0x10000
/-- PWR_VOUT (spec/14 R396). -/
abbrev PWR_VOUT (c : Nat) : Nat := 0xF0009002 + c * 0x10000
/-- PWR_CUR (spec/14 R398). -/
abbrev PWR_CUR (c : Nat) : Nat := 0xF0009003 + c * 0x10000
/-- PWR_BAL (spec/14 R406). -/
abbrev PWR_BAL (c : Nat) : Nat := 0xF0009004 + c * 0x10000
/-- PWR_CTRL (spec/14 R406). -/
abbrev PWR_CTRL (c : Nat) : Nat := 0xF0009005 + c * 0x10000
/-- PWR_ILIM (spec/14 R399). -/
abbrev PWR_ILIM (c : Nat) : Nat := 0xF0009006 + c * 0x10000
/-- PWR_TJ (spec/14 R400). -/
abbrev PWR_TJ (c : Nat) : Nat := 0xF0009007 + c * 0x10000
/-- COX_CREW_ID (spec/01 R27). -/
abbrev COX_CREW_ID (c : Nat) : Nat := 0xF000FFF0 + c * 0x10000
/-- COX_CREW_ATTACH (spec/01 R27). -/
abbrev COX_CREW_ATTACH (c : Nat) : Nat := 0xF000FFF1 + c * 0x10000
/-- STK_PERIOD_LO (spec/03 R68). -/
abbrev STK_PERIOD_LO : Nat := 0xF0600000
/-- STK_PERIOD_HI (spec/03 R68). -/
abbrev STK_PERIOD_HI : Nat := 0xF0600001
/-- STK_RECOV_LO (spec/03 R68). -/
abbrev STK_RECOV_LO : Nat := 0xF0600002
/-- STK_RECOV_HI (spec/03 R68). -/
abbrev STK_RECOV_HI : Nat := 0xF0600003
/-- STK_CATCH (spec/03 R68). -/
abbrev STK_CATCH : Nat := 0xF0600004
/-- STK_HOLDMAX_LO (spec/03 R68). -/
abbrev STK_HOLDMAX_LO : Nat := 0xF0600006
/-- STK_HOLDMAX_HI (spec/03 R68). -/
abbrev STK_HOLDMAX_HI : Nat := 0xF0600007
/-- STK_CTRL (spec/03 R73). -/
abbrev STK_CTRL : Nat := 0xF0600008
/-- STK_CMD (spec/03 R72). -/
abbrev STK_CMD : Nat := 0xF0600009
/-- STK_STAT (spec/03 R73). -/
abbrev STK_STAT : Nat := 0xF060000A
/-- STK_EVT (spec/03 R86). -/
abbrev STK_EVT : Nat := 0xF060000B
/-- STK_MASTER (spec/03 R84). -/
abbrev STK_MASTER : Nat := 0xF060000C
/-- STK_OFFSET (spec/03 R77). -/
abbrev STK_OFFSET : Nat := 0xF060000D
/-- STK_LOSSTO (spec/03 R86). -/
abbrev STK_LOSSTO : Nat := 0xF060000E
/-- STK_EFF_PERIOD_LO (spec/03 R70). -/
abbrev STK_EFF_PERIOD_LO : Nat := 0xF0600010
/-- STK_EFF_PERIOD_HI (spec/03 R70). -/
abbrev STK_EFF_PERIOD_HI : Nat := 0xF0600011
/-- STK_EFF_RECOV_LO (spec/03 R70). -/
abbrev STK_EFF_RECOV_LO : Nat := 0xF0600012
/-- STK_EFF_RECOV_HI (spec/03 R70). -/
abbrev STK_EFF_RECOV_HI : Nat := 0xF0600013
/-- STK_EFF_CATCH (spec/03 R70). -/
abbrev STK_EFF_CATCH : Nat := 0xF0600014
/-- STK_EFF_HOLDMAX_LO (spec/03 R70). -/
abbrev STK_EFF_HOLDMAX_LO : Nat := 0xF0600016
/-- STK_EFF_HOLDMAX_HI (spec/03 R70). -/
abbrev STK_EFF_HOLDMAX_HI : Nat := 0xF0600017
/-- STK_COUNT (spec/03 R66). -/
abbrev STK_COUNT (i : Nat) : Nat := 0xF0600020 + i
/-- STK_CATCHTIME (spec/03 R66). -/
abbrev STK_CATCHTIME (i : Nat) : Nat := 0xF0600024 + i
/-- STK_TIME (spec/03 R66). -/
abbrev STK_TIME (i : Nat) : Nat := 0xF0600030 + i
/-- MESH_STARVE (spec/09 R261). -/
abbrev MESH_STARVE : Nat := 0xF0601000
/-- SYN_CGCTRLg (spec/09 R272). -/
abbrev SYN_CGCTRL (i : Nat) : Nat := 0xF0602000 + i
/-- SYN_CGSTATg (spec/09 R273). -/
abbrev SYN_CGSTAT (i : Nat) : Nat := 0xF0602040 + i
/-- SYN_CALLCFGc (spec/09 R278). -/
abbrev SYN_CALLCFG (i : Nat) : Nat := 0xF0602100 + i
/-- SYN_CALLVALk (spec/09 R281). -/
abbrev SYN_CALLVAL (i : Nat) : Nat := 0xF0602200 + i
/-- SYN_CALLSETk (spec/09 R279). -/
abbrev SYN_CALLSET (i : Nat) : Nat := 0xF0602210 + i
/-- SYN_CALLCLRk (spec/09 R279). -/
abbrev SYN_CALLCLR (i : Nat) : Nat := 0xF0602220 + i
/-- SYN_ERR (spec/09 R284). -/
abbrev SYN_ERR : Nat := 0xF0602230
/-- GW_CTRL (spec/10 R305). -/
abbrev GW_CTRL (i : Nat) : Nat := 0xF0603000 + i * 0x100
/-- GW_CMD (spec/10 R303). -/
abbrev GW_CMD (i : Nat) : Nat := 0xF0603001 + i * 0x100
/-- GW_STAT (spec/10 R305). -/
abbrev GW_STAT (i : Nat) : Nat := 0xF0603002 + i * 0x100
/-- GW_EVT (spec/10 R303). -/
abbrev GW_EVT (i : Nat) : Nat := 0xF0603003 + i * 0x100
/-- GW_IE (spec/10 R303). -/
abbrev GW_IE (i : Nat) : Nat := 0xF0603004 + i * 0x100
/-- GW_NBR (spec/10 R307). -/
abbrev GW_NBR (i : Nat) : Nat := 0xF0603005 + i * 0x100
/-- GW_RTT (spec/10 R312). -/
abbrev GW_RTT (i : Nat) : Nat := 0xF0603006 + i * 0x100
/-- GW_TEST (spec/10 R305). -/
abbrev GW_TEST (i : Nat) : Nat := 0xF0603007 + i * 0x100
/-- GW_CAUSE (spec/10 R303). -/
abbrev GW_CAUSE (i : Nat) : Nat := 0xF0603008 + i * 0x100
/-- GW_CRCERR (spec/10 R295). -/
abbrev GW_CRCERR (i : Nat) : Nat := 0xF0603010 + i * 0x100
/-- GW_REPLAY (spec/10 R301). -/
abbrev GW_REPLAY (i : Nat) : Nat := 0xF0603011 + i * 0x100
/-- GW_FECUNC (spec/10 R295). -/
abbrev GW_FECUNC (i : Nat) : Nat := 0xF0603012 + i * 0x100
/-- GW_SYNCLOST (spec/10 R310). -/
abbrev GW_SYNCLOST (i : Nat) : Nat := 0xF0603013 + i * 0x100
/-- GW_LOST (spec/10 R304). -/
abbrev GW_LOST (i : Nat) : Nat := 0xF0603014 + i * 0x100
/-- GW_HOPDROP (spec/10 R319). -/
abbrev GW_HOPDROP (i : Nat) : Nat := 0xF0603015 + i * 0x100
/-- GW_LANECEl (spec/10 R289). -/
abbrev GW_LANECE (i j : Nat) : Nat := 0xF0603018 + i * 0x100 + j
/-- RMA_CTRL (spec/11 R350). -/
abbrev RMA_CTRL : Nat := 0xF0605000
/-- RMA_TIMEOUT (spec/11 R345). -/
abbrev RMA_TIMEOUT : Nat := 0xF0605001
/-- RMA_TMOEFF (spec/11 R345). -/
abbrev RMA_TMOEFF : Nat := 0xF0605002
/-- RMA_WASHTHR (spec/11 R349). -/
abbrev RMA_WASHTHR : Nat := 0xF0605003
/-- RMA_RATEMIN (spec/11 R350). -/
abbrev RMA_RATEMIN : Nat := 0xF0605004
/-- RMA_INC (spec/11 R350). -/
abbrev RMA_INC : Nat := 0xF0605005
/-- RMA_BURST (spec/11 R350). -/
abbrev RMA_BURST : Nat := 0xF0605006
/-- RMA_EVT (spec/11 R329). -/
abbrev RMA_EVT : Nat := 0xF0605008
/-- RMA_FCOX (spec/12 R361). -/
abbrev RMA_FCOX : Nat := 0xF0605009
/-- RMA_NAKTXc (spec/11 R335). -/
abbrev RMA_NAKTX (i : Nat) : Nat := 0xF0605011 + i
/-- RMA_STALE (spec/11 R343). -/
abbrev RMA_STALE : Nat := 0xF0605020
/-- RMA_DUP (spec/11 R342). -/
abbrev RMA_DUP : Nat := 0xF0605021
/-- RMA_RETX (spec/11 R347). -/
abbrev RMA_RETX : Nat := 0xF0605022
/-- RMA_GAP (spec/11 R342). -/
abbrev RMA_GAP : Nat := 0xF0605023
/-- RMA_SEQRST (spec/11 R344). -/
abbrev RMA_SEQRST : Nat := 0xF0605024
/-- RMA_EVDROP (spec/11 R337). -/
abbrev RMA_EVDROP : Nat := 0xF0605025
/-- RMA_BADPKT (spec/11 R333). -/
abbrev RMA_BADPKT : Nat := 0xF0605026
/-- RMA_FAILED (spec/11 R347). -/
abbrev RMA_FAILED : Nat := 0xF0605027
/-- RMA_AGEDROP (spec/12 R368). -/
abbrev RMA_AGEDROP : Nat := 0xF0605028
/-- RMA_HAILSTc (spec/11 R348). -/
abbrev RMA_HAILST (i : Nat) : Nat := 0xF0605100 + i
/-- RMA_RATEd (spec/11 R350). -/
abbrev RMA_RATE (i : Nat) : Nat := 0xF0605400 + i
/-- LANE_SLOT_ID (spec/13 R375). -/
abbrev LANE_SLOT_ID (i : Nat) : Nat := 0xF0606000 + i * 0x10
/-- LANE_SLOT_CTRL (spec/13 R382). -/
abbrev LANE_SLOT_CTRL (i : Nat) : Nat := 0xF0606001 + i * 0x10
/-- LANE_SLOT_CMD (spec/13 R379). -/
abbrev LANE_SLOT_CMD (i : Nat) : Nat := 0xF0606002 + i * 0x10
/-- LANE_SLOT_STAT (spec/13 R375). -/
abbrev LANE_SLOT_STAT (i : Nat) : Nat := 0xF0606003 + i * 0x10
/-- LANE_SLOT_EVT (spec/13 R375). -/
abbrev LANE_SLOT_EVT (i : Nat) : Nat := 0xF0606004 + i * 0x10
/-- LANE_SLOT_KTIME_LO (spec/13 R387). -/
abbrev LANE_SLOT_KTIME_LO (i : Nat) : Nat := 0xF0606006 + i * 0x10
/-- LANE_SLOT_KTIME_HI (spec/13 R387). -/
abbrev LANE_SLOT_KTIME_HI (i : Nat) : Nat := 0xF0606007 + i * 0x10
/-- LANE_SLOT_CREWSk (spec/13 R375). -/
abbrev LANE_SLOT_CREWS (i j : Nat) : Nat := 0xF0606008 + i * 0x10 + j
/-- LANE_KILL (spec/13 R383). -/
abbrev LANE_KILL : Nat := 0xF0606100
/-- LANE_EVTSUM (spec/13 R375). -/
abbrev LANE_EVTSUM : Nat := 0xF0606101
/-- PWR_VIN (spec/14 R398). -/
abbrev PWR_VIN : Nat := 0xF0607000
/-- PWR_IIN (spec/14 R398). -/
abbrev PWR_IIN : Nat := 0xF0607001
/-- PWR_PIN_LO (spec/14 R398). -/
abbrev PWR_PIN_LO : Nat := 0xF0607002
/-- PWR_PIN_HI (spec/14 R398). -/
abbrev PWR_PIN_HI : Nat := 0xF0607003
/-- PWR_DOMCURd (spec/14 R398). -/
abbrev PWR_DOMCUR (i : Nat) : Nat := 0xF0607004 + i
/-- PWR_AUXP (spec/14 R398). -/
abbrev PWR_AUXP : Nat := 0xF0607008
/-- PWR_RPTSTK (spec/14 R398). -/
abbrev PWR_RPTSTK (i : Nat) : Nat := 0xF060700C + i
/-- PWR_PLIM (spec/14 R399). -/
abbrev PWR_PLIM : Nat := 0xF0607010
/-- PWR_FLT (spec/14 R411). -/
abbrev PWR_FLT : Nat := 0xF0607011
/-- PWR_CAUSE (spec/14 R411). -/
abbrev PWR_CAUSE : Nat := 0xF0607012
/-- PWR_CMD (spec/14 R411). -/
abbrev PWR_CMD : Nat := 0xF0607015
/-- PWR_PSTEP_LO (spec/14 R411). -/
abbrev PWR_PSTEP_LO : Nat := 0xF0607016
/-- PWR_PSTEP_HI (spec/14 R411). -/
abbrev PWR_PSTEP_HI : Nat := 0xF0607017
/-- PACE_CTRL (spec/14 R401). -/
abbrev PACE_CTRL : Nat := 0xF0608000
/-- PACE_CMD (spec/14 R402). -/
abbrev PACE_CMD : Nat := 0xF0608001
/-- PACE_TARGET_LO (spec/14 R402). -/
abbrev PACE_TARGET_LO : Nat := 0xF0608002
/-- PACE_TARGET_HI (spec/14 R402). -/
abbrev PACE_TARGET_HI : Nat := 0xF0608003
/-- PACE_FLOOR_LO (spec/14 R402). -/
abbrev PACE_FLOOR_LO : Nat := 0xF0608004
/-- PACE_FLOOR_HI (spec/14 R402). -/
abbrev PACE_FLOOR_HI : Nat := 0xF0608005
/-- PACE_SLEW_UP (spec/14 R402). -/
abbrev PACE_SLEW_UP : Nat := 0xF0608006
/-- PACE_SLEW_DOWN (spec/14 R402). -/
abbrev PACE_SLEW_DOWN : Nat := 0xF0608007
/-- PACE_BAND (spec/14 R402). -/
abbrev PACE_BAND : Nat := 0xF0608008
/-- PACE_STAGGER (spec/14 R402). -/
abbrev PACE_STAGGER : Nat := 0xF0608009
/-- PACE_SENSCAP (spec/14 R402). -/
abbrev PACE_SENSCAP : Nat := 0xF060800A
/-- PACE_SENS (spec/14 R409). -/
abbrev PACE_SENS : Nat := 0xF060800B
/-- PACE_WDOG (spec/14 R410). -/
abbrev PACE_WDOG : Nat := 0xF060800C
/-- PACE_STAT (spec/14 R401). -/
abbrev PACE_STAT : Nat := 0xF0608010
/-- PACE_EVT (spec/14 R402). -/
abbrev PACE_EVT : Nat := 0xF0608011
/-- PACE_TRAJ_LO (spec/14 R401). -/
abbrev PACE_TRAJ_LO : Nat := 0xF0608012
/-- PACE_TRAJ_HI (spec/14 R401). -/
abbrev PACE_TRAJ_HI : Nat := 0xF0608013
/-- PACE_ATARGET_LO (spec/14 R401). -/
abbrev PACE_ATARGET_LO : Nat := 0xF0608014
/-- PACE_ATARGET_HI (spec/14 R401). -/
abbrev PACE_ATARGET_HI : Nat := 0xF0608015
/-- PACE_DEMAND_LO (spec/14 R403). -/
abbrev PACE_DEMAND_LO : Nat := 0xF0608016
/-- PACE_DEMAND_HI (spec/14 R403). -/
abbrev PACE_DEMAND_HI : Nat := 0xF0608017
/-- PACE_BALLAST_LO (spec/14 R403). -/
abbrev PACE_BALLAST_LO : Nat := 0xF0608018
/-- PACE_BALLAST_HI (spec/14 R403). -/
abbrev PACE_BALLAST_HI : Nat := 0xF0608019
/-- PACE_BALCAP_LO (spec/14 R403). -/
abbrev PACE_BALCAP_LO : Nat := 0xF060801A
/-- PACE_BALCAP_HI (spec/14 R403). -/
abbrev PACE_BALCAP_HI : Nat := 0xF060801B
/-- HST_ACCERR_STAT (spec/02 R50). -/
abbrev HST_ACCERR_STAT : Nat := 0xF0609000
/-- HST_ACCERR_INFO (spec/02 R50). -/
abbrev HST_ACCERR_INFO : Nat := 0xF0609001
/-- HST_ACCERR_ADDR_LO (spec/02 R50). -/
abbrev HST_ACCERR_ADDR_LO : Nat := 0xF0609002
/-- HST_ACCERR_ADDR_HI (spec/02 R50). -/
abbrev HST_ACCERR_ADDR_HI : Nat := 0xF0609003
/-- HST_FLT_STAT (spec/12 R358). -/
abbrev HST_FLT_STAT : Nat := 0xF0609100
/-- HST_FLT_HIE (spec/12 R359). -/
abbrev HST_FLT_HIE : Nat := 0xF0609101
/-- HST_FLT_BIE (spec/12 R360). -/
abbrev HST_FLT_BIE : Nat := 0xF0609102
/-- HST_FLT_CMD (spec/12 R359). -/
abbrev HST_FLT_CMD : Nat := 0xF0609103
/-- HST_FLT_CREWk (spec/12 R358). -/
abbrev HST_FLT_CREW (i : Nat) : Nat := 0xF0609108 + i
/-- HST_BOOTSTAT (spec/17 R488). -/
abbrev HST_BOOTSTAT : Nat := 0xF0609200
/-- HST_DEVRST (spec/17 R465). -/
abbrev HST_DEVRST : Nat := 0xF0609202
/-- HST_IRQ_SEND (spec/17 R483). -/
abbrev HST_IRQ_SEND : Nat := 0xF0609203
/-- HST_LINK (spec/17 R483). -/
abbrev HST_LINK : Nat := 0xF0609204
/-- HDMA_HEAD (spec/17 R485). -/
abbrev HDMA_HEAD (i : Nat) : Nat := 0xF0609210 + i
/-- HDMA_CMD (spec/17 R485). -/
abbrev HDMA_CMD : Nat := 0xF0609214
/-- HDMA_STAT (spec/17 R486). -/
abbrev HDMA_STAT : Nat := 0xF0609215
/-- HDMA_DONE_LO (spec/17 R485). -/
abbrev HDMA_DONE_LO : Nat := 0xF0609216
/-- HDMA_DONE_HI (spec/17 R485). -/
abbrev HDMA_DONE_HI : Nat := 0xF0609217
/-- HDMA_CUR (spec/17 R485). -/
abbrev HDMA_CUR (i : Nat) : Nat := 0xF0609218 + i
/-- FEATn (spec/04 R107). -/
abbrev FEAT (i : Nat) : Nat := 0xF060FFF8 + i
/-- BH_IE_LO (spec/15 R418). -/
abbrev BH_IE_LO : Nat := 0xF0700000
/-- BH_IE_HI (spec/15 R418). -/
abbrev BH_IE_HI : Nat := 0xF0700001
/-- BH_IP_LO (spec/15 R418). -/
abbrev BH_IP_LO : Nat := 0xF0700002
/-- BH_IP_HI (spec/15 R418). -/
abbrev BH_IP_HI : Nat := 0xF0700003
/-- BH_CMD (spec/15 R419). -/
abbrev BH_CMD : Nat := 0xF0700004
/-- BH_WDOG (spec/15 R420). -/
abbrev BH_WDOG : Nat := 0xF0700005
/-- BH_RSTCAUSE (spec/15 R419). -/
abbrev BH_RSTCAUSE : Nat := 0xF0700006
/-- BH_BOOT (spec/15 R425). -/
abbrev BH_BOOT : Nat := 0xF0700007
/-- BH_CLK (spec/15 R421). -/
abbrev BH_CLK : Nat := 0xF0700008
/-- BH_EVT (spec/15 R422). -/
abbrev BH_EVT : Nat := 0xF0700009
/-- BH_MEMERR (spec/15 R417). -/
abbrev BH_MEMERR : Nat := 0xF070000A
/-- BH_TIMESET (spec/15 R422). -/
abbrev BH_TIMESET (i : Nat) : Nat := 0xF070000C + i
/-- BH_TMR_PERIOD_LO (spec/15 R418). -/
abbrev BH_TMR_PERIOD_LO : Nat := 0xF0700010
/-- BH_TMR_PERIOD_HI (spec/15 R418). -/
abbrev BH_TMR_PERIOD_HI : Nat := 0xF0700011
/-- BH_TMR_CTRL (spec/15 R418). -/
abbrev BH_TMR_CTRL : Nat := 0xF0700012
/-- BH_DBELL_SET (spec/15 R418). -/
abbrev BH_DBELL_SET : Nat := 0xF0700014
/-- BH_DBELL_STAT (spec/15 R418). -/
abbrev BH_DBELL_STAT : Nat := 0xF0700015
/-- BH_PROT_EN (spec/15 R445). -/
abbrev BH_PROT_EN : Nat := 0xF0700020
/-- BH_PROT_TMAX (spec/15 R445). -/
abbrev BH_PROT_TMAX : Nat := 0xF0700021
/-- BH_PROT_TACH (spec/15 R445). -/
abbrev BH_PROT_TACH : Nat := 0xF0700022
/-- BH_PROT_LL (spec/15 R445). -/
abbrev BH_PROT_LL : Nat := 0xF0700023
/-- BH_PROT_CAUSE (spec/15 R445). -/
abbrev BH_PROT_CAUSE : Nat := 0xF0700024
/-- BH_FAC_EID (spec/15 R431). -/
abbrev BH_FAC_EID : Nat := 0xF0700030
/-- BH_COMMIT_STAT (spec/15 R432). -/
abbrev BH_COMMIT_STAT : Nat := 0xF0700031
/-- BH_COMMIT_ID_LO (spec/15 R431). -/
abbrev BH_COMMIT_ID_LO : Nat := 0xF0700032
/-- BH_COMMIT_ID_HI (spec/15 R431). -/
abbrev BH_COMMIT_ID_HI : Nat := 0xF0700033
/-- BH_PROP_ID_LO (spec/15 R431). -/
abbrev BH_PROP_ID_LO : Nat := 0xF0700034
/-- BH_PROP_ID_HI (spec/15 R431). -/
abbrev BH_PROP_ID_HI : Nat := 0xF0700035
/-- BH_JTAG (spec/15 R446). -/
abbrev BH_JTAG : Nat := 0xF0700040
/-- BH_FL_CMD (spec/15 R426). -/
abbrev BH_FL_CMD : Nat := 0xF0700100
/-- BH_FL_STAT (spec/15 R426). -/
abbrev BH_FL_STAT : Nat := 0xF0700101
/-- BH_FL_ADDR_LO (spec/15 R426). -/
abbrev BH_FL_ADDR_LO : Nat := 0xF0700102
/-- BH_FL_ADDR_HI (spec/15 R426). -/
abbrev BH_FL_ADDR_HI : Nat := 0xF0700103
/-- BH_FL_LOCK (spec/15 R426). -/
abbrev BH_FL_LOCK : Nat := 0xF0700104
/-- BH_FL_BUF (spec/15 R426). -/
abbrev BH_FL_BUF (i : Nat) : Nat := 0xF0700180 + i
/-- BH_I3Cn_CTRL (spec/15 R427). -/
abbrev BH_I3C_CTRL (i : Nat) : Nat := 0xF0700200 + i * 0x80
/-- BH_I3Cn_STAT (spec/15 R427). -/
abbrev BH_I3C_STAT (i : Nat) : Nat := 0xF0700201 + i * 0x80
/-- BH_I3Cn_TOUT (spec/15 R427). -/
abbrev BH_I3C_TOUT (i : Nat) : Nat := 0xF0700202 + i * 0x80
/-- BH_I3Cn_EVT (spec/15 R427). -/
abbrev BH_I3C_EVT (i : Nat) : Nat := 0xF0700203 + i * 0x80
/-- BH_I3Cn_TXF (spec/15 R427). -/
abbrev BH_I3C_TXF (i : Nat) : Nat := 0xF0700204 + i * 0x80
/-- BH_I3Cn_RXF (spec/15 R427). -/
abbrev BH_I3C_RXF (i : Nat) : Nat := 0xF0700205 + i * 0x80
/-- BH_UARTn_CTRL (spec/15 R433). -/
abbrev BH_UART_CTRL (i : Nat) : Nat := 0xF0700300 + i * 0x40
/-- BH_UARTn_DIV (spec/15 R433). -/
abbrev BH_UART_DIV (i : Nat) : Nat := 0xF0700301 + i * 0x40
/-- BH_UARTn_DATA (spec/15 R433). -/
abbrev BH_UART_DATA (i : Nat) : Nat := 0xF0700302 + i * 0x40
/-- BH_UARTn_STAT (spec/15 R433). -/
abbrev BH_UART_STAT (i : Nat) : Nat := 0xF0700303 + i * 0x40
/-- BH_SPI_CTRL (spec/15 R434). -/
abbrev BH_SPI_CTRL : Nat := 0xF0700380
/-- BH_SPI_DATA (spec/15 R434). -/
abbrev BH_SPI_DATA : Nat := 0xF0700381
/-- BH_SPI_STAT (spec/15 R434). -/
abbrev BH_SPI_STAT : Nat := 0xF0700382
/-- BH_TACHn_CFG (spec/15 R435). -/
abbrev BH_TACH_CFG (i : Nat) : Nat := 0xF0700400 + i * 0x4
/-- BH_TACHn_RPM (spec/15 R435). -/
abbrev BH_TACH_RPM (i : Nat) : Nat := 0xF0700401 + i * 0x4
/-- BH_TACHn_STAT (spec/15 R435). -/
abbrev BH_TACH_STAT (i : Nat) : Nat := 0xF0700402 + i * 0x4
/-- BH_PWMn_PERIOD (spec/15 R436). -/
abbrev BH_PWM_PERIOD (i : Nat) : Nat := 0xF0700410 + i * 0x4
/-- BH_PWMn_DUTY (spec/15 R436). -/
abbrev BH_PWM_DUTY (i : Nat) : Nat := 0xF0700411 + i * 0x4
/-- LL_CTRL (spec/16 R462). -/
abbrev LL_CTRL : Nat := 0xF0701000
/-- LL_STAT (spec/16 R462). -/
abbrev LL_STAT : Nat := 0xF0701001
/-- LL_EVT (spec/16 R459). -/
abbrev LL_EVT : Nat := 0xF0701002
/-- LL_IE (spec/16 R458). -/
abbrev LL_IE : Nat := 0xF0701003
/-- LL_S0_THR (spec/16 R452). -/
abbrev LL_S0_THR : Nat := 0xF0701004
/-- LL_S0_CFG (spec/16 R452). -/
abbrev LL_S0_CFG : Nat := 0xF0701005
/-- LL_S1_CFG (spec/16 R454). -/
abbrev LL_S1_CFG : Nat := 0xF0701006
/-- LL_IDLE (spec/16 R456). -/
abbrev LL_IDLE : Nat := 0xF0701007
/-- LL_NOTCH (spec/16 R460). -/
abbrev LL_NOTCH : Nat := 0xF0701008
/-- LL_S3_THR (spec/16 R458). -/
abbrev LL_S3_THR : Nat := 0xF0701009
/-- LL_LASTTIME (spec/16 R459). -/
abbrev LL_LASTTIME (i : Nat) : Nat := 0xF070100C + i
/-- LL_LAST (spec/16 R459). -/
abbrev LL_LAST : Nat := 0xF0701010
/-- LL_COUNTc (spec/16 R459). -/
abbrev LL_COUNT (i : Nat) : Nat := 0xF0701011 + i
/-- LL_FLOORs (spec/16 R452). -/
abbrev LL_FLOOR (i : Nat) : Nat := 0xF0701018 + i
/-- LL_BANDb (spec/16 R453). -/
abbrev LL_BAND (i : Nat) : Nat := 0xF0701020 + i
/-- LL_BASEb (spec/16 R453). -/
abbrev LL_BASE (i : Nat) : Nat := 0xF0701030 + i
/-- LL_SCOREc (spec/16 R453). -/
abbrev LL_SCORE (i : Nat) : Nat := 0xF0701040 + i
/-- LL_LAGp (spec/16 R456). -/
abbrev LL_LAG (i : Nat) : Nat := 0xF0701048 + i
/-- LL_LOC (spec/16 R456). -/
abbrev LL_LOC : Nat := 0xF070104E
/-- LL_LOCQ (spec/16 R456). -/
abbrev LL_LOCQ : Nat := 0xF070104F
/-- LL_VERDICT (spec/16 R458). -/
abbrev LL_VERDICT : Nat := 0xF0701050
/-- LL_TPLCFGc (spec/16 R455). -/
abbrev LL_TPLCFG (i : Nat) : Nat := 0xF0701060 + i
/-- LL_TPLc_b (spec/16 R451). -/
abbrev LL_TPL (i j : Nat) : Nat := 0xF0701100 + i * 0x10 + j
/-- MIO_FSELn (spec/15 R437). -/
abbrev MIO_FSEL (i : Nat) : Nat := 0xF0702000 + i
/-- MIO_OUT_LO (spec/15 R437). -/
abbrev MIO_OUT_LO : Nat := 0xF0702020
/-- MIO_OUT_HI (spec/15 R437). -/
abbrev MIO_OUT_HI : Nat := 0xF0702021
/-- MIO_OE_LO (spec/15 R437). -/
abbrev MIO_OE_LO : Nat := 0xF0702022
/-- MIO_OE_HI (spec/15 R437). -/
abbrev MIO_OE_HI : Nat := 0xF0702023
/-- MIO_IN_LO (spec/15 R437). -/
abbrev MIO_IN_LO : Nat := 0xF0702024
/-- MIO_IN_HI (spec/15 R437). -/
abbrev MIO_IN_HI : Nat := 0xF0702025
/-- MIO_EVT (spec/15 R439). -/
abbrev MIO_EVT : Nat := 0xF0702026
/-- AIN_CFGn (spec/15 R441). -/
abbrev AIN_CFG (i : Nat) : Nat := 0xF0703000 + i * 0x10
/-- AIN_RREFn (spec/15 R442). -/
abbrev AIN_RREF (i : Nat) : Nat := 0xF0703001 + i * 0x10
/-- AIN_RNOMn (spec/15 R442). -/
abbrev AIN_RNOM (i : Nat) : Nat := 0xF0703002 + i * 0x10
/-- AIN_BETAn (spec/15 R442). -/
abbrev AIN_BETA (i : Nat) : Nat := 0xF0703003 + i * 0x10
/-- AIN_OFFSn (spec/15 R442). -/
abbrev AIN_OFFS (i : Nat) : Nat := 0xF0703004 + i * 0x10
/-- AIN_RESn_LO (spec/15 R442). -/
abbrev AIN_RES_LO (i : Nat) : Nat := 0xF0703006 + i * 0x10
/-- AIN_RESn_HI (spec/15 R442). -/
abbrev AIN_RES_HI (i : Nat) : Nat := 0xF0703007 + i * 0x10
/-- AIN_TEMPn (spec/15 R442). -/
abbrev AIN_TEMP (i : Nat) : Nat := 0xF0703008 + i * 0x10
/-- AIN_CSTATn (spec/15 R444). -/
abbrev AIN_CSTAT (i : Nat) : Nat := 0xF0703009 + i * 0x10
/-- AIN_OPEN (spec/15 R444). -/
abbrev AIN_OPEN : Nat := 0xF0703080
/-- AIN_SHORT (spec/15 R444). -/
abbrev AIN_SHORT : Nat := 0xF0703081
/-- AIN_DONE (spec/15 R441). -/
abbrev AIN_DONE : Nat := 0xF0703082
/-- WIN_BASE_LO (spec/11 R328). -/
abbrev WIN_BASE_LO (i : Nat) : Nat := 0xF1000000 + i * 0x10
/-- WIN_BASE_HI (spec/11 R328). -/
abbrev WIN_BASE_HI (i : Nat) : Nat := 0xF1000001 + i * 0x10
/-- WIN_LEN_LO (spec/11 R328). -/
abbrev WIN_LEN_LO (i : Nat) : Nat := 0xF1000002 + i * 0x10
/-- WIN_LEN_HI (spec/11 R328). -/
abbrev WIN_LEN_HI (i : Nat) : Nat := 0xF1000003 + i * 0x10
/-- WIN_CTRL (spec/11 R328). -/
abbrev WIN_CTRL (i : Nat) : Nat := 0xF1000004 + i * 0x10
/-- WIN_LANE (spec/11 R328). -/
abbrev WIN_LANE (i : Nat) : Nat := 0xF1000005 + i * 0x10
/-- WIN_HCREW (spec/11 R328). -/
abbrev WIN_HCREW (i : Nat) : Nat := 0xF1000006 + i * 0x10
/-- WIN_KEY_LO (spec/11 R328). -/
abbrev WIN_KEY_LO (i : Nat) : Nat := 0xF1000008 + i * 0x10
/-- WIN_KEY_HI (spec/11 R328). -/
abbrev WIN_KEY_HI (i : Nat) : Nat := 0xF1000009 + i * 0x10
/-- WIN_NAKS (spec/11 R328). -/
abbrev WIN_NAKS (i : Nat) : Nat := 0xF100000A + i * 0x10
/-- RT_W0 (spec/10 R318). -/
abbrev RT_W0 (i : Nat) : Nat := 0xF1400000 + i * 0x2
/-- RT_W1 (spec/10 R318). -/
abbrev RT_W1 (i : Nat) : Nat := 0xF1400001 + i * 0x2
/-- GW_DEVID (spec/10 R308). -/
abbrev GW_DEVID : Nat := 0xF1400200
/-- GW_SYSID (spec/10 R308). -/
abbrev GW_SYSID : Nat := 0xF1400201
/-- GW_FEVT (spec/10 R320). -/
abbrev GW_FEVT : Nat := 0xF1400202
/-- GW_NOROUTE (spec/10 R320). -/
abbrev GW_NOROUTE : Nat := 0xF1400203
/-- GW_CALLDISC (spec/10 R311). -/
abbrev GW_CALLDISC : Nat := 0xF1400204
/-- LANE_TABLE_W0 (spec/13 R377). -/
abbrev LANE_TABLE_W0 (i : Nat) : Nat := 0xF1800000 + i * 0x2
/-- LANE_TABLE_KILLS (spec/13 R377). -/
abbrev LANE_TABLE_KILLS (i : Nat) : Nat := 0xF1800001 + i * 0x2

end R

end Sys2Proof.Machine
end

