-- ==== Sys2Proof/Machine/State.lean ====
section
/-! DEFINITION. The state of the block: every register word of the register map, and the state the rules give it beside
the registers, as plain data; the reasons a step can stop; and the state at reset (VBH power-on, spec/17 R470). -/
namespace Sys2Proof.Machine

/-- Reasons for a fault. No rule of the specification stops the device at a command, so no command raises one: the
constructor stands so that the type is closed and not empty. Safe: it is never raised. -/
inductive Fault where
  /-- Never raised. Safe. -/
  | none
  deriving DecidableEq, Repr

/-- Reasons for a refusal. -/
inductive Refusal where
  /-- Raised by the dispatch arm of a command that has no meaning yet. Safe: the machine stops where the device goes on. -/
  | notModelled (mnemonic : String)
  deriving DecidableEq, Repr

/-! ## Cores (spec/04, spec/05) -/

/-- What a core is doing (R205, R218; a control core or the boathouse core is `reset` while held). -/
inductive CoreMode where
  | idle | running | stopped | reset
  deriving DecidableEq, Repr

/-- A block-repeat instruction under way (R121). -/
inductive Rep where
  | mov | movD | set (v : Word) | cmp | scan (v : Word) | scanNe (v : Word)
  deriving DecidableEq, Repr

/-- A hail at the crew's hail port (R115): the words of its handle entry at issue, its offset, data, counter, event
flag, lane and source queue; and, for the hail of a HAIL descriptor (R227), the engine, the number of its request and
whether it is VERIFIED. -/
structure Hail where
  crew   : Nat
  handle : Nat
  dev    : Nat
  win    : Nat
  key    : BitVec 32
  off    : Addr
  data   : List Word
  cnt    : Nat
  event  : Bool
  lane   : Nat
  sq     : Nat
  engine : Option (Nat × Nat × Bool)
  deriving DecidableEq, Repr

/-- What a core waits for, its instruction not complete (R114, R115, R273, R275, R281, R286). -/
inductive Wait where
  | csync
  | wfi
  | cga (g : Nat)
  | cgw (g : Nat)
  | clw (n : Nat)
  | callOp (n : Nat) (set : Bool)
  | hail (h : Hail)
  | rep (r : Rep)
  | tend
  deriving DecidableEq, Repr

/-- Why a seat stops (R130): cause, imprecise flag, EPC and EVAL to be written. -/
structure Stop where
  code : Nat
  imp  : Bool
  epc  : Addr
  eval : Addr
  deriving DecidableEq, Repr

/-- The destination of an outstanding load (R112). -/
inductive LoadDst where
  | w (r : Fin 16)
  | a (r : Fin 8)
  deriving DecidableEq, Repr

/-- One access of a core waiting for a line (R187), in program order: a load (offset in the block) or a stored word. -/
inductive MissOp where
  | load (dst : LoadDst) (off : Nat)
  | store (off : Nat) (v : Word)
  deriving DecidableEq, Repr

/-- An outstanding L1 data cache miss (R112): the tag of the block, what waits for it, and the line if the crew cache held it
(R191). -/
structure Miss where
  block : Nat
  ops   : List MissOp
  data  : Option (List Word)
  deriving DecidableEq, Repr

/-- Data on its way to a register (R112). -/
structure Returned where
  dst   : LoadDst
  value : BitVec 32
  deriving DecidableEq, Repr

/-- A valid L1 data cache line (R184, R187): its block (address div 32, own aliases in global form, window space as
addressed), 32 words, the dirty mask (zero: CLEAN), and the words whose parity is wrong (R177). -/
structure Line where
  block : Nat
  words : List Word
  dirty : BitVec 32
  bad   : BitVec 32
  deriving DecidableEq, Repr

/-- A tile register: 16 rows of 16 words (R133). -/
abbrev Tile := Vector (Vector Word 16) 16

/-- An accumulator: 16 rows of 16 elements of 32 bits (R133). -/
abbrev Acc := Vector (Vector (BitVec 32) 16) 16

/-- A vector register: 32 lanes of 16 bits (R133). -/
abbrev VReg := Vector Word 32

/-- An operation in the tile path (R133, R142, R149). -/
inductive TileOp where
  | tld (t : Fin 8) (ea stride : Addr)
  | tst (t : Fin 8) (ea stride : Addr)
  | zld (z : Fin 4) (ea stride : Addr)
  | zst (z : Fin 4) (ea stride : Addr)
  | tzero (t : Fin 8)
  | ttr (d s : Fin 8)
  | tmovr (t : Fin 8) (v : VReg) (r : Fin 16)
  | vmovt (d : Fin 16) (t : Fin 8) (r : Fin 16)
  deriving DecidableEq, Repr

/-- An operation in the matrix queue (R133, R148, R149). -/
inductive MatOp where
  | mma (d : Fin 4) (a b : Fin 8) (fresh : Bool) (bty : ElemTy) (ra rb : Bool) (ty : ElemTy)
  | zzero (d : Fin 4)
  | zcvt (t : Fin 8) (z : Fin 4) (sh : Fin 16) (int sat h : Bool) (ty : ElemTy)
  | zmovr (d : Fin 16) (z : Fin 4) (r : Fin 16)
  deriving DecidableEq, Repr

/-- A reuse latch (R150): the tile register it is tagged with, and its content; absent while not valid. -/
abbrev Latch := Option (Fin 8 × Tile)

/-- A task on a seat (R200, R214, R220): its queue, the sixteen words of its record, the global word address of its
slot, and, for a stroke-bounded task, the stroke it belongs to, and whether it is late. -/
structure Task where
  queue  : Nat
  words  : List Word
  slot   : Addr
  stroke : Option Nat
  late   : Bool
  deriving DecidableEq, Repr

/-- A core (R99, R103, R105, R133). -/
structure Core where
  mode     : CoreMode
  w        : Vector Word 16
  a        : Vector Addr 8
  pc       : Addr
  ls       : Vector Addr 4
  le       : Vector Addr 4
  lc       : Vector Addr 4
  cst      : Word
  ecst     : Word
  ecause   : Word
  epc      : Addr
  eval     : Addr
  ivb      : Addr
  /-- The value of the crew's cycle count at the core's last reset (R106: CYCLE counts from it). -/
  cycle0   : Nat
  /-- CYCLE_HI latched by a read of CYCLE_LO (R105). -/
  cycleHi  : Option Word
  lockup   : Bool
  wait     : Option Wait
  /-- COX_SEAT_STAT.STOPREQ (R218). -/
  stopReq  : Bool
  /-- A stop whose queues have not drained (R159). -/
  stopping : Option Stop
  /-- 1: the stop is one of the HALT policy or of a STOP (R218, R98). -/
  halted   : Bool
  task     : Option Task
  /-- Error reports that have arrived and not been taken (R126), failing addresses. -/
  errs     : List Addr
  /-- Reports held because EXL was 1 or the seat had stopped (R126). -/
  held     : List Addr
  misses   : List Miss
  returned : List Returned
  /-- w and a registers with a load outstanding (R112). -/
  busyW    : BitVec 16
  busyA    : BitVec 8
  /-- L1 data cache, by set, most recently used line first (R184). -/
  l1d      : List (Nat × List Line)
  /-- L1 instruction cache, by set, most recently used line first (R184, R185); its lines are clean. -/
  l1i      : List (Nat × List Line)
  /-- The fetch buffer of a seat: a block of its own seat memory, by number, and its 32 words (R165). -/
  fbuf     : Option (Nat × List Word)
  v        : Vector VReg 16
  p        : Vector (BitVec 32) 4
  t        : Vector Tile 8
  z        : Vector Acc 4
  latchA   : Latch
  latchB   : Latch
  /-- The tile path and the matrix queue, oldest first, each with its place in program order (R133, R158). -/
  tileQ    : List (Nat × TileOp)
  matQ     : List (Nat × MatOp)
  seq      : Nat
  /-- Catch groups this core has an unfinished CGW on: completions still to pass (R275, R285). -/
  cgw      : List (Nat × Nat)
  /-- A STEP that a stop request has gone before (R131). -/
  stepDue  : Bool
  deriving DecidableEq, Repr

/-- A core after its reset (R132, R160): registers 0, caches invalid, queues empty; `pl` is CST.PL. (log entry 5, DESIGN CHOICE) (log entry 9, DEDUCED) -/
def Core.reset (pl : Bool) (mode : CoreMode) : Core where
  mode := mode
  w := Vector.replicate 16 0
  a := Vector.replicate 8 0
  pc := 0
  ls := Vector.replicate 4 0
  le := Vector.replicate 4 0
  lc := Vector.replicate 4 0
  cst := if pl then 0x20 else 0
  ecst := if pl then 0x20 else 0
  ecause := 0
  epc := 0
  eval := 0
  ivb := 0
  cycle0 := 0
  cycleHi := none
  lockup := false
  wait := none
  stopReq := false
  stopping := none
  halted := false
  task := none
  errs := []
  held := []
  misses := []
  returned := []
  busyW := 0
  busyA := 0
  l1d := []
  l1i := []
  fbuf := none
  v := Vector.replicate 16 (Vector.replicate 32 0)
  p := Vector.replicate 4 0
  t := Vector.replicate 8 (Vector.replicate 16 (Vector.replicate 16 0))
  z := Vector.replicate 4 (Vector.replicate 16 (Vector.replicate 16 0))
  latchA := none
  latchB := none
  tileQ := []
  matQ := []
  seq := 0
  cgw := []
  stepDue := false

/-! ## Crew cache, control core scheduler, transactions (spec/06, spec/07, spec/09) -/

/-- A line of a crew cache (R189), always clean; `marked`: valid at the pulse of a command that will drop it (R193);
`bad`: its check bits show an error (R177). -/
structure CcLine where
  block  : Nat
  words  : List Word
  marked : Bool
  bad    : Bool
  deriving DecidableEq, Repr

/-- The command a crew cache is carrying out (R193, R194); an invalidation with the crew cycle of its pulse. -/
inductive CcBusy where
  | invalidate (since : Nat)
  | disable
  deriving DecidableEq, Repr

/-- A crew cache: its valid lines by set, most recently used first, and the command in progress. -/
structure CrewCache where
  sets : List (Nat × List CcLine)
  busy : Option CcBusy
  deriving DecidableEq, Repr

/-- A head buffer (R210): record index, the record, latched gates (R202), when it became ready (R212; a stamp of the
crew), the stroke it belongs to and whether it is late (R220). -/
structure HeadBuf where
  index  : Nat
  words  : List Word
  slot   : Addr
  g0     : Bool
  g1     : Bool
  ready  : Option Nat
  stroke : Option Nat
  late   : Bool
  deriving DecidableEq, Repr

/-- The scheduler of a control core beside its registers: head buffers by queue; by queue × 128 + (catch group, or 64 +
phase), TAIL at the latest such event while it lies past HEAD (R211; unlisted: 2048, no record stands before it); the
order stamp; and hails at the hail port (R115). -/
structure Sched where
  heads  : List (Nat × HeadBuf)
  marks  : List (Nat × Nat)
  stamp  : Nat
  hails  : List Hail
  deriving DecidableEq, Repr

/-- A counter advance on its way over the control network (R216): from the crew and queue of the task, to a counter,
and whether the completion then sets COX_TDONE. -/
structure Advance where
  crew   : Nat
  queue  : Nat
  target : Nat
  cnt    : Nat
  inc    : Nat
  irq    : Bool
  deriving DecidableEq, Repr

/-- What a transaction on the control network is (R269): a write (posted) or a read for a register of a control core or the
boathouse core, a request of PF0 to register space, or a counter advance of a control core's completion logic. -/
inductive CtlKind where
  | core (addr : Addr) (wide : Bool) (write : Option (BitVec 32)) (dst : Option LoadDst)
  | host (r : HostReq)
  | advance (a : Advance)
  deriving DecidableEq, Repr

/-- A transaction on the control network (R269): its requester, what it is, and, where it is served in pieces (R58, R60), how many have
been and the words read so far. -/
structure CtlTxn where
  who  : Requester
  kind : CtlKind
  at_  : Nat
  got  : List Word
  deriving DecidableEq, Repr

/-- The last completed access of a requester, as it sees it (R43, R60, R62): the data of a read, and its outcome. -/
inductive AccStatus where
  | ok | busErr | completerAbort | unsupported | discarded | poisoned
  deriving DecidableEq, Repr

/-- A completion as its requester sees it. -/
structure Completion where
  status : AccStatus
  data   : List Byte
  deriving DecidableEq, Repr

/-- A request at a crew-store bank (R170): the crew cycle in which it came, its requester's place in the order of R170, its block
within the bank, and whether it writes. -/
structure BankReq where
  age   : Nat
  rank  : Nat
  block : Nat
  write : Bool
  deriving DecidableEq, Repr

/-! ## The bulk mesh (spec/09) -/

/-- Packet types (R254). -/
inductive PktKind where
  | read | write | writeAck | readData | error | hail
  deriving DecidableEq, Repr

/-- Who injected a packet (R253, R258): a core, a DMA engine of a crew, a crew's hail port, a Gweni port, the host interface, or the
remote-access logic for a packet that came by no port. -/
inductive MeshReq where
  | core (c : CoreId)
  | dma (crew : Nat) (n : Nat)
  | hail (crew : Nat)
  | port (p : Nat)
  | host
  | own
  deriving DecidableEq, Repr

/-- What a core reads over the mesh for: the instruction at its pc, an outstanding miss, the head of its tile path, or nothing any
more. -/
inductive ReadFor where
  | insn | miss | tile | nothing
  deriving DecidableEq, Repr

/-- A read of a core on the mesh without its answer yet (R264): its tag, first word, words, and what it is for. -/
structure OutRead where
  tag  : Nat
  base : Nat
  len  : Nat
  use  : ReadFor
  deriving DecidableEq, Repr

/-- Where a packet leaves the mesh at its target router (R253): the crew, its attached port, or the host interface. -/
inductive MeshExit where
  | crew | port | host
  deriving DecidableEq, Repr

/-- Why an error response was sent: an unpowered crew (R268), an address no memory answers at (R37, R386), an
uncorrectable memory error (R176), or a poisoned packet (R255). -/
inductive PktCause where
  | none | unpowered | unmapped | memErr | poisoned
  deriving DecidableEq, Repr

/-- Transport packet types (R332). -/
inductive TType where
  | write | read | hail | rdata | ack | nak
  deriving DecidableEq, Repr

/-- A transport packet (R332, R333). -/
structure Tpkt where
  ptype  : TType
  hops   : Nat
  lane   : Nat
  dst    : Nat
  src    : Nat
  win    : Nat
  syn    : Bool
  verify : Bool
  sq     : Nat
  retx   : Bool
  wash   : Bool
  epoch  : Nat
  seq    : BitVec 32
  key    : BitVec 32
  offset : BitVec 32
  param  : Word
  tag    : Word
  data   : List Word
  deriving DecidableEq, Repr

/-- A transport packet in this device (R368): the system time it arrived or was sequenced at, the port it came by (none
for one sent or delivered here), and, while it holds receive buffers of that port, their channel and flits. -/
structure TQueued where
  pkt     : Tpkt
  arrived : Nat
  ingress : Option Nat
  vc      : Nat
  flits   : Nat
  deriving DecidableEq, Repr

/-- A packet of the bulk mesh (R254). `words` pairs word addresses with data, for writes and read data; `born` is the
system time of its injection, from which AGE is counted; VC is 0 for requests and 1 for responses. -/
structure Packet where
  kind   : PktKind
  dst    : Nat
  exit   : MeshExit
  src    : Nat
  req    : MeshReq
  prio   : Nat
  born   : Nat
  addr   : Nat
  len    : Nat
  lane   : Nat
  tag    : Nat
  poison : Bool
  /-- Why an error response was sent. -/
  cause  : PktCause
  words  : List (Nat × Word)
  /-- A write into the memory of a lane, accepted before that lane was killed (R385). -/
  accepted : Bool := false
  /-- It has been promoted (R261). -/
  promoted : Bool := false
  /-- A write-back of an L1 data cache (R195). -/
  back     : Bool := false
  /-- The transport packet it carries between a crew and a Gweni port, or between two ports (R256, R319). -/
  load     : Option TQueued := none
  deriving DecidableEq, Repr

/-- What a set of memory accesses over the mesh is for: a request of the host through a function, a host DMA channel, a request of
another device (or of this one to itself) with its wash mark, or nobody any more. -/
inductive OpFor where
  | host (fn : Nat) (r : HostReq)
  | channel (fn : Nat)
  | remote (k : Tpkt) (wash : Bool)
  | nobody
  deriving DecidableEq, Repr

/-- Memory accesses of the host interface or of the remote-access logic on the mesh (R264, R336): requester and tag, packets not yet
sent, how many of the others have no answer, the words read, and the first failure with its word. -/
structure MemOp where
  who  : MeshReq
  tag  : Nat
  use  : OpFor
  todo : List Packet
  left : Nat
  got  : List (Nat × Word)
  bad  : Option (PktCause × Nat)
  deriving DecidableEq, Repr

/-! ## Gweni links, sync slots and the stroke (spec/10, spec/03, spec/09) -/

/-- A DATA flit in a replay buffer (R300): SEQ, channel, PSTART, payload, and the packets that end in it. -/
structure TxFlit where
  seq    : Nat
  vc     : Nat
  pstart : Nat
  words  : List Word
  ends   : Nat
  deriving DecidableEq, Repr

/-- Flit types (R294). -/
inductive FType where
  | idle | data | sync | ctrl
  deriving DecidableEq, Repr

/-- Stroke parameters in 10 ns units (R68, R309). -/
structure StkParams where
  period : Nat
  recov  : Nat
  catch_ : Nat
  hold   : Nat
  auto   : Bool
  deriving DecidableEq, Repr

/-- A call event (R309, R311): call, operation (1 set, 2 clear), origin sequence, origin device. -/
structure CallEvent where
  call   : Nat
  op     : Nat
  oseq   : Nat
  origin : Nat
  deriving DecidableEq, Repr

/-- The content of a SYNC flit (R309). -/
structure SyncMsg where
  txtime    : Nat
  echo      : Nat
  turn      : Nat
  stroke    : Nat
  catchTime : Nat
  eff       : StkParams
  pend      : StkParams
  pendFrom  : Nat
  announce  : Nat
  master    : Nat
  electGen  : Nat
  up        : Bool
  mvalid    : Bool
  pinned    : Bool
  hold      : Bool
  pendValid : Bool
  holdover  : Bool
  hops      : Nat
  cand      : Nat
  candPin   : Bool
  electing  : Bool
  cgArr     : Nat
  cgGen     : List Nat
  callVal   : Nat
  evAck     : Nat
  evFirst   : Nat
  events    : List CallEvent
  deriving DecidableEq, Repr

/-- A Gweni port beside its registers. -/
structure Port where
  /-- The SEQ expected next (R299). -/
  rxNext  : Nat
  /-- The next outgoing flit carries NAK. -/
  nak     : Bool
  /-- The retry episode (R301): when its first NAK was sent, and how many have been. -/
  episode : Option (Nat × Nat)
  /-- In the episode, for lanes 0–3 and for lanes 4–7: uncorrectable codewords, and corrected symbols (R302). -/
  epLow   : Nat × Nat
  epHigh  : Nat × Nat
  /-- The SEQ of the next new DATA flit. -/
  txNext  : Nat
  /-- DATA flits not yet acknowledged, oldest first (R300). -/
  replay  : List TxFlit
  /-- How many of them, the last ones, wait to be sent again. -/
  resend  : Nat
  /-- By channel: packets not yet placed in a flit (R297). -/
  queues  : Vector (List TQueued) 6
  /-- By channel: what is left of a packet that began in an earlier flit (R298). -/
  rest    : Vector (List Word) 6
  /-- By channel: flits sent since training, modulo 256 (R296). -/
  sent    : Vector Nat 6
  /-- By channel: the last CRDCUM received. -/
  credit  : Vector Nat 6
  /-- By channel: flits of the partner freed, modulo 256. -/
  freed   : Vector Nat 6
  /-- The channel of the next CRDCUM sent. -/
  cvc     : Nat
  /-- By channel: the words of a packet not yet complete, and the flits that hold them. -/
  rxRest  : Vector (List Word × Nat) 6
  /-- Packets received, oldest first, each holding its receive buffers. -/
  inbox   : List TQueued
  /-- CTRL payloads to be sent. -/
  ctrl    : List (List Word)
  /-- The flit position (R297). -/
  pos     : Nat
  /-- The last flit sent. -/
  last    : Option (FType × Flit)
  /-- TXTIME of the last SYNC flit received, and when it came. -/
  echo    : Option (Nat × Nat)
  /-- The last SYNC content received (R310). -/
  heard   : Option SyncMsg
  /-- The last 64 round trips, newest first, in 0.125 ns (R312). -/
  rtts    : List Nat
  /-- Call events not yet acknowledged, oldest first (R311). -/
  evOut   : List CallEvent
  /-- The number of the first of them. -/
  evBase  : Nat
  /-- The number of the last event accepted from the partner (EVACK). -/
  evIn    : Nat
  /-- The partner at the port's last ACTIVE (R307). -/
  lastNbr : Option (Nat × Nat)
  /-- A degrade in progress (R302): lanes 4–7 chosen, when it began, and whether this side asked for it. -/
  degrade : Option (Bool × Nat × Bool)
  /-- A RETRAIN returns the port to DETECT after its dark time (R305). -/
  redo    : Bool
  /-- Slots in a row that this side has sent, and the partner has sent, the best candidate this side knows (R314). -/
  candTx  : Nat
  candRx  : Nat
  /-- Lanes that see light (R305). -/
  lit     : BitVec 8
  deriving DecidableEq, Repr

/-- A port as after its reset or a new training (R304, R325). (log entry 5, DESIGN CHOICE) -/
def Port.empty : Port where
  rxNext := 0
  nak := false
  episode := none
  epLow := (0, 0)
  epHigh := (0, 0)
  txNext := 0
  replay := []
  resend := 0
  queues := Vector.replicate 6 []
  rest := Vector.replicate 6 []
  sent := Vector.replicate 6 0
  credit := Vector.replicate 6 0
  freed := Vector.replicate 6 0
  cvc := 0
  rxRest := Vector.replicate 6 ([], 0)
  inbox := []
  ctrl := []
  pos := 0
  last := none
  echo := none
  heard := none
  rtts := []
  evOut := []
  evBase := 0
  evIn := 255
  lastNbr := none
  degrade := none
  redo := false
  candTx := 0
  candRx := 0
  lit := 0

/-- The stroke logic beside its registers. -/
structure Stroke where
  /-- The parameter set that waits for its catch, and the stroke from which it applies (R72). -/
  pend     : Option (StkParams × Nat)
  /-- The announced deferred catch instant (R98). -/
  announce : Option Nat
  /-- An election is in progress; its generation; the best candidate known, with its PIN (R314). -/
  electing : Bool
  gen      : Nat
  cand     : Option (Nat × Bool)
  /-- The master followed is pinned (R89). -/
  pinned   : Bool
  /-- The winner of an election that takes over at a catch (R85). -/
  winner   : Option Nat
  /-- While a handover is pending: the master still followed (R85). -/
  old      : Option Nat
  /-- The master that a handover of this stroke has replaced: its late messages count for nothing (R85). -/
  retired  : Option Nat
  /-- When SYNC was entered or the master last heard; in HOLDOVER, when it was entered (R86, R88, R91). -/
  mark     : Nat
  /-- AUTO of the effective parameters (R70, R309). -/
  auto     : Bool
  /-- The catch instant at which stroke 0 begins after a start-up election (R91). -/
  first    : Option Nat
  /-- The upstream port (R313). -/
  upstream : Option Nat
  /-- What is left to slew, in ns, and the ticks counted toward the next step (R77). -/
  slew     : Int
  ticks    : Nat
  /-- Groups whose generation is to be taken from the next downstream slot (R277, R286). -/
  fresh    : BitVec 64
  /-- Call events that wait for an upstream port, or for room at it (R304, R311). -/
  evHeld   : List CallEvent
  /-- The system values of the SYS calls: the master's own, elsewhere as last broadcast (R279). -/
  sysCalls : BitVec 256
  /-- The next origin sequence of this device's call operations, and as master the last applied, by origin (R311). -/
  callSeq  : Nat
  applied  : List (Nat × Nat)
  deriving DecidableEq, Repr

/-- The stroke logic as after its reset (R90). -/
def Stroke.empty : Stroke where
  pend := none
  announce := none
  electing := false
  gen := 0
  cand := none
  pinned := false
  winner := none
  old := none
  retired := none
  mark := 0
  auto := true
  first := none
  upstream := none
  slew := 0
  ticks := 0
  fresh := 0
  evHeld := []
  sysCalls := 0
  callSeq := 0
  applied := []

/-! ## Remote memory access (spec/11) -/

/-- Who is told of the end of a remote request (R348): the crew of a hail, an engine with the number of its request, an
engine whose POSTED HAIL descriptor has signalled, or nobody any more. -/
inductive RmaOrigin where
  | hail (crew : Nat)
  | engine (crew n tag : Nat)
  | posted (crew n tag : Nat)
  | nobody
  deriving DecidableEq, Repr

/-- An outstanding request of an initiator context: its packet, attempts so far, when the last was sent. -/
structure RmaReq where
  pkt    : Tpkt
  tries  : Nat
  sentAt : Nat
  origin : RmaOrigin
  deriving DecidableEq, Repr

/-- An initiator context (R340): whether it is in use, its epoch, the next SEQ, outstanding requests in sequence, and when
its last packet was sequenced, until the quarantine of R369 has passed. -/
structure IniCtx where
  live   : Bool
  epoch  : Nat
  next   : BitVec 32
  out    : List RmaReq
  lastAt : Option Nat
  /-- When its last outstanding request ended. -/
  idleAt : Nat := 0
  deriving DecidableEq, Repr

/-- An initiator context that has never been used. -/
def IniCtx.empty : IniCtx := { live := false, epoch := 0, next := 0, out := [], lastAt := none }

/-- A receive context (R342): epoch, SEQ expected, when the last GAP response was sent, when a packet last came, and the
refusals its requests met, by SEQ. -/
structure RxCtx where
  epoch  : Nat
  next   : BitVec 32
  gapAt  : Option Nat
  lastAt : Nat
  naks   : List (Nat × Nat)
  deriving DecidableEq, Repr

/-- The rate limiter of a destination beside its rate (R350): when it was last cut and raised, when a WASH response last
came, and what the bucket lacks of being full, in 1/102400 bytes, at a time. -/
structure Limiter where
  cutAt  : Option Nat
  incAt  : Nat
  washAt : Option Nat
  debt   : Nat
  at_    : Nat
  deriving DecidableEq, Repr

/-! ## DMA engines (spec/08) -/

/-- A side of a COPY as sampled at the fetch (R182, R229): its pattern (0 INC, 1 FIX, 2 LIST); the base address or, for a
remote side, window offset; the target of a remote side: device, window, key; for a side that names a handle its base,
length and KIND; and for LIST the next entry to read and what is left of the current one. -/
structure DmaSide where
  pat    : Nat
  base   : Nat
  remote : Option (Nat × Nat × BitVec 32)
  handle : Option (Nat × Nat × Nat)
  next   : Nat
  cur    : Nat
  left   : Nat
  deriving DecidableEq, Repr

/-- A side of no descriptor. -/
def DmaSide.empty : DmaSide := ⟨0, 0, none, none, 0, 0, 0⟩

/-- What an outstanding request of an engine is. -/
inductive DmaKind where
  | read | write | verify | hail
  deriving DecidableEq, Repr

/-- An outstanding request of an engine: its number, kind, first word (or window offset), length, and whether it is remote. -/
structure DmaReq where
  tag    : Nat
  kind   : DmaKind
  addr   : Nat
  len    : Nat
  remote : Bool
  deriving DecidableEq, Repr

/-- What a halt will record once the engine's open writes have completed (R243). -/
structure DmaHalt where
  cause  : Nat
  cur    : Nat
  remain : Nat
  fail   : Nat
  nak    : Option Nat
  deriving DecidableEq, Repr

/-- A DMA engine beside its registers: the descriptor in hand, descriptors fetched since START or RESUME (R240), its sides,
elements read, elements written, elements read and not yet written, outstanding requests, the number of the next one, the
signal has come (R236), a LAST descriptor whose remote requests are open (R348), a STOP and a HALT pending (R245, R250),
since when it asks for the DMA path (R248), a halt that waits for open writes (R243), and a gate that has held (R234). -/
structure Dma where
  words : List Word
  chain : Nat
  src   : DmaSide
  dst   : DmaSide
  read  : Nat
  done  : Nat
  buf   : List Word
  out   : List DmaReq
  tag   : Nat
  ready : Bool
  last  : Bool
  stop  : Bool
  halt  : Bool
  since : Nat
  halting : Option DmaHalt
  opened  : Bool
  deriving DecidableEq, Repr

/-- An engine with nothing in hand. -/
def Dma.empty : Dma := ⟨[], 0, DmaSide.empty, DmaSide.empty, 0, 0, [], [], 0, false, false, false, false, 0, none, false⟩

/-! ## Power (spec/14) -/

/-- A set of pace values (R402), in mW, 0.1 mW/ms, 0.1 %, %, masks and ms. -/
structure PaceSet where
  target  : Nat
  floor   : Nat
  up      : Nat
  down    : Nat
  band    : Nat
  senscap : Nat
  mask    : Nat
  inlet   : Nat
  wdog    : Nat
  deriving DecidableEq, Repr

/-- The outputs of the firmware half that wait to take effect (R93): lo, hi, and by crew shares and ceilings. -/
structure GovOut where
  lo     : Nat
  hi     : Nat
  shares : List Nat
  ceils  : List Nat
  deriving DecidableEq, Repr

/-- The power logic beside its registers. Caps are in 10 MHz units, 180 for none, each with the steps it has been calm. -/
structure Power where
  /-- Stage 1 is on (R463). -/
  stage1   : Bool
  /-- A shutdown has been ordered (R411). -/
  ordered  : Bool
  /-- The fast limiter's caps by input power, input current, and crew current (R399), and the thermal caps (R400). -/
  capPower : Nat × Nat
  capAmps  : Nat × Nat
  capCrew  : List (Nat × (Nat × Nat))
  capTherm : List (Nat × (Nat × Nat))
  /-- By crew: the governor's ceiling as published, and as the trim has it (R404); 180 unlisted. -/
  ceil     : List (Nat × Nat)
  trim     : List (Nat × Nat)
  /-- T in 0.1 mW (R401). -/
  traj10   : Nat
  /-- lo and hi last published. -/
  lo       : Nat
  hi       : Nat
  /-- The set in force, and the pending one with the time from which it may come into force (R402). -/
  inForce  : PaceSet
  waiting  : Option (PaceSet × Nat)
  /-- Outputs of the firmware half not yet in effect. -/
  out      : Option GovOut
  /-- AIN channels found OPEN or SHORT, and valid conversions in a row since (R409). -/
  open_    : BitVec 8
  good     : Vector Nat 8
  /-- The governor has stopped holding a trajectory (R410). -/
  unheld   : Bool
  /-- True currents by crew (R382). -/
  current  : List (Nat × Word)
  /-- When the firmware half was last kicked or started, in ns since VBH power-on (R410). -/
  kickAt   : Nat := 0
  /-- A cap of the fast limiter, of the thermal throttle, moves (R404). -/
  limMoves : Bool := false
  thermMoves : Bool := false
  deriving DecidableEq, Repr

/-- The pace set in force after reset (log entry 30). -/
def PaceSet.reset : PaceSet := ⟨0, 0, 250, 250, 20, 70, 3, 0, 100⟩

/-- The power logic after its reset (R414). -/
def Power.reset : Power where
  stage1 := false
  ordered := false
  capPower := (180, 0)
  capAmps := (180, 0)
  capCrew := []
  capTherm := []
  ceil := []
  trim := []
  traj10 := 0
  lo := 0
  hi := 0
  inForce := PaceSet.reset
  waiting := none
  out := none
  open_ := 0
  good := Vector.replicate 8 0
  unheld := false
  current := []

/-! ## The host interface (spec/17) -/

/-- What the device sends to its surroundings, as the model keeps it (log entry 40): an MSI-X message of a function, a write to
host memory, a byte of a UART, a frame of the SPI controller, an answer of an I3C port, and a response or event of the management protocols. -/
inductive OutMsg where
  | msix (fn vec : Nat)
  | hostWrite (addr : Nat) (bytes : List Byte)
  | uart (n : Nat) (v : Byte)
  | spi (v : Word)
  | i3c (n : Nat) (bytes : List Byte)
  | i3cNack (n : Nat)
  | pldm (eid : Nat) (code : Byte) (payload : List Byte)
  | pcieError
  deriving DecidableEq, Repr

/-- A function of the endpoint (R464, R479, R483): whether it is there (VF Enable for a VF), Bus Master Enable, D3hot, its MSI-X
table by doubleword (an unlisted one holds its default), its pending vectors, the other enables of its Command register (memory
decoding, R63, and error signalling, R62), and the addresses of its BARs (R480). (log entry 38, PRESUMED) -/
structure HostFn where
  present : Bool
  bme     : Bool
  d3      : Bool
  table   : List (Nat × BitVec 32)
  pba     : BitVec 64
  mse     : Bool := false
  serr    : Bool := false
  bars    : List (BitVec 64) := [0, 0]
  deriving DecidableEq, Repr

/-- A function after its reset; PF0 is always there. -/
def HostFn.reset (n : Nat) : HostFn := { present := n == 0, bme := false, d3 := false, table := [], pba := 0 }

/-- A host DMA channel beside its registers (R484, R485): the 32 bytes of the descriptor in hand, none when there is none, the
words moved of it, whether the next descriptor is to be fetched, and whether an ABORT waits for the writes issued. -/
structure Hdma where
  desc  : List Byte
  moved : Nat
  fetch : Bool
  abort : Bool := false
  deriving DecidableEq, Repr

/-- A channel with nothing in hand. -/
def Hdma.empty : Hdma := { desc := [], moved := 0, fetch := false }

/-! ## The boathouse (spec/15) -/

/-- A flash command in progress (R426): an erase of the sector, or a program of the page at an offset with its bytes. -/
inductive FlashOp where
  | erase (sector : Nat)
  | prog (page : Nat) (bytes : List Byte)
  deriving DecidableEq, Repr

/-- A power commitment as ProposeCommitment carries it (R430). -/
structure Commitment where
  id      : Nat
  target  : Nat
  floor   : Nat
  up      : Nat
  down    : Nat
  band    : Nat
  senscap : Nat
  slot    : Nat
  step    : Nat
  deriving DecidableEq, Repr

/-- An I3C port beside its registers (R427): bytes to send and received, the events the controller has enabled (ENEC, DISEC),
the longest write and read (SETMWL, SETMRL). -/
structure I3c where
  tx  : List Byte
  rx  : List Byte
  ev  : BitVec 8
  mwl : Nat
  mrl : Nat
  deriving DecidableEq, Repr

/-- A port with nothing in its FIFOs. (log entry 50, PRESUMED) -/
def I3c.reset : I3c := ⟨[], [], 0, 256, 256⟩

/-- A UART's FIFOs, oldest first (R433); a received byte has its framing and parity error flags. -/
structure Uart where
  tx : List Byte
  rx : List (Byte × Bool × Bool)
  deriving DecidableEq, Repr

/-- A UART with empty FIFOs. -/
def Uart.empty : Uart := ⟨[], []⟩

/-- The SPI controller beside its registers (R434): frames to send and received, and the settings of the frame in progress. -/
structure Spi where
  tx   : List Word
  rx   : List Word
  ctrl : Option Word
  deriving DecidableEq, Repr

/-- A tachometer (R435): when its last edge came, and the last four intervals, newest first, in ns. -/
structure Tach where
  last : Option Nat
  ints : List Nat
  deriving DecidableEq, Repr

/-- A tachometer that has seen no edge. -/
def Tach.empty : Tach := ⟨none, []⟩

/-- What a conversion found (R442, R443): the ratio, in a form of 24 bits, whether its halves differ too much or one saturates. -/
structure Conversion where
  ratio : BitVec 24
  split : Bool
  /-- When it ended, in ns since VBH power-on (R441). -/
  ended : Nat := 0
  deriving DecidableEq, Repr

/-- JTAG instructions (R446). -/
inductive JtagIr where
  | bypass | idcode | sample | extest | clamp | highz | bhdebug
  deriving DecidableEq, Repr

/-- The boathouse beside its registers. -/
structure Boathouse where
  flashOp  : Option FlashOp
  /-- The image slot that the boot write-locked (R425). -/
  locked   : Option Nat
  /-- The boot record in the configuration area: PREF, TRIAL, TRIES (R425). -/
  bootRec  : Word
  /-- When the watchdog was last kicked or started (R420), in ns since VBH power-on. -/
  kicked   : Nat
  /-- A TSET waits for the next tick (R422). -/
  tset     : Bool
  i3c      : Vector I3c 2
  /-- The endpoint ID assigned (R428). -/
  eid      : Nat
  uarts    : Vector Uart 2
  spi      : Spi
  /-- The proposal held, the commitment in force and when it comes into force, and the one the configuration area records. -/
  prop     : Option Commitment
  commit   : Option (Commitment × Nat)
  recorded : Option Commitment
  tachs    : Vector Tach 4
  /-- Each PWM output: the period and duty in effect (R436), and when its period began. -/
  pwm      : Vector (Word × Word × Nat) 2
  /-- Pins whose switch is in progress, with the level the keeper holds (R438). -/
  mioSwitch : List (Nat × Bool)
  /-- The function each pin has, once its switch has ended. -/
  mioFn    : List (Nat × Nat)
  /-- Conversions ended and not yet posted, by channel (R441). -/
  ainEnd   : List (Nat × Conversion)
  /-- Valid results in a row of the INLET channel above the limit (R445). -/
  inletHot : Nat
  ir       : JtagIr
  /-- The boundary-scan cells of the 24 MIO pins. -/
  bsr      : BitVec 24
  /-- What the TAP's data register last captured. -/
  dr       : BitVec 32
  /-- A single step of the core's run control is under way (R446). -/
  step     : Bool
  /-- PACE_EVT, PWR_FLT, AIN_OPEN and LL_EVT as last looked at for PlatformEventMessage (R429). -/
  seen     : Vector Word 4
  /-- The phase of HST_BOOTSTAT as the firmware holds it (R471-R476). -/
  phase    : Nat
  /-- The commitment in force at the last step fault, while its restart waits (R475). -/
  tripId   : Option Nat
  /-- The one-time key fuse (R424): the words of the key digest it holds, none while it is blank (log entry 66). -/
  keyFuse  : Option (List Word)
  deriving DecidableEq, Repr

/-- The boathouse at VBH power-on (R447); the boot record holds slot A, no trial (log entry 41). -/
def Boathouse.reset : Boathouse where
  flashOp := none
  locked := none
  bootRec := 0
  kicked := 0
  tset := false
  i3c := Vector.replicate 2 I3c.reset
  eid := 0
  uarts := Vector.replicate 2 Uart.empty
  spi := ⟨[], [], none⟩
  prop := none
  commit := none
  recorded := none
  tachs := Vector.replicate 4 Tach.empty
  pwm := Vector.replicate 2 (4000, 1024, 0)
  mioSwitch := []
  mioFn := []
  ainEnd := []
  inletHot := 0
  ir := .idcode
  bsr := 0
  dr := 0
  step := false
  seen := Vector.replicate 4 0
  phase := 0
  tripId := none
  keyFuse := none

/-! ## The lid listener (spec/16) -/

/-- The listener beside its registers: S0 floors, in 2⁻¹⁶ of their register's unit, absent until seeded, with the windows seen
in LEARN; band baselines in the same scale; windows and frames counted toward a wake; S2 runs; quiet frames in a row;
classes whose S1 event waits for the score to fall (R455), and their frames counted. (log entry 60, DESIGN CHOICE) -/
structure Listener where
  floors : Vector (Option Int) 4
  learn  : Nat
  bases  : Vector Int 16
  s0run  : Nat
  s1run  : Nat
  s2on   : Bool
  quiet  : Nat
  hwrun  : Vector Nat 6
  hwheld : BitVec 6
  /-- LL_LOC holds a location found in the current active mode (log entry 62). -/
  located : Bool
  /-- The samples after a start are still invalid (R462). -/
  starting : Bool
  /-- Frames since S2 woke or last wrote its results (R456). -/
  s2frames : Nat := 0
  /-- The RPM the notch centres follow (R460). -/
  notchRpm : Nat := 0
  /-- When they last took it, in ns since VBH power-on (R460). -/
  notchAt  : Option Nat := none
  deriving DecidableEq, Repr

/-- The listener as it starts (R462). -/
def Listener.reset : Listener where
  floors := Vector.replicate 4 none
  learn := 0
  bases := Vector.replicate 16 0
  s0run := 0
  s1run := 0
  s2on := false
  quiet := 0
  hwrun := Vector.replicate 6 0
  hwheld := 0
  located := false
  starting := true

/-- The state of the block. -/
structure State where
  /-- System time in ns (R6, R422). -/
  time : Nat
  /-- Register words by word address, canonical form; an unlisted word holds its reset value (R35, R42). -/
  regs : List (Nat × Word)
  /-- Memory bytes by host byte address (R9): seat memories and crew stores in their global ranges (R32), boathouse memory in its own (R416); canonical form, an unlisted byte reads 0 (R198). -/
  mem : List Host.Cell
  /-- Flash bytes by byte offset (R423), canonical form; an unlisted byte reads 0xFF (log entry 6). -/
  flash : List Host.Cell
  /-- Memory words, by word address, that hold a single-bit error (R175). -/
  eccOne : List Nat
  /-- Memory words that hold an uncorrectable error (R176). -/
  eccTwo : List Nat
  /-- Cores, by number (seat crew × 8 + seat, control core 768 + crew, boathouse core 864); an unlisted core is as after reset. -/
  cores : List (Nat × Core)
  /-- Tenths of core cycles each crew has run, and, as number 96, the boathouse core (R106, R397, R415). -/
  clock : List (Nat × Nat)
  /-- Crew caches by crew (R189); an unlisted one is empty. -/
  cc : List (Nat × CrewCache)
  /-- Schedulers by crew (R200-R217). -/
  sched : List (Nat × Sched)
  /-- Transactions under way on the control network, oldest first (R48, R216, R269). -/
  ctl : List CtlTxn
  /-- Requesters served in the present round of the control network's arbitration (R269, R270). -/
  ctlRound : List Requester
  /-- Requests waiting at crew-store banks, by crew × 16 + bank (R170). -/
  banks : List (Nat × List BankReq)
  /-- Cores that hold an early arrival, by catch group (R273). -/
  early : List (Nat × List Nat)
  /-- Snapshots of four-word quantities, by address × 98 + requester: words _1 to _3 (R45). -/
  snaps : List (Nat × List Word)
  /-- COX_HCAS_RES by crew × 98 + requester (R163). -/
  hcasRes : List (Nat × Word)
  /-- What the last read through a register or host access returned to its requester. -/
  lastRead : Option Completion
  /-- The model's own: how many free values have been drawn (log entry 2). -/
  freeCtr : Nat
  /-- VC domains that are powered (R26). -/
  vcOn : BitVec 96
  /-- Crews never released from reset since their domain powered up (R472). -/
  inRst : BitVec 96
  /-- Crew stores whose VSTORE section is powered (R471). -/
  storeOn : BitVec 96
  /-- VMESH is powered. -/
  vmeshOn : Bool
  /-- Sections of VGW, of two ports each, that are powered (R471). -/
  vgwOn : BitVec 16
  /-- VIO is powered. -/
  vioOn : Bool
  /-- Packets in router inputs, head first, by router × 14 + input × 2 + channel; inputs in the order L, A, H, N, E, S, W (R253, R259). -/
  routers : List (Nat × List Packet)
  /-- Packets that have left the mesh by link L, oldest first, by crew (R253). -/
  exits : List (Nat × List Packet)
  /-- By (router × 7 + output) × 2 + channel: one more than the input whose packet holds the output and waits for credit (R260). -/
  meshHold : List (Nat × Nat)
  /-- Memory accesses of the host interface and the remote-access logic on the mesh, oldest first (R264, R336). -/
  ops : List MemOp
  /-- Writes of cores on the mesh that have no acknowledgement yet, by core number: their tags, and whether the core still counts them
  as its own, which it does until its reset (R264, R190). -/
  outWrites : List (Nat × List (Nat × Bool))
  /-- Reads of cores on the mesh, by core number (R113, R263). -/
  outReads : List (Nat × List OutRead)
  /-- Packets that wait at a router's local inputs for room, oldest first, by the key of `routers` (R266). -/
  meshWait : List (Nat × List Packet)
  /-- Crews whose hold request is raised (R98). -/
  holding : BitVec 96
  /-- Crews halted since a finish instant whose dispatch restarts at a catch after RESUME (R98). -/
  noDispatch : BitVec 96
  /-- Crews whose seat memories have been zeroed since their domain powered up (R198). -/
  seatsZeroed : BitVec 96
  /-- Crew stores zeroed since their section powered up (R198). -/
  storesZeroed : BitVec 96
  /-- Gweni ports by number (R288-R314). -/
  ports : List (Nat × Port)
  /-- The stroke logic beside its registers (R65-R98). -/
  stroke : Stroke
  /-- Initiator contexts by (source queue × 1024 + lane) × 256 + target device (R340). -/
  ini : List (Nat × IniCtx)
  /-- Receive contexts by (source device × 32 + source queue) × 1024 + lane (R342). -/
  rxc : List (Nat × RxCtx)
  /-- Rate limiters by destination device (R350). -/
  limits : List (Nat × Limiter)
  /-- Transport packets this device sends to itself, on their way to its remote-access logic (R327). -/
  ownIn : List TQueued
  /-- DMA engines by crew × 4 + engine (R224-R252). -/
  dma : List (Nat × Dma)
  /-- The power logic beside its registers (R394-R414). -/
  pwr : Power
  /-- By slot: when its last kill or RELEASE was, in ns since VBH power-on (R375, R387). -/
  killAt : List (Nat × Nat)
  /-- Slots in SCRUB whose zero pass has ended (R387). -/
  zeroPass : BitVec 16
  /-- Functions of the endpoint: 0 PF0, n VFn (R477-R483). -/
  fns : List (Nat × HostFn)
  /-- Host DMA channels by function (R484-R487). -/
  hdma : List (Nat × Hdma)
  /-- Channel registers of VFs by function × 16 + word offset (R482). -/
  vfRegs : List (Nat × Word)
  /-- VF_ERR by function (R482). -/
  vfErr : List (Nat × Word)
  /-- PERST# is asserted (R469). -/
  perst : Bool
  /-- The PCI Express link: speed code, width and flit mode (HST_LINK); speed 0 while it is down. -/
  link : Nat × Nat × Bool
  /-- Errors logged in the uncorrectable error status of PF0's AER capability (R62, R477): bit 15 Completer Abort, bit 20
  Unsupported Request (log entry 38). -/
  aer : BitVec 32
  /-- The masked fault summary was not zero when last looked at (R359, log entry 42). -/
  fltSeen : Bool
  /-- A device warm reset is in progress (R465). -/
  warm : Bool
  /-- Crews whose reset (CREWRST) is in progress (R466). -/
  crewRst : BitVec 96
  /-- The boathouse beside its registers (R415-R447). -/
  bh : Boathouse
  /-- The lid listener beside its registers (R448-R462). -/
  ll : Listener
  /-- What the device has sent to its surroundings, oldest first; the model's own (log entry 40). -/
  out : List OutMsg
  /-- Commands waiting, first in, first out. -/
  pending : List Instr
  deriving DecidableEq, Repr

/-- The machine after reset: VBH power-on (R470). Only the boathouse is up; every other domain is off. Every register
word holds its reset value (`regs` lists only words that differ), memory lists nothing, the queue is empty. (log entry 5, DESIGN CHOICE) -/
def State.reset : State where
  time := 0
  regs := []
  mem := []
  flash := []
  eccOne := []
  eccTwo := []
  cores := []
  clock := []
  cc := []
  sched := []
  ctl := []
  ctlRound := []
  banks := []
  early := []
  snaps := []
  hcasRes := []
  lastRead := none
  freeCtr := 0
  vcOn := 0
  inRst := BitVec.allOnes 96
  storeOn := 0
  vmeshOn := false
  vgwOn := 0
  vioOn := false
  routers := []
  exits := []
  meshHold := []
  ops := []
  outWrites := []
  outReads := []
  meshWait := []
  holding := 0
  noDispatch := 0
  seatsZeroed := 0
  storesZeroed := 0
  ports := []
  stroke := Stroke.empty
  ini := []
  rxc := []
  limits := []
  ownIn := []
  dma := []
  pwr := Power.reset
  killAt := []
  zeroPass := 0
  fns := []
  hdma := []
  vfRegs := []
  vfErr := []
  perst := true
  link := (0, 0, false)
  aer := 0
  fltSeen := false
  warm := false
  crewRst := 0
  bh := Boathouse.reset
  ll := Listener.reset
  out := []
  pending := []

end Sys2Proof.Machine
end

