-- ==== Sys2Proof/Machine/Ops.lean ====
section
/-! DEFINITION. The named operations on the parts of the state: sparse maps in canonical form, memory words, register
words and their fields, cores, power, and which crew or lane an address belongs to. -/
namespace Sys2Proof.Machine

/-! ## Sparse maps

A map from keys to values whose unlisted keys read a default: a list of pairs, keys strictly rising, no pair holding
its key's default. -/

/-- What the map holds at a key. -/
def mapGet {α : Type} (dflt : Nat → α) : List (Nat × α) → Nat → α
  | [], k => dflt k
  | (k', v) :: m, k => if k' = k then v else mapGet dflt m k

/-- Puts a pair in its place before the first larger key. -/
def mapInsert {α : Type} (k : Nat) (v : α) : List (Nat × α) → List (Nat × α)
  | [] => [(k, v)]
  | (k', v') :: m => if k < k' then (k, v) :: (k', v') :: m else (k', v') :: mapInsert k v m

/-- The map without a key. -/
def mapErase {α : Type} (k : Nat) : List (Nat × α) → List (Nat × α)
  | [] => []
  | (k', v') :: m => if k' = k then mapErase k m else (k', v') :: mapErase k m

/-- The map with a key set: a value equal to the default removes the entry, so that equal maps are equal lists. -/
def mapSet {α : Type} [DecidableEq α] (dflt : Nat → α) (m : List (Nat × α)) (k : Nat) (v : α) : List (Nat × α) :=
  if v = dflt k then mapErase k m else mapInsert k v (mapErase k m)

/-- The canonical form: keys strictly rising, no entry equal to its default. -/
def mapWf {α : Type} [DecidableEq α] (dflt : Nat → α) : List (Nat × α) → Bool
  | [] => true
  | (k, v) :: m => decide (v ≠ dflt k) && m.all (fun p => decide (k < p.1)) && mapWf dflt m

/-! ## Memory (spec/06, R9)

Memory is a list of (host byte address, byte) pairs; the word at word address w is the bytes 2w (bits 7:0) and
2w + 1 (bits 15:8). -/

/-- What an unlisted byte of memory reads as: power-up zeroes the memories (R198). (log entry 4, DEDUCED) -/
def memDefault : Nat → Byte := fun _ => 0

/-- What an unlisted byte of flash reads as: erased (log entry 6). -/
def flashDefault : Nat → Byte := fun _ => 0xFF

/-- The canonical form of memory. -/
def Memory.wf (m : List Host.Cell) : Bool := mapWf memDefault m

/-- The word at a word address. -/
def memWord (m : List Host.Cell) (w : Nat) : Word :=
  (mapGet memDefault m (2 * w + 1)) ++ (mapGet memDefault m (2 * w))

/-- Memory with the word at a word address set. -/
def memSetWord (m : List Host.Cell) (w : Nat) (v : Word) : List Host.Cell :=
  mapSet memDefault (mapSet memDefault m (2 * w) (v.setWidth 8)) (2 * w + 1) ((v >>> 8).setWidth 8)

/-- Memory with a list of words set, in the order of the list. -/
def memSetWords (m : List Host.Cell) : List (Nat × Word) → List Host.Cell
  | [] => m
  | (w, v) :: ws => memSetWords (memSetWord m w v) ws

/-- The word at a word address of the state's memory. (log entry 4, DEDUCED) -/
def State.word (s : State) (w : Nat) : Word := memWord s.mem w

/-- A write of words: it stores them and fresh check bits (R176). -/
def State.writeWords (s : State) (ws : List (Nat × Word)) : State :=
  { s with mem := memSetWords s.mem ws
           eccOne := s.eccOne.filter (fun a => !(ws.any (fun p => p.1 == a)))
           eccTwo := s.eccTwo.filter (fun a => !(ws.any (fun p => p.1 == a))) }

/-- A write of one word. -/
def State.writeWord (s : State) (w : Nat) (v : Word) : State := s.writeWords [(w, v)]

/-- The words of a memory from a word address on. -/
def memWords (m : List Host.Cell) (w n : Nat) : List Word := (List.range n).map (fun i => memWord m (w + i))

/-! ## Registers (spec/02, R35, R42) -/

/-- A register row covers an offset. -/
def RegRow.covers (r : RegRow) (o : Nat) : Bool :=
  decide (r.off ≤ o) &&
  (let d := o - r.off
   let i := d / r.s1
   let e := d % r.s1
   if r.n1 = 1 then
     decide (d % r.s2 = 0) && decide (d / r.s2 < r.n2)
   else
     decide (i < r.n1) && decide (e % r.s2 = 0) && decide (e / r.s2 < r.n2))

/-- The row of the register at a word address of the aliasable block or the tables region (R35); none for a reserved
word (R36). -/
def regRow (a : Nat) : Option RegRow :=
  if a < 0xF0000000 then none
  else if a < 0xF0600000 then crewRows.find? (fun r => r.covers ((a - 0xF0000000) % 0x10000))
  else if a < 0xF0700000 then globRows.find? (fun r => r.covers (a - 0xF0600000))
  else if a < 0xF0800000 then bhRows.find? (fun r => r.covers (a - 0xF0700000))
  else if a < 0xF1000000 then none
  else if a < 0xF1400000 then winRows.find? (fun r => r.covers (a - 0xF1000000))
  else if a < 0xF1800000 then rtRows.find? (fun r => r.covers (a - 0xF1400000))
  else if a < 0xF1C00000 then ltRows.find? (fun r => r.covers (a - 0xF1800000))
  else none

/-- FEAT0–FEAT7 on stepping B0 (R107). -/
def featWord (n : Nat) : Word :=
  match n with
  | 0 => 0x0011 | 1 => 0x3F41 | 2 => 0x37FF | 3 => 0x0FFC | 4 => 0x9544 | 5 => 0xC860 | 6 => 0x0437 | 7 => 0x0120
  | _ => 0

/-- The Gweni port attached to a crew's router (R23). -/
def crewPort (c : Nat) : Option Nat :=
  if 2 ≤ c ∧ c ≤ 9 then some (c - 2)
  else if c % 12 = 11 then some (8 + c / 12)
  else if 86 ≤ c ∧ c ≤ 93 then some (16 + (c - 86))
  else if c % 12 = 0 then some (24 + c / 12)
  else none

/-- The crew whose router a Gweni port attaches to (R23). -/
def portCrew (p : Nat) : Nat :=
  if p < 8 then p + 2 else if p < 16 then (p - 8) * 12 + 11 else if p < 24 then 84 + (p - 16) + 2 else (p - 24) * 12

/-- COX_CREW_ID of a crew (R27): COL 3:0, ROW 6:4, INDEX 14:8. -/
def crewIdWord (c : Nat) : Word := BitVec.ofNat 16 (c % 12 + (c / 12) * 16 + c * 256)

/-- COX_CREW_ATTACH of a crew (R27): PORT 4:0, PORTV 5, HOST 6 (crew 90 only). -/
def crewAttachWord (c : Nat) : Word :=
  BitVec.ofNat 16 ((match crewPort c with | some p => p + 32 | none => 0) + if c = 90 then 64 else 0)

/-- Band weights of the listener's class templates at reset (R451): class c (0–5), band b (0–15). -/
def templateReset (c b : Nat) : Word :=
  match c with
  | 0 => if 10 ≤ b ∧ b ≤ 15 then 8 else 0
  | 1 => if b ≤ 5 then 0xF8 else 0
  | 2 => if 12 ≤ b ∧ b ≤ 15 then 8 else 0
  | 3 => if 4 ≤ b ∧ b ≤ 9 then 8 else 0
  | 4 => if 6 ≤ b ∧ b ≤ 9 then 8 else 0
  | 5 => if 8 ≤ b ∧ b ≤ 11 then 8 else 0
  | _ => 0

/-- The reset value of the word at a register address: that of its row, and the words whose rows differ by copy. -/
def regReset (a : Nat) : Word :=
  if 0xF060FFF8 ≤ a ∧ a ≤ 0xF060FFFF then featWord (a - 0xF060FFF8)
  else if 0xF0701100 ≤ a ∧ a < 0xF0701160 then templateReset ((a - 0xF0701100) / 16) ((a - 0xF0701100) % 16)
  else if a = 0xF0701061 ∨ a = 0xF0701063 then 0xA001
  else match regRow a with
    | some r => r.reset
    | none => 0

/-- The word a register address holds. -/
def State.reg (s : State) (a : Nat) : Word := mapGet regReset s.regs a

/-- The state with the word at a register address set. -/
def State.setReg (s : State) (a : Nat) (v : Word) : State := { s with regs := mapSet regReset s.regs a v }

/-- Bits lo + w − 1 … lo of a register, as a number. -/
def State.fld (s : State) (a lo w : Nat) : Nat := ((s.reg a).toNat / 2 ^ lo) % 2 ^ w

/-- One bit of a register. -/
def State.bit (s : State) (a i : Nat) : Bool := (s.reg a).getLsbD i

/-- The mask of `w` bits from bit `lo`. -/
def fieldMask (lo w : Nat) : Word := BitVec.ofNat 16 ((2 ^ w - 1) * 2 ^ lo)

/-- A word with the field of `w` bits from bit `lo` replaced. -/
def insertField (old : Word) (lo w v : Nat) : Word :=
  (old &&& ~~~ fieldMask lo w) ||| (BitVec.ofNat 16 (v * 2 ^ lo) &&& fieldMask lo w)

/-- The state with a field of a register set. -/
def State.setFld (s : State) (a lo w v : Nat) : State := s.setReg a (insertField (s.reg a) lo w v)

/-- The state with one bit of a register set to a value. -/
def State.setBit (s : State) (a i : Nat) (b : Bool) : State := s.setFld a i 1 (if b then 1 else 0)

/-- The state with bits of a register set (an event sets RC bits: R11). -/
def State.orReg (s : State) (a : Nat) (m : Word) : State := s.setReg a (s.reg a ||| m)

/-- The state with bits of a register cleared. -/
def State.clrReg (s : State) (a : Nat) (m : Word) : State := s.setReg a (s.reg a &&& ~~~ m)

/-- A LO/HI pair (R42): LO at `a`, HI at `a + 1`. -/
def State.reg32 (s : State) (a : Nat) : BitVec 32 := (s.reg (a + 1)) ++ (s.reg a)

/-- The state with a LO/HI pair set. -/
def State.setReg32 (s : State) (a : Nat) (v : BitVec 32) : State :=
  (s.setReg a (v.setWidth 16)).setReg (a + 1) ((v >>> 16).setWidth 16)

/-- A four-word quantity (R45). -/
def State.reg64 (s : State) (a : Nat) : BitVec 64 :=
  (s.reg (a + 3)) ++ (s.reg (a + 2)) ++ (s.reg (a + 1)) ++ (s.reg a)

/-- The state with a four-word quantity set. -/
def State.setReg64 (s : State) (a : Nat) (v : BitVec 64) : State :=
  (((s.setReg a (v.setWidth 16)).setReg (a + 1) ((v >>> 16).setWidth 16)).setReg (a + 2)
    ((v >>> 32).setWidth 16)).setReg (a + 3) ((v >>> 48).setWidth 16)

/-- A count that saturates at 0xFFFF, raised by `n`. -/
def State.addSat (s : State) (a n : Nat) : State :=
  s.setReg a (BitVec.ofNat 16 (min 0xFFFF ((s.reg a).toNat + n)))

/-- A 32-bit count that wraps, raised by `n`. -/
def State.addWrap32 (s : State) (a n : Nat) : State := s.setReg32 a (s.reg32 a + BitVec.ofNat 32 n)

/-- Every word of a span of register space at its reset value (R64). -/
def State.resetSpan (s : State) (lo hi : Nat) : State :=
  { s with regs := s.regs.filter (fun p => !(decide (lo ≤ p.1) && decide (p.1 < hi))) }

/-! ## Cores -/

/-- The number of a core: seats by global seat number (R18), then control cores, then the boathouse core. -/
def coreKey : CoreId → Nat
  | .seat c s => c.val * 8 + s.val
  | .cox c => 768 + c.val
  | .boathouse => 864

/-- The crew of a core; none for the boathouse. -/
def coreCrew : CoreId → Option Nat
  | .seat c _ => some c.val
  | .cox c => some c.val
  | .boathouse => none

/-- The core is a seat. -/
def isSeat : CoreId → Bool
  | .seat _ _ => true
  | _ => false

/-- The core is a control core. -/
def isCox : CoreId → Bool
  | .cox _ => true
  | _ => false

/-- A core as after reset: seats idle (R205), control cores held (R467), the boathouse core until the PLL locks (R447). -/
def coreDefault (k : Nat) : Core := if k < 768 then Core.reset false .idle else Core.reset true .reset

/-- A core of the state. -/
def State.core (s : State) (c : CoreId) : Core := mapGet coreDefault s.cores (coreKey c)

/-- The state with a core set. -/
def State.setCore (s : State) (c : CoreId) (k : Core) : State := { s with cores := mapSet coreDefault s.cores (coreKey c) k }

/-- The seats of a crew. -/
def crewSeats (c : Fin 96) : List CoreId := (List.finRange 8).map (fun s => CoreId.seat c s)

/-- The cores of a crew: its seats in order, then its control core. -/
def crewCores (c : Fin 96) : List CoreId := crewSeats c ++ [.cox c]

/-- Every core that a crew holds, crew by crew. -/
def allCrewCores : List CoreId := (List.finRange 96).flatMap crewCores

/-- A crew by number; crew 0 stands for a number that is none. -/
def crewOf (n : Nat) : Fin 96 := if h : n < 96 then ⟨n, h⟩ else ⟨0, by decide⟩

/-- A seat by number within its crew. -/
def seatOf (n : Nat) : Fin 8 := if h : n < 8 then ⟨n, h⟩ else ⟨0, by decide⟩

/-! ## Power -/

/-- A crew's VC domain is powered. -/
def State.crewOn (s : State) (c : Nat) : Bool := s.vcOn.getLsbD c

/-- The memory of a crew answers: its domain and VSTORE are powered and it has been released since (R31, R472). A crew reset or
a warm reset keeps it (R464, R465). -/
def State.crewMem (s : State) (c : Nat) : Bool := s.crewOn c && s.storeOn.getLsbD c && !(s.inRst.getLsbD c)

/-- A crew takes part in the device: its memory answers, and neither it nor the device is being reset (R63, R465, R466). (log entry 11, DEDUCED) -/
def State.crewUp (s : State) (c : Nat) : Bool := s.crewMem c && !(s.crewRst.getLsbD c) && !s.warm

/-- The blocks of VMESH answer: powered, and no warm reset in progress (R63, R465). (log entry 11, DEDUCED) -/
def State.meshUp (s : State) : Bool := s.vmeshOn && !s.warm

/-- A Gweni port answers: its section of VGW, of two ports, is powered (R471). (log entry 11, DEDUCED) -/
def State.gwUp (s : State) (p : Nat) : Bool := s.vgwOn.getLsbD (p / 2) && !s.warm

/-- The routing table answers: some section of VGW is powered. -/
def State.gwAny (s : State) : Bool := s.vgwOn != 0 && !s.warm

/-! ## Free values -/

/-- The next free value, and the state in which it has been drawn (log entry 2). -/
def State.drawFree (s : State) : BitVec 64 × State :=
  (Config.freeValue s.freeCtr, { s with freeCtr := s.freeCtr + 1 })

end Sys2Proof.Machine
end

