-- ==== Sys2Proof/Machine/Access.lean ====
section
/-! DEFINITION. From an address to a word: the device map as each core sees it (spec/02 R32, R33), window space
(spec/11 R331), lane checks (spec/13 R373, R381, R386), error correction (spec/06 R174–R176), the injection of mesh
packets (spec/09), the L1 data caches and the crew cache (spec/06 R184–R195). -/
namespace Sys2Proof.Machine

/-! ## Lanes of crews (R373, R375, R380) -/

/-- STATE of a lane slot (R375): 0 FREE, 1 ACTIVE, 2 DRAIN, 3 SCRUB, 4 HELD. -/
def State.slotState (s : State) (k : Nat) : Nat := s.fld (R.LANE_SLOT_STAT k) 0 3

/-- The crew is assigned to a slot: LANE_CREW.EN (R378). -/
def State.crewAssigned (s : State) (c : Nat) : Bool := s.bit (R.LANE_CREW c) 4

/-- The slot field of LANE_CREW. -/
def State.crewSlot (s : State) (c : Nat) : Nat := s.fld (R.LANE_CREW c) 0 4

/-- The lane of a crew (R373). -/
def State.laneOf (s : State) (c : Nat) : Nat :=
  if s.crewAssigned c then s.fld (R.LANE_SLOT_ID (s.crewSlot c)) 0 10 else 0

/-- The crew's lane is killed and its slot not FREE: DRAIN, SCRUB or HELD (R384, R386). -/
def State.crewKilled (s : State) (c : Nat) : Bool :=
  s.crewAssigned c && (s.slotState (s.crewSlot c) == 2 || s.slotState (s.crewSlot c) == 3 || s.slotState (s.crewSlot c) == 4)

/-- The crew's lane is being scrubbed (R387). -/
def State.crewScrub (s : State) (c : Nat) : Bool := s.crewAssigned c && s.slotState (s.crewSlot c) == 3

/-! ## The device map (R32, R162) -/

/-- First word of a seat's memory in the global range (R32). -/
def seatBase (g : Nat) : Nat := 0x10000000 + g * 0x20000

/-- First word of a crew's store in the global range (R32). -/
def storeBase (c : Nat) : Nat := 0x20000000 + c * 0x800000

/-- The word lies in the global seat memory range. -/
def inSeatMem (w : Nat) : Bool := decide (0x10000000 ≤ w) && decide (w < 0x16000000)

/-- The word lies in the global crew store range. -/
def inStore (w : Nat) : Bool := decide (0x20000000 ≤ w) && decide (w < 0x50000000)

/-- The crew that holds a word of the global ranges. -/
def memCrew (w : Nat) : Nat := if w < 0x20000000 then (w - 0x10000000) / 0x100000 else (w - 0x20000000) / 0x800000

/-- The seat, within its crew, that holds a word of the global seat range. -/
def memSeat (w : Nat) : Nat := ((w - 0x10000000) / 0x20000) % 8

/-- The crew-store offset of a word of the global store range (R162). -/
def storeOff (w : Nat) : Nat := (w - 0x20000000) % 0x800000

/-- The crew cache is on (R189). -/
def State.ccOn (s : State) (c : Nat) : Bool := s.bit (R.COX_CC_CTRL c) 0

/-- The word lies in the cache storage range of a crew whose cache is on (R189, R195). -/
def State.inCacheRange (s : State) (w : Nat) : Bool :=
  inStore w && decide (0x7C0000 ≤ storeOff w) && s.ccOn (memCrew w)

/-- The word lies in its crew's cox region (R380). -/
def State.inCoxRegion (s : State) (w : Nat) : Bool :=
  inStore w && decide (storeOff w < s.fld (R.LANE_CREW (memCrew w)) 8 4 * 0x10000)

/-- The word belongs to the memory of a killed lane, and faults (R386). -/
def State.laneFault (s : State) (w : Nat) : Bool := s.crewKilled (memCrew w) && !(s.inCoxRegion w)

/-- Where an address leads. -/
inductive Place where
  | mem (w : Nat)
  | flash (byte : Nat)
  | rom (w : Nat)
  | reg (a : Nat)
  | unmapped
  deriving DecidableEq, Repr

/-- A word of the global ranges (R32) as any requester of memory sees it: unmapped in the cache storage range and in
the memory of a killed lane. -/
def State.globalPlace (s : State) (w : Nat) : Place :=
  if inSeatMem w || inStore w then
    if s.inCacheRange w || s.laneFault w then .unmapped else .mem w
  else .unmapped

/-- The global word a word of window space stands for, as seen from a crew (R331). -/
def State.windowWord (s : State) (crew a : Nat) : Option Nat :=
  let W := (a - 0x80000000) / 0x40000
  let o := (a - 0x80000000) % 0x40000
  if s.bit (R.WIN_CTRL W) 0 && decide (o < (s.reg32 (R.WIN_LEN_LO W)).toNat)
      && decide (s.fld (R.WIN_LANE W) 0 10 = s.laneOf crew) then
    some (((s.reg32 (R.WIN_BASE_LO W)).toNat + o) % 2 ^ 32)
  else none

/-- Window space (R331) as seen from a crew. -/
def State.windowPlace (s : State) (crew a : Nat) : Place :=
  match s.windowWord crew a with
  | some w => s.globalPlace w
  | none => .unmapped

/-- The device map as a core sees it (R32, R33, R416). -/
def State.resolve (s : State) (c : CoreId) (a : Nat) : Place :=
  match c with
  | .boathouse =>
    if 0x08000000 ≤ a ∧ a < 0x08080000 then .mem a
    else if 0x09000000 ≤ a ∧ a < 0x0A000000 then .flash (2 * (a - 0x09000000))
    else if 0x0A000000 ≤ a ∧ a < 0x0A004000 then .rom (a - 0x0A000000)
    else if 0xE0000000 ≤ a then .reg a
    else .unmapped
  | .seat crew st =>
    if a < 0x20000 then s.globalPlace (seatBase (crew.val * 8 + st.val) + a)
    else if 0x100000 ≤ a ∧ a < 0x900000 then s.globalPlace (storeBase crew.val + (a - 0x100000))
    else if 0x80000000 ≤ a ∧ a < 0xC0000000 then s.windowPlace crew.val a
    else if 0xE0000000 ≤ a then .reg a
    else s.globalPlace a
  | .cox crew =>
    if 0x100000 ≤ a ∧ a < 0x900000 then s.globalPlace (storeBase crew.val + (a - 0x100000))
    else if 0x80000000 ≤ a ∧ a < 0xC0000000 then s.windowPlace crew.val a
    else if 0xE0000000 ≤ a then .reg a
    else s.globalPlace a

/-- The global word that an address of a core names, whatever it leads to (R32, R331). -/
def State.named (s : State) (c : CoreId) (a : Nat) : Option Nat :=
  match c with
  | .boathouse => some a
  | .seat crew st =>
    if a < 0x20000 then some (seatBase (crew.val * 8 + st.val) + a)
    else if 0x100000 ≤ a ∧ a < 0x900000 then some (storeBase crew.val + (a - 0x100000))
    else if 0x80000000 ≤ a ∧ a < 0xC0000000 then s.windowWord crew.val a
    else some a
  | .cox crew =>
    if 0x100000 ≤ a ∧ a < 0x900000 then some (storeBase crew.val + (a - 0x100000))
    else if 0x80000000 ≤ a ∧ a < 0xC0000000 then s.windowWord crew.val a
    else some a

/-- The address of a core names a word of a cache storage range (R195). -/
def State.namesCacheRange (s : State) (c : CoreId) (a : Nat) : Bool := ((s.named c a).map s.inCacheRange).getD false

/-- A seat of a crew may reach a word: the lane checks of R380 and R381. -/
def State.seatMay (s : State) (crew w : Nat) : Bool :=
  if memCrew w = crew then !(s.inCoxRegion w && s.laneOf crew != 0)
  else decide (s.laneOf (memCrew w) = s.laneOf crew) && !(s.inCoxRegion w)

/-- The bank of 16 MiB that a flash command in progress holds (R426). -/
def FlashOp.bank : FlashOp → Nat
  | .erase sector => sector / 256
  | .prog page _ => page / 65536

/-- A byte of flash answers reads: no command is in progress in its bank. -/
def State.flashReads (s : State) (b : Nat) : Bool := (s.bh.flashOp.map FlashOp.bank) != some (b / 0x1000000)

/-- An access of a core, with every check made before it issues (R37, R38, R144, R381, R416). -/
def State.access (s : State) (c : CoreId) (a : Nat) (write : Bool) : Place :=
  match s.resolve c a with
  | .mem w =>
    match c with
    | .seat crew _ => if s.seatMay crew.val w then .mem w else .unmapped
    | _ => .mem w
  | .reg r => if isSeat c then .unmapped else .reg r
  | .flash b => if write || !(s.flashReads b) then .unmapped else .flash b
  | .rom w => if write then .unmapped else .rom w
  | .unmapped => .unmapped

/-- The word is in the core's own seat memory: never cached (R186). -/
def ownSeatMem (c : CoreId) (w : Nat) : Bool :=
  match c with
  | .seat crew st => decide (seatBase (crew.val * 8 + st.val) ≤ w) && decide (w < seatBase (crew.val * 8 + st.val) + 0x20000)
  | _ => false

/-- The crew of a core, as a number; 0 for the boathouse (R105, CORE_ID). -/
def crewNum (c : CoreId) : Nat := (coreCrew c).getD 0

/-- The L1 data cache may hold the word (R184, R186): seats and control cores, outside the core's own seat memory. -/
def cacheable (c : CoreId) (w : Nat) : Bool :=
  match c with
  | .boathouse => false
  | _ => !(ownSeatMem c w)

/-- The block under which a cache holds the word an address names (R161, R331): the window-space block for a
window-space address, else the block of the global address. -/
def blockOf (a w : Nat) : Nat := if 0x80000000 ≤ a ∧ a < 0xC0000000 then a / 32 else w / 32

/-! ## Error reports (R126) -/

/-- An error response to an access of a core has arrived: it waits to be reported. -/
def State.pushErr (s : State) (c : CoreId) (addr : Addr) : State :=
  s.setCore c { s.core c with errs := (s.core c).errs ++ [addr] }

/-! ## Error correction (R175, R176, R417) -/

/-- A word of boathouse memory (R416). -/
def inBhMem (w : Nat) : Bool := decide (0x08000000 ≤ w) && decide (w < 0x08080000)

/-- A single-bit error was met at a word (R175). -/
def State.noteCe (s : State) (w : Nat) : State :=
  if inBhMem w then s.orReg R.BH_MEMERR 1
  else (s.orReg (R.COX_MEM_ERR (memCrew w)) 1).addSat (R.COX_MEM_CECNT (memCrew w)) 1

/-- An uncorrectable error was met: UE, with place, seat and address captured if UE was clear (R176). -/
def State.noteUeAt (s : State) (crew src seat : Nat) (addr : Addr) : State :=
  if s.bit (R.COX_MEM_ERR crew) 1 then s
  else
    let s1 := s.setReg (R.COX_MEM_ERR crew) (insertField (insertField (s.reg (R.COX_MEM_ERR crew)) 2 3 src) 5 3 seat ||| 2)
    s1.setReg32 (R.COX_MEM_ERRADDR_LO crew) addr

/-- An uncorrectable error was met at a word of memory. -/
def State.noteUe (s : State) (w : Nat) : State :=
  if inBhMem w then s.orReg R.BH_MEMERR 2
  else if inSeatMem w then s.noteUeAt (memCrew w) 0 (memSeat w) (BitVec.ofNat 32 w)
  else s.noteUeAt (memCrew w) 1 0 (BitVec.ofNat 32 w)

/-- The routers a request passes, from one crew to another, X first (R256): the one before the last. -/
def routerBefore (src dst : Nat) : Nat :=
  if src = dst then src
  else if src / 12 = dst / 12 then (if src % 12 < dst % 12 then dst - 1 else dst + 1)
  else if src / 12 < dst / 12 then dst - 12 else dst + 12

/-- The memory of a word answers: boathouse memory always, else its crew takes part in the mesh (R31). -/
def State.answers (s : State) (w : Nat) : Bool := inBhMem w || s.crewMem (memCrew w)

/-- A read of words of memory, from crew `src`: the words, corrected; or none for an error response, from an
unpowered crew (R268) or an uncorrectable error (R176). -/
def State.readWords (s : State) (src : Nat) : List Nat → State × Option (List Word)
  | [] => (s, some [])
  | w :: ws =>
    if s.answers w then
      if s.eccTwo.contains w then (s.noteUe w, none)
      else
        let s1 := if s.eccOne.contains w then s.noteCe w else s
        match s1.readWords src ws with
        | (s2, some vs) => (s2, some (s1.word w :: vs))
        | (s2, none) => (s2, none)
    else (s.orReg (R.MESH_ERR (routerBefore src (memCrew w))) 4, none)

/-- The first of some words whose read meets an error. -/
def State.badWord (s : State) (ws : List Nat) : Nat := (ws.find? (fun w => !(s.answers w) || s.eccTwo.contains w)).getD (ws.headD 0)

/-- The cycles a crew has run (R397). -/
def State.crewCycles (s : State) (c : Nat) : Nat := mapGet (fun _ => 0) s.clock c / 10

/-! ## Crew-store banks (R168–R171) -/

/-- The bank of a crew-store offset (R168). -/
def bankOf (o : Nat) : Nat := (o / 32 % 16) ^^^ (o / 512 % 16)

/-- A request takes its place: oldest first, then in the order of the requesters (R170). -/
def insertReq (r : BankReq) : List BankReq → List BankReq
  | [] => [r]
  | x :: xs => if r.age < x.age ∨ (r.age = x.age ∧ r.rank < x.rank) then r :: x :: xs else x :: insertReq r xs

/-- The requests that an access to some words makes at the banks: one for each 32-word block (R169). The access takes effect as it
issues; how long it waits at its banks is timing, which COX_BANK_WAIT counts. (log entry 71, DESIGN CHOICE) -/
def State.bankUse (s : State) (rank : Nat) (write : Bool) (ws : List Nat) : State :=
  (((ws.filter inStore).map (fun w => w / 32)).eraseDups).foldl (fun t b =>
    let crew := memCrew (b * 32)
    let o := storeOff (b * 32)
    let key := crew * 16 + bankOf o
    { t with banks := mapSet (fun _ => []) t.banks key
                        (insertReq ⟨t.crewCycles crew, rank, o / 512, write⟩ (mapGet (fun _ => []) t.banks key)) }) s

/-- A core's place in the order of R170. -/
def coreRank (c : CoreId) : Nat := match c with | .seat _ st => st.val | _ => 8

/-- A core's place for what it reads: its tile path has its own. -/
def useRank (c : CoreId) (use : ReadFor) : Nat :=
  match use, c with | .tile, .seat _ st => 9 + st.val | _, _ => coreRank c

/-! ## Packets and the local inputs of a router (R253, R254, R258, R266) -/

/-- The virtual channel of a packet: 0 request, 1 response. -/
def Packet.vc (p : Packet) : Nat :=
  match p.kind with | .read => 0 | .write => 0 | .hail => 0 | .writeAck => 1 | .readData => 1 | .error => 1

/-- The words of a packet's payload: those it writes or returns, or the transport packet it carries. -/
def Packet.payload (p : Packet) : Nat := p.words.length + (p.load.map (fun q => 12 + q.pkt.data.length)).getD 0

/-- The mesh cycles a packet occupies a link: its payload flits of 128 words, at least one (R254). -/
def Packet.flits (p : Packet) : Nat := max 1 ((p.payload + 127) / 128)

/-- The key of an input of a router on a channel. -/
def meshKey (r input vc : Nat) : Nat := r * 14 + input * 2 + vc

/-- The packets of an input of a router on a channel. -/
def State.meshIn (s : State) (r input vc : Nat) : List Packet := mapGet (fun _ => []) s.routers (meshKey r input vc)

/-- Those packets set. -/
def State.setMeshIn (s : State) (r input vc : Nat) (ps : List Packet) : State :=
  { s with routers := mapSet (fun _ => []) s.routers (meshKey r input vc) ps }

/-- The flits some packets fill. -/
def flitsOf (ps : List Packet) : Nat := (ps.map Packet.flits).sum

/-- The first packets of a list that fit so many flits, and the rest. -/
def fitting : Nat → List Packet → List Packet × List Packet
  | _, [] => ([], [])
  | room, p :: ps =>
    if p.flits ≤ room then
      let r := fitting (room - p.flits) ps
      (p :: r.1, r.2)
    else ([], p :: ps)

/-- Packets that wait at a local input move in as far as its 8 flits take them (R253, R266). -/
def State.pump (s : State) (r input vc : Nat) : State :=
  let key := meshKey r input vc
  let f := fitting (8 - flitsOf (s.meshIn r input vc)) (mapGet (fun _ => []) s.meshWait key)
  if f.1.isEmpty then s
  else
    { s.setMeshIn r input vc (s.meshIn r input vc ++ f.1) with meshWait := mapSet (fun _ => []) s.meshWait key f.2 }

/-- The router a requester injects at (R253, R256). The remote-access logic handles a packet that came by no port beside port 0.
(log entry 36, DESIGN CHOICE) -/
def MeshReq.router (q : MeshReq) : Nat :=
  match q with
  | .core c => crewNum c
  | .dma c _ => c
  | .hail c => c
  | .port p => portCrew p
  | .host => 90
  | .own => portCrew 0

/-- The input of that router it injects at: L, A or H. -/
def MeshReq.input (q : MeshReq) : Nat :=
  match q with | .core _ => 0 | .dma _ _ => 0 | .hail _ => 0 | .port _ => 1 | .own => 1 | .host => 2

/-- The priority a requester's packets carry (R258). -/
def State.meshPrio (s : State) (q : MeshReq) : Nat :=
  match q with
  | .core (.seat c _) => s.fld (R.MESH_PRIO c.val) 0 3
  | .core (.cox c) => s.fld (R.MESH_PRIO c.val) 4 3
  | .core .boathouse => 0
  | .dma c n => s.fld (R.DMA_CTRL c n) 0 3
  | .hail c => s.fld (R.MESH_PRIO c) 0 3
  | _ => s.fld (R.MESH_PRIO q.router) 8 3

/-- A packet at a local input of a router: input 0 L, 1 A, 2 H (3 N, 4 E, 5 S, 6 W); channel 0 request, 1 response. It waits there
until the input has room (R266). -/
def State.inject (s : State) (router input vc : Nat) (p : Packet) : State :=
  let key := meshKey router input vc
  { s with meshWait := mapSet (fun _ => []) s.meshWait key (mapGet (fun _ => []) s.meshWait key ++ [p]) }.pump router input vc

/-- A packet of a requester on a channel still waits at its router for room: the requester stalls (R266). -/
def State.clogged (s : State) (vc : Nat) (q : MeshReq) : Bool :=
  (mapGet (fun _ => []) s.meshWait (meshKey q.router q.input vc)).any (fun p => p.req == q)

/-- A core's next access to another crew must wait for room at its router (R112, R266). -/
def State.coreClogged (s : State) (c : CoreId) : Bool := s.clogged 0 (.core c)

/-- Reads of a core without their answer. -/
def State.readsOf (s : State) (c : CoreId) : List OutRead := mapGet (fun _ => []) s.outReads (coreKey c)

/-- Those reads set. -/
def State.setReads (s : State) (c : CoreId) (l : List OutRead) : State := { s with outReads := mapSet (fun _ => []) s.outReads (coreKey c) l }

/-- A core's writes without their acknowledgement. -/
def State.writesOf (s : State) (c : CoreId) : List (Nat × Bool) := mapGet (fun _ => []) s.outWrites (coreKey c)

/-- The lowest of the 256 tags that the core has not in use (R254). -/
def State.freeTag (s : State) (c : CoreId) : Option Nat :=
  (List.range 256).find? (fun t => !((s.readsOf c).any (fun r => r.tag == t)) && !((s.writesOf c).any (fun w => w.1 == t)))

/-- A write packet of a core to another crew (R264): it counts as outstanding until its acknowledgement. (log entry 46, DESIGN CHOICE) -/
def State.sendWrite (s : State) (c : CoreId) (dst : Nat) (back : Bool) (ws : List (Nat × Word)) : State :=
  let src := crewNum c
  let tag := (s.freeTag c).getD 0
  let s1 := s.inject src 0 0
    { kind := .write, dst := dst, exit := .crew, src := src, req := .core c, prio := s.meshPrio (.core c), born := s.time,
      addr := (ws.headD (0, 0)).1, len := ws.length, lane := s.laneOf src, tag := tag, poison := false, cause := .none, words := ws, back := back }
  { s1 with outWrites := mapSet (fun _ => []) s1.outWrites (coreKey c) (s.writesOf c ++ [(tag, true)]) }

/-- A read packet of a core for words of another crew; none while it must wait for room or a tag. -/
def State.sendRead (s : State) (c : CoreId) (use : ReadFor) (base n : Nat) : State :=
  match s.freeTag c with
  | none => s
  | some tag =>
    if s.coreClogged c then s
    else
      let src := crewNum c
      let s1 := s.inject src 0 0
        { kind := .read, dst := memCrew base, exit := .crew, src := src, req := .core c, prio := s.meshPrio (.core c), born := s.time,
          addr := base, len := n, lane := s.laneOf src, tag := tag, poison := false, cause := .none, words := [] }
      s1.setReads c (s1.readsOf c ++ [⟨tag, base, n, use⟩])

/-- The word lies in a cache storage range that is being zeroed: accesses to it wait until that ends (R194). -/
def State.zeroing (s : State) (w : Nat) : Bool :=
  inStore w && decide (0x7C0000 ≤ storeOff w) && (mapGet (fun _ => (⟨[], none⟩ : CrewCache)) s.cc (memCrew w)).busy == some .disable

/-- Words of one crew written by a core: at once in its own crew, over the mesh elsewhere. -/
def State.coreWrite (s : State) (c : CoreId) (ws : List (Nat × Word)) : State :=
  match ws with
  | [] => s
  | (w, _) :: _ =>
    if inBhMem w then s.writeWords ws
    else if coreCrew c = some (memCrew w) && !(ws.any (fun p => s.zeroing p.1)) then (s.writeWords ws).bankUse (coreRank c) true (ws.map Prod.fst)
    else s.sendWrite c (memCrew w) true ws

/-! ## Reads of a core that its instruction waits for (R113, R126, R145, R263)

Words of the core's own crew are read at once. For words of other crews a read packet goes out for each run of them, and the
instruction, the tile path or the fetch waits until every answer has come. -/

/-- The answer to a read has reached the core's crew. -/
def State.answerTo (s : State) (c : CoreId) (r : OutRead) : Option Packet :=
  (mapGet (fun _ => []) s.exits (crewNum c)).find? (fun p =>
    p.req == .core c && p.tag == r.tag && p.addr == r.base && (p.kind == .readData || p.kind == .error))

/-- A packet taken from the exit of a core's crew. -/
def State.dropExit (s : State) (c : CoreId) (p : Packet) : State :=
  { s with exits := mapSet (fun _ => []) s.exits (crewNum c) ((mapGet (fun _ => []) s.exits (crewNum c)).erase p) }

/-- A read leaves the outstanding ones, with its answer. -/
def State.closeRead (s : State) (c : CoreId) (r : OutRead) : State :=
  let s1 := match s.answerTo c r with | some p => s.dropExit c p | none => s
  s1.setReads c ((s1.readsOf c).erase r)

/-- Answers that nothing waits for any more are dropped. -/
def State.sweepReads (s : State) (c : CoreId) : State :=
  ((s.readsOf c).filter (fun r => r.use == .nothing && (s.answerTo c r).isSome)).foldl (fun t r => t.closeRead c r) s

/-- What a core reads for a use, it no longer reads for it. -/
def State.dropReads (s : State) (c : CoreId) (use : ReadFor) : State :=
  if (s.readsOf c).any (fun r => r.use == use) then
    s.setReads c ((s.readsOf c).map (fun r => if r.use == use then { r with use := .nothing } else r))
  else s

/-- The word lies in the memory of the core's own crew, or is the boathouse core's own. -/
def nearTo (c : CoreId) (w : Nat) : Bool := inBhMem w || coreCrew c == some (memCrew w)

/-- Runs of consecutive words of one crew, of at most one payload flit (R257): first word and length. -/
def runsOf : List Nat → List (Nat × Nat)
  | [] => []
  | w :: ws =>
    match runsOf ws with
    | (b, n) :: rest => if b = w + 1 ∧ memCrew b = memCrew w ∧ n < 128 then (w, n + 1) :: rest else (w, 1) :: (b, n) :: rest
    | [] => [(w, 1)]

/-- What a read finds: its words; that it must wait; or an error response, with the failing word. -/
inductive Got where
  | words (s : State) (vs : List Word)
  | wait (s : State)
  | error (s : State) (w : Nat)

/-- The outstanding read of a run. -/
def State.readOf (s : State) (c : CoreId) (use : ReadFor) (run : Nat × Nat) : Option OutRead :=
  (s.readsOf c).find? (fun r => r.use == use && r.base == run.1 && r.len == run.2)

/-- The answer to the read of a run. -/
def State.runAnswer (s : State) (c : CoreId) (use : ReadFor) (run : Nat × Nat) : Option Packet := (s.readOf c use run).bind (s.answerTo c)

/-- Words of memory read for a core. -/
def State.readNow (s : State) (c : CoreId) (use : ReadFor) (ws : List Nat) : Got :=
  let runs := runsOf (ws.filter (fun w => !(nearTo c w)))
  let answers := runs.map (s.runAnswer c use)
  if ws.any s.zeroing then .wait s
  else if answers.all Option.isSome then
    let ps := answers.filterMap id
    let s1 := runs.foldl (fun t r => match t.readOf c use r with | some x => t.closeRead c x | none => t) s
    match ps.find? (fun p => p.kind == .error || p.poison) with
    | some p => .error s1 p.addr
    | none =>
      let near := ws.filter (nearTo c)
      match (s1.bankUse (useRank c use) false near).readWords (crewNum c) near with
      | (s2, none) => .error s2 (s1.badWord near)
      | (s2, some vs) =>
        let found := near.zip vs ++ ps.flatMap Packet.words
        .words s2 (ws.map (fun w => ((found.find? (fun f => f.1 == w)).map Prod.snd).getD 0))
  else .wait (runs.foldl (fun t r => if (t.readOf c use r).isSome then t else t.sendRead c use r.1 r.2) (s.sweepReads c))

/-! ## Crew cache (R189–R192) -/

/-- The set of the crew cache a block falls in: 1,024 sets (R189). -/
def ccSet (block : Nat) : Nat := block % 1024

/-- The lines a command has reached are gone: it reaches set n in the (n + 1)-th cycle after its pulse (R193). -/
def CrewCache.sweep (k : CrewCache) (now : Nat) : CrewCache :=
  match k.busy with
  | some (.invalidate since) =>
    { k with sets := (k.sets.map (fun p => if since + p.1 + 1 ≤ now then (p.1, p.2.filter (fun l => !l.marked)) else p)).filter
                       (fun p => !p.2.isEmpty) }
  | _ => k

/-- A crew's cache. -/
def State.cache (s : State) (c : Nat) : CrewCache :=
  (mapGet (fun _ => (⟨[], none⟩ : CrewCache)) s.cc c).sweep (s.crewCycles c)

/-- The state with a crew's cache set. -/
def State.setCache (s : State) (c : Nat) (k : CrewCache) : State := { s with cc := mapSet (fun _ => ⟨[], none⟩) s.cc c k }

/-- Valid lines of a crew cache (COX_CC_OCC). -/
def ccCount (k : CrewCache) : Nat := (k.sets.map (fun p => p.2.length)).sum

/-- The crew cache accepts lines and answers lookups: on, and no change of EN in progress (R194). -/
def State.ccServes (s : State) (c : Nat) : Bool := s.ccOn c && (s.cache c).busy != some .disable

/-- The crew cache without a block. -/
def CrewCache.drop (k : CrewCache) (block : Nat) : CrewCache :=
  { k with sets := mapSet (fun _ => []) k.sets (ccSet block)
                     ((mapGet (fun _ => []) k.sets (ccSet block)).filter (fun l => l.block != block)) }

/-- The crew cache with a line accepted: the least recently used of a full set is dropped (R189). -/
def CrewCache.accept (k : CrewCache) (block : Nat) (words : List Word) : CrewCache :=
  let k1 := k.drop block
  { k1 with sets := mapSet (fun _ => []) k1.sets (ccSet block)
                      ((⟨block, words, false, false⟩ :: mapGet (fun _ => []) k1.sets (ccSet block)).take 8) }

/-- A lookup of a miss (R191): on a hit the line leaves the crew cache; a line with an error is dropped and counted
(R177). -/
def State.ccTake (s : State) (c block : Nat) : State × Option (List Word) :=
  if s.ccServes c then
    match (mapGet (fun _ => []) (s.cache c).sets (ccSet block)).find? (fun l => l.block == block) with
    | some l =>
      let s1 := s.setCache c ((s.cache c).drop block)
      if l.bad then ((s1.orReg (R.COX_MEM_ERR c) 1).addSat (R.COX_MEM_CECNT c) 1, none) else (s1, some l.words)
    | none => (s, none)
  else (s, none)

/-- Blocks of window space under which a crew cache may hold a global word, beside the global block itself (R192). -/
def State.windowBlocks (s : State) (k : CrewCache) (w : Nat) : List Nat :=
  (k.sets.flatMap (fun p => p.2.map CcLine.block)).filter (fun b =>
    decide (0x4000000 ≤ b) &&
      (let W := (b * 32 - 0x80000000) / 0x40000
       let o := (b * 32 - 0x80000000) % 0x40000
       let base := (s.reg32 (R.WIN_BASE_LO W)).toNat
       decide (base + o ≤ w) && decide (w < base + o + 32)))

/-- A DMA engine of a crew writes a word: the crew's cache drops every line that holds it (R192). -/
def State.ccDropWord (s : State) (c w : Nat) : State :=
  s.setCache c ((s.windowBlocks (s.cache c) w).foldl (fun k b => k.drop b) ((s.cache c).drop (w / 32)))

/-! ## L1 data cache (R184, R187) -/

/-- The set of an L1 cache a block falls in: word address bits 10:5. -/
def l1Set (block : Nat) : Nat := block % 64

/-- The line of a core's L1 data cache that holds a block. -/
def Core.line (k : Core) (block : Nat) : Option Line :=
  (mapGet (fun _ => []) k.l1d (l1Set block)).find? (fun l => l.block == block)

/-- The core without a line. -/
def Core.dropLine (k : Core) (block : Nat) : Core :=
  { k with l1d := mapSet (fun _ => []) k.l1d (l1Set block)
                    ((mapGet (fun _ => []) k.l1d (l1Set block)).filter (fun l => l.block != block)) }

/-- The core with a line as the most recently used of its set; the set must have room for it. -/
def Core.putLine (k : Core) (l : Line) : Core :=
  let k1 := k.dropLine l.block
  { k1 with l1d := mapSet (fun _ => []) k1.l1d (l1Set l.block) (l :: mapGet (fun _ => []) k1.l1d (l1Set l.block)) }

/-- The line a full set gives up for a new block: the least recently used (R184). -/
def Core.victim (k : Core) (block : Nat) : Option Line :=
  let ls := (mapGet (fun _ => []) k.l1d (l1Set block)).filter (fun l => l.block != block)
  if ls.length < 4 then none else ls.getLast?

/-- The offsets of a block whose mask bits are set. -/
def maskOffsets (m : BitVec 32) : List Nat := (List.range 32).filter (fun i => m.getLsbD i)

/-- A word of a line. -/
def Line.get (l : Line) (o : Nat) : Word := l.words.getD o 0

/-- A line with a word written: its mask bit set, its parity fresh (R187). -/
def Line.put (l : Line) (o : Nat) (v : Word) : Line :=
  { l with words := l.words.set o v
           dirty := l.dirty ||| BitVec.ofNat 32 (2 ^ o)
           bad := l.bad &&& ~~~ BitVec.ofNat 32 (2 ^ o) }

/-- The masked words of a line leave for their target (R187, R188), and what the core read ahead of its instruction is read again. A dirty word with a parity error stops the whole
write-back (R177); words whose address a core may no longer reach are discarded with an imprecise error (R195, R381). -/
def State.writeBack (s : State) (c : CoreId) (l : Line) : State :=
  let crew := crewNum c
  match (maskOffsets l.dirty).find? (fun o => l.bad.getLsbD o) with
  | some o =>
    let seat := match c with | .seat _ st => st.val | _ => 0
    (s.noteUeAt crew 2 seat (BitVec.ofNat 32 (l.block * 32 + o))).pushErr c (BitVec.ofNat 32 (l.block * 32 + o))
  | none =>
    let dests := (maskOffsets l.dirty).map (fun o => (l.block * 32 + o, s.access c (l.block * 32 + o) true, l.get o))
    let good := dests.filterMap (fun d => match d.2.1 with | .mem w => some (w, d.2.2) | _ => none)
    let lost := dests.filterMap (fun d => match d.2.1 with | .mem _ => none | _ => some d.1)
    let s1 := (s.dropReads c .insn).coreWrite c good
    match lost with
    | [] => s1
    | a :: _ =>
      let s2 := match lost.filterMap (fun x => (s.named c x).filter s.inCacheRange) with
        | w :: _ => s1.orReg (R.COX_CC_STAT (memCrew w)) 4
        | [] => s1
      s2.pushErr c (BitVec.ofNat 32 a)

/-- A parity error that was recovered: CE, counted (R177). -/
def State.noteParity (s : State) (c : CoreId) : State :=
  (s.orReg (R.COX_MEM_ERR (crewNum c)) 1).addSat (R.COX_MEM_CECNT (crewNum c)) 1

/-- A line enters a crew's cache, in the store banks that hold it. -/
def State.ccAccept (s : State) (crew : Nat) (l : Line) : State :=
  (s.setCache crew ((s.cache crew).accept l.block l.words)).bankUse 22 true [storeBase crew + 0x7C0000 + ccSet l.block * 256]

/-- A line evicted by a fill goes where R189 says; one with a parity error goes nowhere but, its dirty words sound, to its
target (R177). -/
def State.evict (s : State) (c : CoreId) (l : Line) : State :=
  let crew := crewNum c
  let window := decide (0x4000000 ≤ l.block)
  let ownStore := decide (storeBase crew / 32 ≤ l.block) && decide (l.block < storeBase (crew + 1) / 32)
  if l.dirty = 0 then
    if l.bad ≠ 0 then s.noteParity c
    else if ownStore || window || !(s.ccServes crew)
        || decide (min 8192 (s.fld (R.COX_CC_CLEANTHR crew) 0 14) < ccCount (s.cache crew)) then s
    else s.ccAccept crew l
  else
    let s1 := s.writeBack c l
    if l.bad ≠ 0 then (if l.dirty &&& l.bad = 0 then s1.noteParity c else s1)
    else if ownStore || !(s.ccServes crew) || (window && s.bit (R.COX_CC_CTRL crew) 1) then s1
    else s1.ccAccept crew l

/-- A line put into a core's L1 data cache, its victim evicted first. -/
def State.install (s : State) (c : CoreId) (l : Line) : State :=
  match (s.core c).victim l.block with
  | some v =>
    let s1 := s.setCore c ((s.core c).dropLine v.block)
    let s2 := s1.evict c v
    s2.setCore c ((s2.core c).putLine l)
  | none => s.setCore c ((s.core c).putLine l)

/-- The 32 words of a block as a core sees it: a word that is not mapped reads 0. -/
def State.blockWords (s : State) (c : CoreId) (use : ReadFor) (block : Nat) : Got :=
  let places := (List.range 32).map (fun i => s.resolve c (block * 32 + i))
  let ws := places.filterMap (fun p => match p with | .mem w => some w | _ => none)
  match s.readNow c use ws with
  | .words t vs =>
    let found := ws.zip vs
    .words t (places.map (fun p => match p with | .mem w => ((found.find? (fun f => f.1 == w)).map Prod.snd).getD 0 | _ => 0))
  | r => r

/-- A lookup of a core's miss in the crew cache: a hit reads the store banks. -/
def State.ccLine (s : State) (c : CoreId) (block : Nat) : State × Option (List Word) :=
  match s.ccTake (crewNum c) block with
  | (t, some ws) => (t.bankUse (coreRank c) false [storeBase (crewNum c) + 0x7C0000 + ccSet block * 256], some ws)
  | r => r

/-- The line a read that cannot complete without it brings in: from the crew cache if it hits there, else from the target
(R126, R187, R191). -/
def State.fillNow (s : State) (c : CoreId) (block : Nat) : Got :=
  match s.ccLine c block with
  | (s1, some ws) => .words (s1.install c ⟨block, ws, 0, 0⟩) ws
  | (s1, none) =>
    match s1.blockWords c .insn block with
    | .words t ws => .words (t.install c ⟨block, ws, 0, 0⟩) ws
    | r => r

/-- What an access finds in the L1 data cache (R177). -/
inductive Hit where
  | hit (l : Line)
  | miss
  | error
  deriving DecidableEq, Repr

/-- A lookup of words of a block in a core's L1 data cache, by their offsets. A clean word with a parity error drops the line,
its dirty words written back first; a dirty one drops the line and answers with an error (R177). -/
def State.lookup (s : State) (c : CoreId) (block : Nat) (offs : List Nat) : State × Hit :=
  match (s.core c).line block with
  | none => (s, .miss)
  | some l =>
    match offs.find? (fun o => l.bad.getLsbD o && l.dirty.getLsbD o), offs.any l.bad.getLsbD with
    | some o, _ =>
      let seat := match c with | .seat _ st => st.val | _ => 0
      ((s.setCore c ((s.core c).dropLine block)).noteUeAt (crewNum c) 2 seat (BitVec.ofNat 32 (block * 32 + o)), .error)
    | none, true => (((s.setCore c ((s.core c).dropLine block)).writeBack c l).noteParity c, .miss)
    | none, false => (s.setCore c ((s.core c).putLine l), .hit l)

end Sys2Proof.Machine
end

