-- ==== Sys2Proof/Machine/Flags.lean ====
section
/-! DEFINITION. The core status register and its flags (spec/04 R105, R110), and the conditions (R109). -/
namespace Sys2Proof.Machine

/-- The four flags of CST. -/
structure Flags where
  z : Bool
  n : Bool
  c : Bool
  v : Bool
  deriving DecidableEq, Repr

/-- The flags a status word holds: Z bit 0, N bit 1, C bit 2, V bit 3. -/
def flagsOf (cst : Word) : Flags := ⟨cst.getLsbD 0, cst.getLsbD 1, cst.getLsbD 2, cst.getLsbD 3⟩

/-- Flags as bits 3:0. -/
def Flags.bits (f : Flags) : Word :=
  (if f.z then 1 else 0) ||| (if f.n then 2 else 0) ||| (if f.c then 4 else 0) ||| (if f.v then 8 else 0)

/-- A status word with its flags replaced. -/
def withFlags (cst : Word) (f : Flags) : Word := (cst &&& 0xFFF0) ||| f.bits

/-- CST.LD, the active loop levels. -/
def cstLd (cst : Word) : Nat := (cst.toNat / 256) % 8

/-- A status word with LD replaced. -/
def withLd (cst : Word) (n : Nat) : Word := insertField cst 8 3 n

/-- CST.EXL. -/
def cstExl (cst : Word) : Bool := cst.getLsbD 7

/-- CST.SS. -/
def cstSs (cst : Word) : Bool := cst.getLsbD 6

/-- CST.IE. -/
def cstIe (cst : Word) : Bool := cst.getLsbD 4

/-- CST at exception and interrupt entry (R127): IE = 0, SS = 0, EXL = 1, LD = 0, the rest kept. -/
def cstEntry (cst : Word) : Word := (cst &&& 0xF8AF) ||| 0x80

/-- A value stored into CST or ECST by software (R105): PL kept, reserved bits 0, LD values 5–7 stored as 4. -/
def cstStore (old v : Word) : Word :=
  let x := (v &&& 0x07DF) ||| (old &&& 0x20)
  if 4 < cstLd x then withLd x 4 else x

/-- The condition codes (R109); 15 is reserved. -/
def condHolds (f : Flags) (cc : Nat) : Bool :=
  match cc with
  | 0 => true
  | 1 => f.z
  | 2 => !f.z
  | 3 => f.n != f.v
  | 4 => f.n == f.v
  | 5 => f.z || f.n != f.v
  | 6 => !f.z && f.n == f.v
  | 7 => !f.c
  | 8 => f.c
  | 9 => !f.c || f.z
  | 10 => f.c && !f.z
  | 11 => f.n
  | 12 => !f.n
  | 13 => f.v
  | 14 => !f.v
  | _ => false

/-- Z and N of a result, C and V kept. -/
def znFlags {w : Nat} (old : Flags) (r : BitVec w) : Flags := { old with z := r == 0, n := r.msb }

/-- Z and N of a result, C and V cleared (AND, OR, XOR, TST). -/
def logicFlags {w : Nat} (r : BitVec w) : Flags := ⟨r == 0, r.msb, false, false⟩

/-- x + y + carry and its flags: C the carry out, V signed overflow. -/
def addFlags {w : Nat} (x y : BitVec w) (cin : Bool) : BitVec w × Flags :=
  let n := x.toNat + y.toNat + (if cin then 1 else 0)
  let i := x.toInt + y.toInt + (if cin then 1 else 0)
  let r := BitVec.ofNat w n
  (r, ⟨r == 0, r.msb, decide (2 ^ w ≤ n), decide (r.toInt ≠ i)⟩)

/-- x − y − borrow and its flags: C is 1 when there is no borrow, V signed overflow. -/
def subFlags {w : Nat} (x y : BitVec w) (bin : Bool) : BitVec w × Flags :=
  let b : Nat := if bin then 1 else 0
  let i := x.toInt - y.toInt - (if bin then 1 else 0)
  let r := x - y - BitVec.ofNat w b
  (r, ⟨r == 0, r.msb, decide (y.toNat + b ≤ x.toNat), decide (r.toInt ≠ i)⟩)

/-- Flags of a shift (R110): Z and N of the result; C is the last bit out if the amount is not 0. -/
def shiftFlags (old : Flags) (r : Word) (n : Nat) (out : Bool) : Flags :=
  { old with z := r == 0, n := r.msb, c := if n = 0 then old.c else out }

end Sys2Proof.Machine
end

