-- ==== Sys2Proof/Machine/Exec.lean ====
section
/-! DEFINITION. How a core carries out an instruction (spec/04): registers of a core, the end test of hardware loops
(R117), taking an exception (R125–R131), and the boundary between one instruction and the next. -/
namespace Sys2Proof.Machine

/-! ## Registers of a core -/

/-- A w register. -/
def Core.rw (k : Core) (r : Fin 16) : Word := k.w.get r

/-- An a register. -/
def Core.ra (k : Core) (r : Fin 8) : Addr := k.a.get r

/-- The core with a w register written. -/
def Core.setW (k : Core) (r : Fin 16) (v : Word) : Core := { k with w := k.w.set r v }

/-- The core with an a register written. -/
def Core.setA (k : Core) (r : Fin 8) (v : Addr) : Core := { k with a := k.a.set r v }

/-- The core with its flags replaced. -/
def Core.setFlags (k : Core) (f : Flags) : Core := { k with cst := withFlags k.cst f }

/-- The flags of the core. -/
def Core.flags (k : Core) : Flags := flagsOf k.cst

/-- A vector register. -/
def Core.rv (k : Core) (r : Fin 16) : VReg := k.v.get r

/-- The core with a vector register written. -/
def Core.setV (k : Core) (r : Fin 16) (x : VReg) : Core := { k with v := k.v.set r x }

/-- A predicate register; p0 reads as all ones (R133). -/
def Core.rp (k : Core) (r : Fin 4) : BitVec 32 := if r = 0 then BitVec.allOnes 32 else k.p.get r

/-- The core with a predicate register written; writes to p0 are discarded (R133). -/
def Core.setP (k : Core) (r : Fin 4) (x : BitVec 32) : Core := if r = 0 then k else { k with p := k.p.set r x }

/-- A loop level's index. -/
def level (n : Nat) : Fin 4 := ⟨n % 4, Nat.mod_lt _ (by decide)⟩

/-! ## The end test of hardware loops (R117) -/

/-- A word address as PC holds it: its bit 0 is always 0 (R101). -/
def pcOf (a : Addr) : Addr := a &&& ~~~ 1#32

/-- The end test at `pc`, over at most `fuel` levels: the core with loop state updated, and the next pc. -/
def endTest : Nat → Core → Addr → Core × Addr
  | 0, k, pc => (k, pc + 2)
  | fuel + 1, k, pc =>
    let n := cstLd k.cst
    if n = 0 ∨ pc ≠ k.le.get (level (n - 1)) then (k, pc + 2)
    else
      let left := k.lc.get (level (n - 1)) - 1
      let k1 := { k with lc := k.lc.set (level (n - 1)) left }
      if left ≠ 0 then (k1, pcOf (k.ls.get (level (n - 1))))
      else endTest fuel { k1 with cst := withLd k1.cst (n - 1) } pc

/-- The instruction at pc ends the innermost active loop level (R118). -/
def atLoopEnd (k : Core) : Bool := decide (cstLd k.cst ≠ 0) && decide (k.pc = k.le.get (level (cstLd k.cst - 1)))

/-! ## Exceptions (R125–R131) -/

/-- Entry of a control core or the boathouse core (R127): vector `vec`, `ecause` as written. -/
def Core.enter (k : Core) (vec : Nat) (ecause : Word) (epc eval : Addr) : Core :=
  { k with ecst := k.cst, epc := epc, ecause := ecause, eval := eval, cst := cstEntry k.cst,
           pc := k.ivb + BitVec.ofNat 32 (4 * vec), wait := none }

/-- The ECAUSE word of an exception: CODE and IMP (R105). -/
def causeWord (code : Nat) (imp : Bool) : Word := BitVec.ofNat 16 (code + if imp then 0x4000 else 0)

/-- A single step of the boathouse core's run control ends with the instruction it began (R446): the core stops. -/
def State.stepEnd (s : State) (c : CoreId) : State :=
  if c == .boathouse && s.bh.step then
    { s.setCore c { s.core c with mode := .stopped } with bh := { s.bh with step := false } }
  else s

/-- A core takes an exception: a seat begins to stop (R130, R159); a control core or the boathouse core enters its
handler, or LOCKUP at exception level (R127, R129). -/
def State.raise (s : State) (c : CoreId) (code : Nat) (imp : Bool) (epc eval : Addr) : State :=
  let t := s.dropReads c .insn
  let k := t.core c
  if isSeat c then t.setCore c { k with stopping := some ⟨code, imp, epc, eval⟩, wait := none }
  else if cstExl k.cst then (t.setCore c { k with lockup := true, wait := none }).stepEnd c
  else (t.setCore c (k.enter code (causeWord code imp) epc eval)).stepEnd c

/-- The exception an access failure raises (R37, R125): ACCESS on a seat, BUSERR elsewhere. -/
def accessCode (c : CoreId) : Nat := if isSeat c then 3 else 4

/-- The least of a list of addresses. -/
def lowestAddr (as : List Addr) : Addr := as.foldl (fun m a => if a.toNat < m.toNat then a else m) (as.headD 0)

/-- A held error report is taken at a boundary, lowest failing address first (R126): on a control core or the boathouse
core with EXL = 0, on a seat as a stop. -/
def State.takeHeld (s : State) (c : CoreId) : State :=
  let k := s.core c
  if k.held.isEmpty || k.lockup || k.stopping.isSome || (!(isSeat c) && cstExl k.cst) then s
  else
    let a := lowestAddr k.held
    (s.setCore c { k with held := k.held.erase a }).raise c (accessCode c) true k.pc a

/-- A boundary after an instruction, the pc already moved: STEP if it began under single-step, then a held report (R126). A stop
request goes before STEP, which stays due (R131). A held report that meets STEP waits for the next boundary. (log entry 70, DESIGN
CHOICE) -/
def State.boundary (s : State) (c : CoreId) (ss : Bool) : State :=
  if ss then
    if isSeat c && (s.core c).stopReq then s.setCore c { s.core c with stepDue := true } else s.raise c 9 false (s.core c).pc 0
  else (s.takeHeld c).stepEnd c

/-- An instruction completes without a control transfer: the end test, then the boundary. -/
def State.complete (s : State) (c : CoreId) (ss : Bool) : State :=
  let t := s.dropReads c .insn
  let k := t.core c
  let e := endTest 4 k k.pc
  (t.setCore c { e.1 with pc := e.2, wait := none }).boundary c ss

/-- An instruction completes with a control transfer. -/
def State.completeAt (s : State) (c : CoreId) (pc : Addr) (ss : Bool) : State :=
  let t := s.dropReads c .insn
  (t.setCore c { t.core c with pc := pc, wait := none }).boundary c ss

end Sys2Proof.Machine
end

