-- ==== Sys2Proof/Machine/HostBase.lean ====
section
/-! DEFINITION. The host interface as other blocks meet it (spec/17 R479, R483, R485): functions, MSI-X messages, and the host
DMA channels with their registers. -/
namespace Sys2Proof.Machine

/-- A function of the endpoint: 0 PF0, n VFn. -/
def State.fn (s : State) (n : Nat) : HostFn := mapGet HostFn.reset s.fns n

/-- The state with a function set. -/
def State.setFn (s : State) (n : Nat) (f : HostFn) : State := { s with fns := mapSet HostFn.reset s.fns n f }

/-- A doubleword of the MSI-X table as it is after reset: vectors masked (log entry 43). -/
def msixDefault (i : Nat) : BitVec 32 := if i % 4 = 3 then 1 else 0

/-- The vector is masked. -/
def HostFn.masked (f : HostFn) (vec : Nat) : Bool := (mapGet msixDefault f.table (vec * 4 + 3)).getLsbD 0

/-- The device sends something to its surroundings. (log entry 40, DESIGN CHOICE) -/
def State.send (s : State) (m : OutMsg) : State := { s with out := s.out ++ [m] }

/-- The source of an MSI-X vector rises (R483): a message, or a pending bit while the vector is masked, Bus Master Enable is 0 or
the function is in D3hot (R479). -/
def State.msix (s : State) (n vec : Nat) : State :=
  let f := s.fn n
  if !s.vioOn || !f.present then s
  else if f.masked vec || !f.bme || f.d3 then s.setFn n { f with pba := f.pba ||| BitVec.ofNat 64 (2 ^ vec) }
  else s.send (.msix n vec)

/-- Pending messages that nothing holds any more go out. -/
def State.msixFlush (s : State) (n : Nat) : State :=
  (List.range 64).foldl (fun t v =>
    let f := t.fn n
    if f.pba.getLsbD v && !(f.masked v) && f.bme && !f.d3 then
      (t.setFn n { f with pba := f.pba &&& ~~~ BitVec.ofNat 64 (2 ^ v) }).send (.msix n v)
    else t) s

/-- Requests of the host arrive: VIO is up, PERST# is released and the link is trained (R63, R469). -/
def State.hostUp (s : State) : Bool := s.vioOn && !s.perst && s.link.1 != 0

/-- The host reaches the device through PF0: the link is up and PF0 decodes memory (R63). -/
def State.barUp (s : State) : Bool := s.hostUp && (s.fn 0).mse

/-! ## Host DMA channels (R485, R486) -/

/-- A channel beside its registers. -/
def State.chan (s : State) (n : Nat) : Hdma := mapGet (fun _ => Hdma.empty) s.hdma n

/-- The state with a channel set. -/
def State.setChan (s : State) (n : Nat) (x : Hdma) : State := { s with hdma := mapSet (fun _ => Hdma.empty) s.hdma n x }

/-- A register of a channel by word offset: +0 HEAD, +5 STAT, +6 DONE, +8 CUR. -/
def State.chWord (s : State) (n off : Nat) : Word :=
  if n = 0 then s.reg (R.HDMA_HEAD off) else mapGet (fun _ => 0) s.vfRegs (n * 16 + off)

/-- The state with a register of a channel set. -/
def State.setChWord (s : State) (n off : Nat) (v : Word) : State :=
  if n = 0 then s.setReg (R.HDMA_HEAD off) v else { s with vfRegs := mapSet (fun _ => 0) s.vfRegs (n * 16 + off) v }

/-- STATE of a channel: 0 IDLE, 1 RUN, 2 HALTED. -/
def State.chState (s : State) (n : Nat) : Nat := (s.chWord n 5).toNat % 4

/-- The accesses of a channel to device memory are its own no more; they go on (R486, R487). -/
def State.chDrop (s : State) (n : Nat) : State :=
  { s with ops := s.ops.map (fun o => if o.use = .channel n then { o with use := .nobody } else o) }

/-- A channel halts with a cause (R486); its vector rises (R483). -/
def State.chHalt (s : State) (n cause : Nat) : State :=
  (((s.setChWord n 5 (BitVec.ofNat 16 (2 + cause * 4))).setChan n Hdma.empty).chDrop n).msix n 1

/-- A kill of the lane halts the VF's channel (R487). -/
def State.chKill (s : State) (n : Nat) : State := if s.chState n = 1 then s.chHalt n 6 else s

/-- A reset of the function aborts its channel (R487): its registers at their Reset values. -/
def State.chReset (s : State) (n : Nat) : State :=
  let s1 := (s.setChan n Hdma.empty).chDrop n
  if n = 0 then s1.resetSpan 0xF0609210 0xF060921C
  else { s1 with vfRegs := s1.vfRegs.filter (fun p => p.1 / 16 != n) }

end Sys2Proof.Machine
end

