-- ==== Sys2Proof/Machine/Tick.lean ====
section
/-! DEFINITION. The stroke as every block sees it (spec/03): its registers, the ports that carry it, and the hold. -/
namespace Sys2Proof.Machine

/-! ## Ports -/

/-- A Gweni port of the state. -/
def State.port (s : State) (p : Nat) : Port := mapGet (fun _ => Port.empty) s.ports p

/-- The state with a port set. -/
def State.setPort (s : State) (p : Nat) (x : Port) : State := { s with ports := mapSet (fun _ => Port.empty) s.ports p x }

/-- STATE of a port (R305): 0 DISABLED, 1 DETECT, 2 LOCK, 3 ALIGN, 4 IDENT, 5 ACTIVE, 6 HELD, 7 DOWN, 8 TEST, 9 DEGRADE in
progress. -/
def State.portState (s : State) (p : Nat) : Nat := s.fld (R.GW_STAT p) 0 4

/-- The port is ACTIVE. -/
def State.portActive (s : State) (p : Nat) : Bool := s.portState p == 5

/-- The ACTIVE ports. -/
def State.activePorts (s : State) : List Nat := (List.range 32).filter (fun p => s.portActive p)

/-- This device's ID (R308). -/
def State.devId (s : State) : Nat := s.fld R.GW_DEVID 0 8

/-! ## Stroke registers -/

/-- STATE of the stroke logic: 0 OFF, 1 SYNC, 2 RUN, 3 HOLDOVER, 4 ISOLATED (R73). -/
def State.stkState (s : State) : Nat := s.fld R.STK_STAT 0 3

/-- The state of the stroke logic set. -/
def State.setStk (s : State) (v : Nat) : State := s.setFld R.STK_STAT 0 3 v

/-- The device is the stroke master. -/
def State.isMaster (s : State) : Bool := s.bit R.STK_STAT 3

/-- The current phase: 0 catch, 1 drive, 2 finish, 3 recovery. -/
def State.stkPhase (s : State) : Nat := s.fld R.STK_STAT 4 2

/-- The stroke count. -/
def State.stkCount (s : State) : Nat := (s.reg64 (R.STK_COUNT 0)).toNat

/-- The catch instant of the current stroke. -/
def State.catchTime (s : State) : Nat := (s.reg64 (R.STK_CATCHTIME 0)).toNat

/-- The effective parameters (R70). -/
def State.effParams (s : State) : StkParams where
  period := (s.reg32 R.STK_EFF_PERIOD_LO).toNat
  recov := (s.reg32 R.STK_EFF_RECOV_LO).toNat
  catch_ := (s.reg R.STK_EFF_CATCH).toNat
  hold := (s.reg32 R.STK_EFF_HOLDMAX_LO).toNat
  auto := s.stroke.auto

/-- The effective parameters set: the STK_EFF_ registers, and AUTO beside them. -/
def State.setEff (s : State) (p : StkParams) : State :=
  let s1 := (((s.setReg32 R.STK_EFF_PERIOD_LO (BitVec.ofNat 32 p.period)).setReg32 R.STK_EFF_RECOV_LO (BitVec.ofNat 32 p.recov)).setReg
    R.STK_EFF_CATCH (BitVec.ofNat 16 p.catch_)).setReg32 R.STK_EFF_HOLDMAX_LO (BitVec.ofNat 32 p.hold)
  { s1 with stroke := { s1.stroke with auto := p.auto } }

/-- The drive entry of the current stroke (R65). -/
def State.driveTime (s : State) : Nat := s.catchTime + 10 * s.effParams.catch_

/-- The finish instant of the current stroke (R65). -/
def State.finishTime (s : State) : Nat := s.catchTime + 10 * (s.effParams.period - s.effParams.recov)

/-- The recovery entry of the current stroke: the finish phase lasts 1 µs (R65). -/
def State.recoveryTime (s : State) : Nat := s.finishTime + 1000

/-- The scheduled next catch instant (R66). -/
def State.scheduledCatch (s : State) : Nat := s.catchTime + 10 * s.effParams.period

/-- The latest deferred catch instant (R98). -/
def State.holdLimit (s : State) : Nat := s.scheduledCatch + 10 * s.effParams.hold

/-- The device runs phases: RUN, HOLDOVER or ISOLATED (R74). It then carries SYS traffic (R287). -/
def State.runsPhases (s : State) : Bool := decide (2 ≤ s.stkState)

/-- The stroke a record that becomes ready now belongs to (R220); none while no stroke has begun: the next catch gives it. -/
def State.strokeNow (s : State) : Option Nat :=
  if !(s.runsPhases) || s.stroke.first.isSome then none else some (if s.stkPhase < 2 then s.stkCount else s.stkCount + 1)

/-! ## Hold (R98) -/

/-- A partner that takes this device as its upstream requests a hold. -/
def State.holdBelow (s : State) : Bool :=
  s.activePorts.any (fun p => ((s.port p).heard.map (fun m => m.up && m.hold)).getD false)

/-- A hold is raised: by a crew of this device, or by a device below it. -/
def State.holdRaised (s : State) : Bool := s.holding != 0 || s.holdBelow

/-- HELD. -/
def State.held (s : State) : Bool := s.bit R.STK_STAT 6

/-- A time rounded up to a 10 ns step. -/
def roundUp10 (t : Nat) : Nat := (t + 9) / 10 * 10

/-- The catch instant that follows (R66, R98): the scheduled one; while a hold defers it, the announced one, if there is one. -/
def State.nextCatch (s : State) : Option Nat := if s.held then s.stroke.announce else some s.scheduledCatch

/-- The hold has cleared at the master, which announces the deferred catch (R98): the later of the scheduled catch and 3 µs
from now; where that would pass the limit, the hold had not cleared in time, and HOLD_LIMIT announces the limit. -/
def State.holdSettle (s : State) : State :=
  let t := roundUp10 (max s.scheduledCatch (s.time + 3000))
  if s.held && s.isMaster && s.stkState == 2 && s.stroke.announce.isNone && !(s.holdRaised) && decide (t ≤ s.holdLimit) then
    { s with stroke := { s.stroke with announce := some t } }
  else s

end Sys2Proof.Machine
end

