-- ==== Sys2Proof/Machine/Live.lean ====
section
/-! DEFINITION. What other state gives as register words (spec/07, 09, 10, 12, 13, 15): schedulers, queues, seats, catch groups,
routes, lane slots, the fault summary, interrupt sources, and the pins of the boathouse. -/
namespace Sys2Proof.Machine

/-- The time since VBH power-on in ns, by the boathouse's own clock: unlike system time it is never set or corrected. -/
def State.uptime (s : State) : Nat := mapGet (fun _ => 0) s.clock 96 / 4

/-- A scheduler with nothing in it. -/
def Sched.empty : Sched := ⟨[], [], 0, []⟩

/-- A crew's scheduler. -/
def State.schedOf (s : State) (c : Nat) : Sched := mapGet (fun _ => Sched.empty) s.sched c

/-- The state with a crew's scheduler set. -/
def State.setSched (s : State) (c : Nat) (k : Sched) : State := { s with sched := mapSet (fun _ => Sched.empty) s.sched c k }

/-- STATE of an entry; EMPTY while the crew's lane is scrubbed (R387). -/
def State.hState (s : State) (c h : Nat) : Nat := if s.crewScrub c then 0 else s.fld (R.HT_CTRL c h) 0 2

/-- The word of COX_HFIND: the lowest EMPTY handle, or NONE. -/
def State.hFind (s : State) (c : Nat) : Word :=
  match (List.range 256).find? (fun h => s.hState c h == 0) with
  | some h => BitVec.ofNat 16 h
  | none => 0x8000

/-- The number of a requester (R45): control cores by crew, the boathouse, the host. -/
def requesterKey (r : Requester) : Nat := match r with | .cox c => c.val | .boathouse => 96 | .host => 97

/-- A bit field of a word. -/
def wfld (x : Word) (lo w : Nat) : Nat := (x.toNat / 2 ^ lo) % 2 ^ w

/-- Word n of a record. -/
def recWord (ws : List Word) (n : Nat) : Word := ws.getD n 0

/-- A 32-bit value of a record, LO at word n. -/
def recLong (ws : List Word) (n : Nat) : BitVec 32 := recWord ws (n + 1) ++ recWord ws n

/-- SB of a record. -/
def recSb (ws : List Word) : Bool := (recWord ws 4).getLsbD 0

/-- The queue is enabled. -/
def State.qEn (s : State) (c q : Nat) : Bool := s.bit (R.COX_Q_CTRL c q) 0

/-- The queue is in EVENT mode. -/
def State.qEvent (s : State) (c q : Nat) : Bool := s.bit (R.COX_Q_CTRL c q) 1

/-- STATE of a queue: 0 OFF, 1 RUN, 2 ERROR. -/
def State.qState (s : State) (c q : Nat) : Nat := s.fld (R.COX_Q_STAT c q) 0 2

/-- HEAD. -/
def State.qHead (s : State) (c q : Nat) : Nat := s.fld (R.COX_Q_HEAD c q) 0 11

/-- TAIL. -/
def State.qTail (s : State) (c q : Nat) : Nat := s.fld (R.COX_Q_TAIL c q) 0 11

/-- Records in a queue. -/
def State.qCount (s : State) (c q : Nat) : Nat := (s.qTail c q + 2048 - s.qHead c q) % 2048

/-- The head buffer of a queue. -/
def State.headOf (s : State) (c q : Nat) : Option HeadBuf := ((s.schedOf c).heads.find? (fun p => p.1 == q)).map Prod.snd

/-- Tasks of a queue on the crew's seats. -/
def State.qRunning (s : State) (c q : Nat) : Nat :=
  ((crewSeats (crewOf c)).filter (fun k => ((s.core k).task.map Task.queue) == some q)).length

/-- STATE of a seat: 0 IDLE, 1 RUNNING, 2 STOPPED, 3 RESET. -/
def State.seatState (s : State) (c n : Nat) : Nat :=
  match (s.core (.seat (crewOf c) (seatOf n))).mode with | .idle => 0 | .running => 1 | .stopped => 2 | .reset => 3

/-- COX_QERR: the queues in ERROR. -/
def State.qerrMask (s : State) (c : Nat) : BitVec 32 :=
  BitVec.ofNat 32 ((List.range 32).foldl (fun m q => if s.qState c q == 2 then m + 2 ^ q else m) 0)

/-- COX_SEATS: seats with a task, and STOPPED seats. -/
def State.seatsWord (s : State) (c : Nat) : Word :=
  BitVec.ofNat 16 ((List.range 8).foldl (fun m n =>
    m + (if (s.core (.seat (crewOf c) (seatOf n))).task.isSome then 2 ^ n else 0) + if s.seatState c n == 2 then 2 ^ (8 + n) else 0) 0)

/-- COX_SEAT_STAT. -/
def State.seatStat (s : State) (c n : Nat) : Word :=
  let k := s.core (.seat (crewOf c) (seatOf n))
  BitVec.ofNat 16 (s.seatState c n + 4 * ((k.task.map Task.queue).getD 0)
    + (if (k.task.map (fun t => recSb t.words)).getD false then 128 else 0) + if k.stopReq then 256 else 0)

/-- COX_Qq_STAT. -/
def State.qStatWord (s : State) (c q : Nat) : Word :=
  let h := s.headOf c q
  let bit := fun (b : Bool) (n : Nat) => if b then 2 ^ n else 0
  (s.reg (R.COX_Q_STAT c q) &&& 0x003F) ||| BitVec.ofNat 16 (bit ((h.map HeadBuf.g0).getD false) 6
    + bit ((h.map HeadBuf.g1).getD false) 7 + bit h.isSome 8 + 512 * s.qRunning c q)

/-- Word n of a seat's access registers from 0x10 on, while the seat is STOPPED (R205). -/
def Core.accessWord (k : Core) (o : Nat) : Word :=
  let halfOf := fun (v : BitVec 32) (n : Nat) => if n % 2 = 0 then v.setWidth 16 else (v >>> 16).setWidth 16
  if o < 0x20 then k.w.toList.getD (o - 0x10) 0
  else if o < 0x30 then halfOf (k.a.toList.getD ((o - 0x20) / 2) 0) o
  else if o = 0x30 then k.cst
  else if o = 0x31 then k.ecst
  else if o = 0x32 then k.ecause
  else if o = 0x34 ∨ o = 0x35 then halfOf k.epc o
  else if o = 0x36 ∨ o = 0x37 then halfOf k.eval o
  else if 0x40 ≤ o ∧ o < 0x48 then halfOf (k.ls.toList.getD ((o - 0x40) / 2) 0) o
  else if 0x48 ≤ o ∧ o < 0x50 then halfOf (k.le.toList.getD ((o - 0x48) / 2) 0) o
  else if 0x50 ≤ o ∧ o < 0x58 then halfOf (k.lc.toList.getD ((o - 0x50) / 2) 0) o
  else 0

/-- The core with a number: the inverse of `coreKey`. -/
def coreOf (k : Nat) : CoreId :=
  if k < 768 then .seat (crewOf (k / 8)) (seatOf (k % 8)) else if k < 864 then .cox (crewOf (k - 768)) else .boathouse

/-- The cores that differ from a core after reset: only these can wait. -/
def State.liveCores (s : State) : List CoreId := s.cores.map (fun p => coreOf p.1)

/-- SYN_CGCTRLg.EN. -/
def State.cgEn (s : State) (g : Nat) : Bool := s.bit (R.SYN_CGCTRL g) 0

/-- SYN_CGCTRLg.SPAN is SYS. -/
def State.cgSys (s : State) (g : Nat) : Bool := s.bit (R.SYN_CGCTRL g) 1

/-- SYN_CGCTRLg.LANE. -/
def State.cgLane (s : State) (g : Nat) : Nat := s.fld (R.SYN_CGCTRL g) 2 10

/-- The bit of a core in SYN_CGMEM and SYN_CGARR. -/
def cgBit (c : CoreId) : Nat := match c with | .seat _ n => n.val | .cox _ => 8 | .boathouse => 15

/-- The members of a group in a crew: those SYN_CGMEM marks, if the crew is of the group's lane (R272). -/
def State.cgMembers (s : State) (crew g : Nat) : Word :=
  if s.laneOf crew = s.cgLane g then s.reg (R.SYN_CGMEM crew g) &&& 0x01FF else 0

/-- Cores that hold an early arrival at a group. -/
def State.cgEarly (s : State) (g : Nat) : List Nat := mapGet (fun _ => []) s.early g

/-- The group has a member on this device. -/
def State.cgHas (s : State) (g : Nat) : Bool := s.cgEn g && (List.range 96).any (fun c => s.cgMembers c g != 0)

/-- Every local member has arrived in the current generation: SYN_CGSTATg.LOCAL. -/
def State.cgLocal (s : State) (g : Nat) : Bool :=
  s.cgHas g && (List.range 96).all (fun c => s.cgMembers c g &&& ~~~ (s.reg (R.SYN_CGARR c g)) == 0)

/-- A core waits in CGW on the group: SYN_CGSTATg.WAIT. -/
def State.cgWaits (s : State) (g : Nat) : Bool := s.liveCores.any (fun c => (s.core c).wait == some (.cgw g))

/-- Word 0 of the routing entry of a destination. -/
def State.rtWord (s : State) (d : Nat) : Word := s.reg (R.RT_W0 d)

/-- PPORT, if valid. -/
def rtPrimary (w : Word) : Option Nat := if w.getLsbD 5 then some (wfld w 0 5) else none

/-- APORT, if valid. -/
def rtAlternate (w : Word) : Option Nat := if w.getLsbD 11 then some (wfld w 6 5) else none

/-- The port is given and ACTIVE. -/
def State.usable (s : State) (p : Option Nat) : Bool := (p.map s.portActive).getD false

/-- The port an entry selects for a flow (R320, R321). -/
def State.routePort (s : State) (d flow : Nat) : Option Nat :=
  let w := s.rtWord d
  let p := rtPrimary w
  let a := rtAlternate w
  if w.getLsbD 12 && s.usable p && s.usable a && flow % 2 == 1 then a
  else if s.usable p then p
  else if s.usable a then a
  else none

/-- CUR, CURV and FAILED of an entry. -/
def State.rtStatus (s : State) (d : Nat) : Word :=
  let w := s.rtWord d
  let cur := s.routePort d 0
  let failed := (rtPrimary w).isSome && !(s.usable (rtPrimary w)) && s.usable (rtAlternate w)
  BitVec.ofNat 16 (cur.getD 0 + (if cur.isSome then 32 else 0) + if failed then 64 else 0)

/-- LANE_EVTSUM is not zero. -/
def State.laneEvents (s : State) : Bool := (List.range 16).any (fun k => s.reg (R.LANE_SLOT_EVT k) != 0)

/-- The crews of a slot. -/
def State.slotCrews (s : State) (k : Nat) : List Nat := (List.range 96).filter (fun c => s.crewAssigned c && s.crewSlot c == k)

/-- LANE_SLOT_STAT. -/
def State.slotStatWord (s : State) (k : Nat) : Word := s.reg (R.LANE_SLOT_STAT k) ||| BitVec.ofNat 16 ((s.slotCrews k).length * 8)

/-- LANE_SLOT_CREWSj. -/
def State.slotCrewsWord (s : State) (k j : Nat) : Word :=
  BitVec.ofNat 16 (((s.slotCrews k).filter (fun c => c / 16 == j)).map (fun c => 2 ^ (c % 16))).sum

/-- LANE_EVTSUM. -/
def State.evtSumWord (s : State) : Word :=
  BitVec.ofNat 16 (((List.range 16).filter (fun k => s.reg (R.LANE_SLOT_EVT k) != 0)).map (fun k => 2 ^ k)).sum

/-- LANE_CREW_STAT. -/
def State.crewStatWord (s : State) (c : Nat) : Word :=
  let st := s.slotState (s.crewSlot c)
  let x := if !(s.crewAssigned c) then 0 else if st = 2 ∨ st = 3 then 2 else if st = 4 then 3 else 1
  BitVec.ofNat 16 (x + s.laneOf c * 16)

/-- The lane of a slot. -/
def State.slotLane (s : State) (k : Nat) : Nat := s.fld (R.LANE_SLOT_ID k) 0 10

/-- Word 0 of a lane-table entry. -/
def State.laneTableWord (s : State) (lane : Nat) : Word :=
  match (List.range 16).find? (fun k => s.slotState k != 0 && s.slotLane k == lane) with
  | some k => BitVec.ofNat 16 (0x8000 + k)
  | none => 0

/-! ## Control core: interrupt sources (R221, R361, R362) -/

/-- Bit n of a word, set by a condition. -/
def bitIf (b : Bool) (n : Nat) : Nat := if b then 2 ^ n else 0

/-- A crew's control core is in LOCKUP. -/
def State.coxLockup (s : State) (c : Nat) : Bool := s.crewUp c && (s.core (.cox (crewOf c))).lockup

/-! ## The fault summary (R358) -/

/-- A DMA engine is HALTED with a cause other than STROKE or STOP. -/
def State.dmaFault (s : State) (c : Nat) : Bool :=
  (List.range 4).any (fun n => s.fld (R.DMA_STAT c n) 0 3 == 5 && s.fld (R.DMA_STAT c n) 3 5 != 4 && s.fld (R.DMA_STAT c n) 3 5 != 5)

/-- A crew is a source of HALT, LOCKUP, MEMUE, QERR or DMAHALT: those bits of HST_FLT_STAT. -/
def State.crewFaults (s : State) (c : Nat) : Nat :=
  if s.crewUp c then
    bitIf (s.bit (R.COX_STROKE_STAT c) 8) 0 + bitIf (s.coxLockup c) 1 + bitIf (s.bit (R.COX_MEM_ERR c) 1) 2
      + bitIf (s.qerrMask c != 0) 3 + bitIf (s.dmaFault c) 4
  else 0

/-- HST_FLT_STAT. -/
def State.fltStat (s : State) : Word :=
  let crews := (List.range 96).map s.crewFaults
  let any := fun n => crews.any (fun m => m.testBit n)
  let port := fun (m : Word) => s.gwAny && (List.range 32).any (fun p => s.reg (R.GW_EVT p) &&& m != 0)
  BitVec.ofNat 16 (bitIf (any 0) 0 + bitIf (any 1) 1 + bitIf (any 2) 2 + bitIf (any 3) 3 + bitIf (any 4) 4
    + bitIf (port 0x2E) 5 + bitIf (port 0x40 || (s.gwAny && s.bit R.GW_FEVT 0)) 6
    + bitIf (s.meshUp && (s.reg R.RMA_EVT &&& 0x30 != 0 || (List.range 96).any (fun c => s.bit (R.RMA_HAILST c) 15))) 7
    + bitIf (s.reg R.STK_EVT &&& 0x0139 != 0) 8 + bitIf (s.meshUp && (List.range 96).any (fun c => s.reg (R.MESH_ERR c) &&& 6 != 0)) 9
    + bitIf (s.meshUp && s.reg R.SYN_ERR != 0) 10 + bitIf (s.meshUp && s.laneEvents) 11
    + bitIf (s.reg R.PWR_FLT != 0 || s.reg R.PACE_EVT &&& 0x01B8 != 0) 12 + bitIf (s.reg R.HST_ACCERR_STAT != 0) 13)

/-- HST_FLT_CREWk. -/
def State.fltCrewWord (s : State) (k : Nat) : Word :=
  BitVec.ofNat 16 ((List.range 16).map (fun j => bitIf (s.crewFaults (16 * k + j) != 0) j)).sum

/-- The fault summary as the host's enables mask it (R359). -/
def State.hostFault (s : State) : Bool := s.reg R.HST_FLT_HIE != 0 && s.fltStat &&& s.reg R.HST_FLT_HIE != 0

/-- The fault summary as the boathouse's enables mask it (R360). -/
def State.bhFault (s : State) : Bool := s.reg R.HST_FLT_BIE != 0 && s.fltStat &&& s.reg R.HST_FLT_BIE != 0

/-- COX_FAULT.FABRIC of a crew (R361). -/
def State.fabric (s : State) (c : Nat) : Bool :=
  let f := s.fltStat
  let sel := fun n m => s.bit R.RMA_FCOX n && f &&& m != 0
  s.bit (R.RMA_HAILST c) 15 ||
    (s.bit R.RMA_FCOX 7 && s.fld R.RMA_FCOX 0 7 == c && (sel 8 0x60 || sel 9 0x80 || sel 10 0x100 || sel 11 0x400))

/-- COX_FAULT. -/
def State.coxFaultWord (s : State) (c : Nat) : Word := BitVec.ofNat 16 (bitIf (s.coxLockup c) 0 + bitIf (s.fabric c) 1)

/-- COX_IP (R221): vectors 16–28 as bits 0–12. -/
def State.coxIp (s : State) (c : Nat) : Word :=
  let dma := fun n => bitIf (s.reg (R.DMA_IRQ c n) &&& s.reg (R.DMA_IE c n) != 0) (5 + n)
  BitVec.ofNat 16 (bitIf (s.reg (R.COX_STROKE_IRQ c) != 0) 0 + bitIf ((List.range 8).any (fun n => s.seatState c n == 2)) 1
    + bitIf (s.qerrMask c != 0) 2 + bitIf (s.reg (R.COX_TDONE_LO c) != 0 || s.reg (R.COX_TDONE_HI c) != 0) 3
    + bitIf ((List.range 32).any (fun q => s.qEn c q && s.qEvent c q && s.qCount c q != 0)) 4 + dma 0 + dma 1 + dma 2 + dma 3
    + bitIf (s.bit (R.COX_MEM_ERR c) 1) 9 + bitIf (s.reg (R.COX_DBELL_STAT c) != 0) 10 + bitIf (s.reg (R.LANE_CEVT c) != 0) 11
    + bitIf (s.fabric c) 12)

/-! ## Boathouse (R418, R433–R439) -/

/-- BH_UARTn_STAT: RXNE and TXE follow the FIFOs. -/
def State.uartStat (s : State) (n : Nat) : Word :=
  let u := s.bh.uarts.toList.getD n Uart.empty
  (s.reg (R.BH_UART_STAT n) &&& 0x1C) ||| BitVec.ofNat 16 (bitIf (!u.rx.isEmpty) 0 + bitIf u.tx.isEmpty 1)

/-- BH_SPI_STAT: BUSY while a frame waits. -/
def State.spiStat (s : State) : Word := (s.reg R.BH_SPI_STAT &&& 2) ||| BitVec.ofNat 16 (bitIf (!s.bh.spi.tx.isEmpty) 0)

/-- An enabled UART interrupt: received data, or room to send. -/
def State.uartIrq (s : State) (n : Nat) : Bool :=
  let w := s.uartStat n
  (w.getLsbD 0 && w.getLsbD 3) || (w.getLsbD 1 && w.getLsbD 4)

/-- BH_IP (R418): vectors 16–33 as bits 0–17. -/
def State.bhIp (s : State) : BitVec 32 :=
  let any := fun (n : Nat) (f : Nat → Bool) => (List.range n).any f
  BitVec.ofNat 32 (bitIf (s.time % 1000000 == 0) 0 + bitIf (s.bit R.BH_TMR_CTRL 1) 1 + bitIf s.bhFault 2
    + bitIf (s.gwAny && any 32 (fun p => s.reg (R.GW_EVT p) &&& s.reg (R.GW_IE p) != 0)) 3 + bitIf (s.reg R.PACE_EVT != 0) 4
    + bitIf (s.reg R.PWR_FLT != 0) 5 + bitIf (s.reg (R.BH_I3C_EVT 0) != 0) 6 + bitIf (s.reg (R.BH_I3C_EVT 1) != 0) 7
    + bitIf (s.uartIrq 0) 8 + bitIf (s.uartIrq 1) 9 + bitIf (s.bit R.BH_SPI_STAT 1) 10
    + bitIf (any 4 (fun n => s.bit (R.BH_TACH_STAT n) 0)) 11
    + bitIf (s.reg R.AIN_OPEN != 0 || s.reg R.AIN_SHORT != 0 || s.reg R.AIN_DONE != 0) 12
    + bitIf (s.reg R.LL_EVT &&& s.reg R.LL_IE != 0) 13 + bitIf (s.reg R.MIO_EVT != 0) 14
    + bitIf (s.reg R.BH_FL_STAT &&& 6 != 0) 15 + bitIf (s.reg R.BH_PROT_CAUSE != 0) 16 + bitIf (s.reg R.BH_DBELL_STAT != 0) 17)

/-- BH_COMMIT_STAT: STATE as GetPaceCommitment reports it (R430). -/
def State.commitState (s : State) : Nat :=
  if s.bh.prop.isSome then 1 else if s.bh.commit.isNone then 0 else if s.pwr.waiting.isSome then 2 else 3

/-- The function a pin has (R437, R438): F1 at reset. -/
def State.pinFn (s : State) (p : Nat) : Nat := mapGet (fun _ => 1) s.bh.mioFn p

/-- The pin is being switched. -/
def State.pinHeld (s : State) (p : Nat) : Option Bool := (s.bh.mioSwitch.find? (fun x => x.1 == p)).map Prod.snd

/-- The level a GPIO pin drives. -/
def State.gpioDrive (s : State) (p : Nat) : Option Bool :=
  let hi := p / 16
  let out := s.bit (if hi = 0 then R.MIO_OUT_LO else R.MIO_OUT_HI) (p % 16)
  if !(s.bit (if hi = 0 then R.MIO_OE_LO else R.MIO_OE_HI) (p % 16)) then none
  else if s.bit (R.MIO_FSEL p) 2 && out then none else some out

/-- The level of a PWM output (R436): high for DUTY ÷ 1,024 of its period. -/
def State.pwmLevel (s : State) (n : Nat) : Bool :=
  let x := s.bh.pwm.toList.getD n (4000, 1024, 0)
  let period := max 1 x.1.toNat * 10
  decide (1024 ≤ x.2.1.toNat) || decide ((s.uptime - x.2.2) % period * 1024 < period * x.2.1.toNat)

/-- TIMEPULSE: 1 µs from each whole second of system time. -/
def State.timePulse (s : State) : Bool := decide (s.time % 1000000000 < 1000)

/-- The level a pin's function drives; none for an input, an open-drain output that is released, and the lines whose wave forms
the model does not hold (log entry 44). -/
def State.fnDrive (s : State) (p : Nat) : Option Bool :=
  match s.pinFn p with
  | 0 => s.gpioDrive p
  | 1 =>
    if p = 8 then some (s.bit (R.BH_UART_CTRL 1) 4 && decide (64 ≤ (s.bh.uarts.toList.getD 1 Uart.empty).rx.length))
    else if p = 16 then some (s.pwmLevel 0) else if p = 17 then some (s.pwmLevel 1)
    else if p = 22 then (if s.bhFault || s.reg R.BH_PROT_CAUSE != 0 then some false else none) else none
  | 2 => if p = 14 ∨ p = 15 ∨ p = 22 then some s.timePulse else none
  | _ => none

/-- The level of a pin: the boundary register's in EXTEST and CLAMP, the keeper's during a switch, its function's, or what stands
on it from outside. (log entry 44, DESIGN CHOICE) -/
def State.pinLevel (s : State) (p : Nat) : Bool :=
  let outside := (Config.pins s.time).getLsbD p
  match s.bh.ir with
  | .extest => s.bh.bsr.getLsbD p
  | .clamp => s.bh.bsr.getLsbD p
  | .highz => outside
  | _ =>
    match s.pinHeld p with
    | some v => v
    | none => (s.fnDrive p).getD outside

/-- MIO_IN, both words. -/
def State.mioIn (s : State) : BitVec 32 := BitVec.ofNat 32 ((List.range 24).map (fun p => bitIf (s.pinLevel p) p)).sum

end Sys2Proof.Machine
end

