-- ==== Sys2Proof/Machine/RegRead.lean ====
section
/-! DEFINITION. Reads of register space (spec/02 R32–R58): which words answer, the value of every register word, the peek window,
bit aliases, snapshots of four-word quantities, and the side effects of an ordinary read. -/
namespace Sys2Proof.Machine

/-! ## Which words answer (R26, R63, R465, R466) -/

/-- A word of a crew's block answers: the identity words always (R27), the rest, its power words among them, while the crew is up
(R26, R63); COX_RSTSTAT through a crew reset. -/
def State.crewAnswers (s : State) (c o : Nat) : Bool :=
  o == 0xFFF0 || o == 0xFFF1 || s.crewUp c || (s.crewMem c && !s.warm && o == 0x3C01)

/-- A word of the device-global block answers. -/
def State.globAnswers (s : State) (o : Nat) : Bool :=
  if o < 0x1000 then !s.warm
  else if o < 0x3000 then s.meshUp
  else if o < 0x5000 then s.gwUp ((o - 0x3000) / 0x100)
  else if o < 0x7000 then s.meshUp
  else if o < 0x9000 then true
  else if o < 0xA000 then !s.warm
  else true

/-- A register word answers, by the address of its ordinary form (w:0xF000_0000–0xF7FF_FFFF). -/
def State.ordAnswers (s : State) (a : Nat) : Bool :=
  if a < 0xF0600000 then s.crewAnswers ((a - 0xF0000000) / 0x10000) ((a - 0xF0000000) % 0x10000)
  else if a < 0xF0700000 then s.globAnswers (a - 0xF0600000)
  else if a < 0xF1000000 then true
  else if a < 0xF1400000 then s.meshUp
  else if a < 0xF1800000 then s.gwAny
  else if a < 0xF1C00000 then s.meshUp
  else true

/-- The ordinary word that a bit-alias address names, and the bit (R52). -/
def aliasOf (a : Nat) : Nat × Nat := (0xF0000000 + (a - 0xF8000000) / 16, a % 16)

/-- The word of register space answers. -/
def State.answersAt (s : State) (a : Nat) : Bool :=
  if a < 0xF0000000 then true else if 0xF8000000 ≤ a then s.ordAnswers (aliasOf a).1 else s.ordAnswers a

/-! ## Values -/

/-- The value of a word of a crew's block. -/
def State.crewWord (s : State) (who : Requester) (c o a : Nat) : Word :=
  if s.crewScrub c && (decide (o < 0x80) || (decide (0x5000 ≤ o) && decide (o < 0x6000))) then 0
  else if o = 0x102 then s.coxIp c
  else if o = 0x108 then (s.qerrMask c).setWidth 16
  else if o = 0x109 then ((s.qerrMask c) >>> 16).setWidth 16
  else if o = 0x10A then s.seatsWord c
  else if 0x1000 ≤ o ∧ o < 0x1200 ∧ o % 16 = 5 then s.qStatWord c ((o - 0x1000) / 16)
  else if 0x2000 ≤ o ∧ o < 0x2800 then
    let n := (o - 0x2000) / 0x100
    let r := o % 0x100
    let k := s.core (.seat (crewOf c) (seatOf n))
    if r = 1 then s.seatStat c n
    else if r = 2 then (k.task.map (fun t => recWord t.words 9)).getD 0
    else if 0x10 ≤ r ∧ r < 0x58 ∧ k.mode = .stopped then k.accessWord r
    else 0
  else if o = 0x3D00 then s.coxFaultWord c
  else if o = 0x3E02 then BitVec.ofNat 16 (ccCount (s.cache c))
  else if o = 0x3E10 then s.hFind c
  else if o = 0x3E12 then mapGet (fun _ => 0) s.hcasRes (c * 98 + requesterKey who)
  else if 0x7040 ≤ o ∧ o < 0x7080 then
    let g := o - 0x7040
    s.reg a ||| BitVec.ofNat 16 (bitIf ((s.cgEarly g).any (fun k => crewNum (coreOf k) == c)) 9)
  else if o = 0x8001 then s.crewStatWord c
  else if o = 0xFFF0 then crewIdWord c
  else if o = 0xFFF1 then crewAttachWord c
  else s.reg a

/-- A word of a four-word quantity. -/
def quadWord (v : Nat) (k : Nat) : Word := BitVec.ofNat 16 (v / 2 ^ (16 * k))

/-- The value of a word of the device-global block. -/
def State.globWord (s : State) (o a : Nat) : Word :=
  if 0x30 ≤ o ∧ o < 0x34 then quadWord s.time (o - 0x30)
  else if 0x2040 ≤ o ∧ o < 0x2080 then
    let g := o - 0x2040
    s.reg a ||| BitVec.ofNat 16 (bitIf (s.cgLocal g) 8 + bitIf (s.cgWaits g) 9)
  else if 0x6000 ≤ o ∧ o < 0x6100 then
    let k := (o - 0x6000) / 16
    if o % 16 = 3 then s.slotStatWord k
    else if 8 ≤ o % 16 ∧ o % 16 < 14 then s.slotCrewsWord k (o % 16 - 8)
    else s.reg a
  else if o = 0x6101 then s.evtSumWord
  else if o = 0x9100 then s.fltStat
  else if 0x9108 ≤ o ∧ o < 0x910E then s.fltCrewWord (o - 0x9108)
  else if o = 0x9204 then
    (s.reg a &&& 0x0200) ||| BitVec.ofNat 16 (s.link.1 + s.link.2.1 * 8 + bitIf s.link.2.2 8)
  else s.reg a

/-- The byte a read of BH_UARTn_DATA returns, with its flags: the oldest received; a free value while there is none. -/
def State.uartHead (s : State) (n : Nat) : Word :=
  match (s.bh.uarts.toList.getD n Uart.empty).rx with
  | (v, f, p) :: _ => v.setWidth 16 ||| BitVec.ofNat 16 (bitIf f 8 + bitIf p 9)
  | [] => (Config.freeValue s.freeCtr).setWidth 16

/-- The byte a read of BH_I3Cn_RXF returns; a free value while there is none. -/
def State.i3cHead (s : State) (n : Nat) : Word :=
  match (s.bh.i3c.toList.getD n I3c.reset).rx with
  | v :: _ => v.setWidth 16
  | [] => (Config.freeValue s.freeCtr).setWidth 16

/-- The frame a read of BH_SPI_DATA returns; a free value while there is none. -/
def State.spiHead (s : State) : Word :=
  match s.bh.spi.rx with
  | v :: _ => v
  | [] => (Config.freeValue s.freeCtr).setWidth 16

/-- The value of a word of the boathouse block. -/
def State.bhWord (s : State) (o a : Nat) : Word :=
  if o = 2 then s.bhIp.setWidth 16
  else if o = 3 then (s.bhIp >>> 16).setWidth 16
  else if o = 0x31 then s.reg a ||| BitVec.ofNat 16 s.commitState
  else if o = 0x205 ∨ o = 0x285 then s.i3cHead ((o - 0x205) / 0x80)
  else if o = 0x302 ∨ o = 0x342 then s.uartHead ((o - 0x302) / 0x40)
  else if o = 0x303 ∨ o = 0x343 then s.uartStat ((o - 0x303) / 0x40)
  else if o = 0x381 then s.spiHead
  else if o = 0x382 then s.spiStat
  else if o = 0x2024 then s.mioIn.setWidth 16
  else if o = 0x2025 then (s.mioIn >>> 16).setWidth 16
  else s.reg a

/-- The value of an ordinary register word as any read returns it: a W1P or WO bit reads 0 (R10), a reserved word 0 (R36). -/
def State.ordWord (s : State) (who : Requester) (a : Nat) : Word :=
  match regRow a with
  | none => if 0xF060FFF8 ≤ a ∧ a ≤ 0xF060FFFF then featWord (a - 0xF060FFF8) else 0
  | some r =>
    (if a < 0xF0600000 then s.crewWord who ((a - 0xF0000000) / 0x10000) ((a - 0xF0000000) % 0x10000) a
     else if a < 0xF0700000 then s.globWord (a - 0xF0600000) a
     else if a < 0xF0800000 then s.bhWord (a - 0xF0700000) a
     else if 0xF1400000 ≤ a ∧ a < 0xF1400200 ∧ a % 2 = 1 then s.rtStatus ((a - 0xF1400000) / 2)
     else if 0xF1800000 ≤ a ∧ a % 2 = 0 then s.laneTableWord ((a - 0xF1800000) / 2)
     else s.reg a) &&& ~~~ (r.w1p ||| r.wo)

/-- The value of an ordinary or bit-alias word (R53). (log entry 24, DEDUCED) -/
def State.plainWord (s : State) (who : Requester) (a : Nat) : Word :=
  if 0xF8000000 ≤ a then (if (s.ordWord who (aliasOf a).1).getLsbD (aliasOf a).2 then 1 else 0) else s.ordWord who a

/-- The value of a word of register space, without side effects: a peek read of what does not answer is 0 (R62, R271). -/
def State.view (s : State) (who : Requester) (a : Nat) : Word :=
  if a < 0xF0000000 then
    (if a < 0xE0000000 then 0 else if s.answersAt (a + 0x10000000) then s.plainWord who (a + 0x10000000) else 0)
  else s.plainWord who a

/-! ## Ordinary reads (R10, R11, R45, R53) -/

/-- The first word of the four-word quantity a register word belongs to (R45). -/
def quadOf (a : Nat) : Option Nat :=
  let b := a - a % 4
  if [0xF0600020, 0xF0600024, 0xF0600030, 0xF060700C, 0xF0609210, 0xF0609218, 0xF070000C, 0xF070100C].contains b then some b else none

/-- The snapshot of a requester. -/
def State.snap (s : State) (who : Requester) (b : Nat) : List Word := mapGet (fun _ => []) s.snaps (b * 98 + requesterKey who)

/-- What an ordinary read of a word returns. -/
def State.readValue (s : State) (who : Requester) (a : Nat) : Word :=
  match quadOf a with
  | some b =>
    if a = b then s.ordWord who a
    else
      match (s.snap who b)[a - b - 1]? with
      | some v => v
      | none => s.ordWord who a
  | none => s.ordWord who a

/-- One side effect of an ordinary read: a byte or frame leaves its FIFO (R427, R433, R434). -/
def State.popFifo (s : State) (a : Nat) : State :=
  if a = R.BH_UART_DATA 0 ∨ a = R.BH_UART_DATA 1 then
    let n : Fin 2 := if a = R.BH_UART_DATA 0 then 0 else 1
    let u := s.bh.uarts.get n
    match u.rx with
    | _ :: rest => { s with bh := { s.bh with uarts := s.bh.uarts.set n { u with rx := rest } } }
    | [] => s.drawFree.2
  else if a = R.BH_I3C_RXF 0 ∨ a = R.BH_I3C_RXF 1 then
    let n : Fin 2 := if a = R.BH_I3C_RXF 0 then 0 else 1
    let u := s.bh.i3c.get n
    match u.rx with
    | _ :: rest => { s with bh := { s.bh with i3c := s.bh.i3c.set n { u with rx := rest } } }
    | [] => s.drawFree.2
  else if a = R.BH_SPI_DATA then
    match s.bh.spi.rx with
    | _ :: rest => { s with bh := { s.bh with spi := { s.bh.spi with rx := rest } } }
    | [] => s.drawFree.2
  else s

/-- The snapshot an ordinary read of word _0 takes (R45). -/
def State.takeSnap (s : State) (who : Requester) (a : Nat) : State :=
  match quadOf a with
  | some b =>
    if a = b then
      { s with snaps := mapSet (fun _ => []) s.snaps (b * 98 + requesterKey who)
                          [s.ordWord who (a + 1), s.ordWord who (a + 2), s.ordWord who (a + 3)] }
    else s
  | none => s

/-- RC bits of a word clear (R10). -/
def State.clearRc (s : State) (a : Nat) (m : Word) : State :=
  match regRow a with
  | some r => s.clrReg a (r.rc &&& m)
  | none => s

/-- The state after an ordinary read of a word. -/
def State.readEffect (s : State) (who : Requester) (a : Nat) : State := ((s.takeSnap who a).clearRc a 0xFFFF).popFifo a

/-- A read of one word of register space: the state after its side effects, and the value. -/
def State.readOne (s : State) (who : Requester) (a : Nat) : State × Word :=
  if a < 0xF0000000 then (s, s.view who a)
  else if 0xF8000000 ≤ a then (s.clearRc (aliasOf a).1 (BitVec.ofNat 16 (2 ^ (aliasOf a).2)), s.plainWord who a)
  else (s.readEffect who a, s.readValue who a)

/-- The host fault message goes out as the masked summary leaves zero (R359); looked at after register accesses and at ticks of
the timebase (log entry 42). -/
def State.faultEdge (s : State) : State :=
  let f := s.hostFault
  if f && !s.fltSeen then { s with fltSeen := true }.msix 0 0 else { s with fltSeen := f }

/-- A read of register space by a requester: the state after its side effects, and the data, or none for an error response; a
32-bit read takes LO, then HI (R43). -/
def State.readAny (s : State) (who : Requester) (a : Nat) (wide : Bool) : State × Option (BitVec 32) :=
  if s.answersAt a && (!wide || s.answersAt (a + 1)) then
    let r := s.readOne who a
    if wide then
      let q := r.1.readOne who (a + 1)
      (q.1.faultEdge, some (q.2 ++ r.2))
    else (r.1.faultEdge, some (r.2.setWidth 32))
  else (s, none)

end Sys2Proof.Machine
end

