-- ==== Sys2Proof/Machine/Fetch.lean ====
section
/-! DEFINITION. Instruction fetch (spec/06 R165, R177, R185) and the shared course of an instruction from issue to the next
(spec/04 R99, R101, R108, R112, R117, R118). -/
namespace Sys2Proof.Machine

/-! ## Fetch -/

/-- What a fetch finds: the word at pc; that it must wait; an address nothing is mapped at; or an error response to the fetch. -/
inductive Fetched where
  | word (w : BitVec 32)
  | wait
  | fault (a : Addr)
  | error
  deriving DecidableEq, Repr

/-- The instruction whose first word is word `o` of a block. -/
def insnAt (ws : List Word) (o : Nat) : Fetched := .word (ws.getD (o + 1) 0 ++ ws.getD o 0)

/-- The core with a line as the most recently used of its set in the L1 instruction cache (R184). -/
def Core.putI (k : Core) (l : Line) : Core :=
  { k with l1i := mapSet (fun _ => []) k.l1i (l1Set l.block)
                    ((l :: (mapGet (fun _ => []) k.l1i (l1Set l.block)).filter (fun e => e.block != l.block)).take 4) }

/-- The core without a line of its L1 instruction cache. -/
def Core.dropI (k : Core) (b : Nat) : Core :=
  { k with l1i := mapSet (fun _ => []) k.l1i (l1Set b) ((mapGet (fun _ => []) k.l1i (l1Set b)).filter (fun e => e.block != b)) }

/-- The line of a core's L1 instruction cache that holds a block. -/
def Core.lineI (k : Core) (b : Nat) : Option Line := (mapGet (fun _ => []) k.l1i (l1Set b)).find? (fun l => l.block == b)

/-- A line fetched through the L1 instruction cache, `fill` being how its 32 words are read. A line with a parity error in a word
fetched is dropped, fetched again and counted (R177). -/
def State.fetchLine (s : State) (c : CoreId) (b o : Nat) (fill : State → Got) : State × Fetched :=
  let fetchNew := fun (t : State) =>
    match fill t with
    | .words u ws => (u.setCore c ((u.core c).putI ⟨b, ws, 0, 0⟩), insnAt ws o)
    | .wait u => (u, .wait)
    | .error u _ => (u, .error)
  match (s.core c).lineI b with
  | some l =>
    if l.bad.getLsbD o || l.bad.getLsbD (o + 1) then fetchNew ((s.setCore c ((s.core c).dropI b)).noteParity c)
    else (s.setCore c ((s.core c).putI l), insnAt l.words o)
  | none => fetchNew s

/-- A fetch from the core's own seat memory, or of the boathouse core from its memory: through the fetch buffer of a seat (R165),
its two words for the boathouse core. -/
def State.fetchOwn (s : State) (c : CoreId) (w : Nat) : State × Fetched :=
  if isSeat c then
    let fill := fun (_ : Unit) =>
      let ws := (List.range 32).map (fun i => w / 32 * 32 + i)
      match s.readWords (crewNum c) ws with
      | (t, some vs) => (t.setCore c { t.core c with fbuf := some (w / 32, vs) }, insnAt vs (w % 32))
      | (t, none) => (t, .error)
    match (s.core c).fbuf with
    | some (b, vs) => if b = w / 32 then (s, insnAt vs (w % 32)) else fill ()
    | none => fill ()
  else
    match s.readWords (crewNum c) [w, w + 1] with
    | (t, some vs) => (t, insnAt vs 0)
    | (t, none) => (t, .error)

/-- A word of flash or boot ROM (R416, R423). (log entry 6, DESIGN CHOICE) -/
def State.flashWord (s : State) (byte : Nat) : Word :=
  (mapGet flashDefault s.flash (byte + 1)) ++ (mapGet flashDefault s.flash byte)

/-- The requester of register space a core is; a seat is none, and never gets here (R38). -/
def coreRequester (c : CoreId) : Requester :=
  match c with
  | .seat crew _ => .cox crew
  | .cox crew => .cox crew
  | .boathouse => .boathouse

/-- Register accesses of a core are under way on the control network: what follows in register space waits for them (R48). -/
def State.ctlBusy (s : State) (c : CoreId) : Bool :=
  s.ctl.any (fun t => t.who == coreRequester c && (match t.kind with | .core _ _ _ _ => true | _ => false))

/-- The words of a block of register space, as a fetch reads them; a word that does not answer reads 0 unless the instruction lies
there. -/
def State.regBlock (s : State) (c : CoreId) (b : Nat) (need : List Nat) : Got :=
  if s.ctlBusy c then .wait s
  else
    match need.find? (fun a => !(s.answersAt a)) with
    | some a => .error s a
    | none =>
      let r := (List.range 32).foldl (fun (p : State × List Word) i =>
        match p.1.readAny (coreRequester c) (b * 32 + i) false with
        | (t, some v) => (t, p.2 ++ [v.setWidth 16])
        | (t, none) => (t, p.2 ++ [0])) (s, [])
      .words r.1 r.2

/-- The fetch of the instruction at pc (R165, R185): a seat's own memory through its fetch buffer, every other address of a seat or
control core through its L1 instruction cache, whatever lies there. (log entry 21, DESIGN CHOICE) -/
def State.fetch (s : State) (c : CoreId) : State × Fetched :=
  let pc := (s.core c).pc
  let n := pc.toNat
  match s.access c n false, s.access c (n + 1) false with
  | .mem w, .mem _ =>
    if cacheable c w then s.fetchLine c (blockOf n w) (w % 32) (fun t => t.blockWords c .insn (blockOf n w)) else s.fetchOwn c w
  | .flash b, .flash _ => (s, insnAt [s.flashWord b, s.flashWord (b + 2)] 0)
  | .rom w, .rom _ => (s, insnAt [Config.bootRom w, Config.bootRom (w + 1)] 0)
  | .reg _, .reg _ =>
    if isCox c then s.fetchLine c (n / 32) (n % 32) (fun t => t.regBlock c (n / 32) [n, n + 1])
    else
      if s.ctlBusy c then (s, .wait)
      else
        match s.readAny (coreRequester c) n true with
        | (t, some v) => (t, .word v)
        | (t, none) => (t, .error)
  | .unmapped, _ => (s, .fault pc)
  | _, _ => (s, .fault (pc + 1))

/-- A fetch met an error response (R176): an imprecise report of its address, held while EXL is 1 (R126). -/
def State.fetchError (s : State) (c : CoreId) : State :=
  let k := s.core c
  if !(isSeat c) && cstExl k.cst then (if k.held.contains k.pc then s else s.setCore c { k with held := k.held ++ [k.pc] })
  else s.raise c (accessCode c) true k.pc k.pc

/-! ## The course of an instruction -/

/-- What the shared course needs to know of an instruction: its word, the w, a, v and p registers it reads or writes (interlocks,
R112, R158), which cores implement it (R99), and whether it is one of those that may not end a loop body (R118). -/
structure Insn where
  word     : BitVec 32
  ws       : List (Fin 16) := []
  as       : List (Fin 8) := []
  vs       : List (Fin 16) := []
  onSeat   : Bool := true
  onCox    : Bool := true
  onBh     : Bool := true
  transfer : Bool := false

/-- How the body of an instruction ends: done; done with a control transfer; an exception at the instruction or at the next one; not
yet complete, in the state given; or held back with nothing changed. -/
inductive Res where
  | done (s : State)
  | jump (s : State) (pc : Addr)
  | exc (s : State) (code : Nat) (eval : Addr)
  | excNext (s : State) (code : Nat) (eval : Addr)
  | wait (s : State)
  | stall

/-- The core executes instructions: running, not waiting, no stop due, not locked up, and its crew is up (R26). -/
def State.issues (s : State) (c : CoreId) : Bool :=
  let k := s.core c
  k.mode == .running && k.wait.isNone && !k.lockup && !k.stopReq && k.stopping.isNone &&
    (match coreCrew c with | some n => s.crewUp n | none => true)

/-- An instruction implemented on the core (R99). -/
def Insn.on (i : Insn) (c : CoreId) : Bool :=
  match c with | .seat _ _ => i.onSeat | .cox _ => i.onCox | .boathouse => i.onBh

/-- Vector registers an operation in the execution queues still has to write (R158). -/
def Core.vPending (k : Core) (r : Fin 16) : Bool :=
  k.tileQ.any (fun q => match q.2 with | .vmovt d _ _ => d == r | _ => false) ||
  k.matQ.any (fun q => match q.2 with | .zmovr d _ _ => d == r | _ => false)

/-- The instruction waits for a register: a load of it is outstanding (R112), or a queued operation still has to write
it (R158). -/
def Insn.blocked (i : Insn) (k : Core) : Bool :=
  i.ws.any (fun r => k.busyW.getLsbD r.val) || i.as.any (fun r => k.busyA.getLsbD r.val) || i.vs.any k.vPending

/-- The course of an instruction: nothing happens on a core that does not execute, nor by a command that names another instruction
than the one fetched. A word that encodes no instruction raises ILLEGAL, whatever the command (R14, R108). Then interlocks, the
checks common to all instructions, and the body, whose end decides what becomes of the pc (R101, R117, R125). An instruction at LE
that may not stand there is ILLEGAL before it can be PRIV (log entry 70). (log entry 21, DESIGN CHOICE) -/
def State.runInsn (s : State) (c : CoreId) (i : Insn) (body : State → Res) : State :=
  if s.issues c then
    match s.fetch c with
    | (s1, .wait) => s1
    | (s1, .fault a) => s1.raise c (accessCode c) false (s.core c).pc a
    | (s1, .error) => s1.fetchError c
    | (s1, .word w) =>
      let k := s1.core c
      if w ≠ i.word then (if assigned w then s else s1.raise c 1 false k.pc w)
      else if i.blocked k then s
      else if !(i.on c) then s1.raise c 1 false k.pc i.word
      else if i.transfer && atLoopEnd k then s1.raise c 1 false k.pc i.word
      else
        match body s1 with
        | .done s2 => s2.complete c (cstSs k.cst)
        | .jump s2 pc => if pc.getLsbD 0 then s1.raise c 5 false k.pc pc else s2.completeAt c pc (cstSs k.cst)
        | .exc s2 code eval => s2.raise c code false k.pc eval
        | .excNext s2 code eval => s2.raise c code false (k.pc + 2) eval
        | .wait s2 => s2
        | .stall => s
  else s

/-- An instruction that acts on the registers of its core alone. -/
def State.regInsn (s : State) (c : CoreId) (i : Insn) (f : Core → Core) : State :=
  s.runInsn c i (fun t => .done (t.setCore c (f (t.core c))))

end Sys2Proof.Machine
end

