-- ==== Sys2Proof/Machine/Operands.lean ====
section
/-! DEFINITION. Operand forms of loads and stores (spec/04 R111, spec/05 R142). -/
namespace Sys2Proof.Machine

/-- The effective address: aB + OFF when WB = 0, aB when WB = 1. -/
def effAddr (base : Addr) (wb : Bool) (off : BitVec 12) : Addr := if wb then base else base + off.signExtend 32

/-- The base register after the access: aB + OFF when WB = 1. -/
def Core.writeBase (k : Core) (b : Fin 8) (wb : Bool) (off : BitVec 12) : Core :=
  if wb then k.setA b (k.ra b + off.signExtend 32) else k

/-- A stride register w8–w15 of a tile access. -/
def tileStrideReg (r : Fin 8) : Fin 16 := ⟨8 + r.val, by omega⟩

/-- The stride of a tile or accumulator access in words (R142): a register, unsigned, or the immediate. -/
def Core.tileStride (k : Core) (t : TileStride) : Addr :=
  match t with
  | .reg r _ => (k.rw (tileStrideReg r)).setWidth 32
  | .imm n => n.setWidth 32

/-- The effective address of a tile or accumulator access (R142). -/
def Core.tileEa (k : Core) (b : Fin 8) (wb : Bool) (t : TileStride) : Addr :=
  match t with
  | .reg _ off => effAddr (k.ra b) wb off
  | .imm _ => k.ra b

/-- The base register after a tile or accumulator access with WB = 1: aB + OFF, or aB + 16 × stride (R142). -/
def Core.tileWriteBase (k : Core) (b : Fin 8) (wb : Bool) (t : TileStride) : Core :=
  match t with
  | .reg _ off => k.writeBase b wb off
  | .imm n => if wb then k.setA b (k.ra b + 16 * n.setWidth 32) else k

/-- Element r, c addresses: row r begins at EA + r × stride, with `n` consecutive words (R137, R139). -/
def tileAddrs (ea stride : Addr) (n : Nat) : List Addr :=
  (List.range 16).flatMap (fun r => (List.range n).map (fun c => ea + BitVec.ofNat 32 r * stride + BitVec.ofNat 32 c))

end Sys2Proof.Machine
end

