-- ==== Sys2Proof/Machine/CoreMem.lean ====
section
/-! DEFINITION. Loads and stores of a core (spec/04 R111–R113, spec/06 R184–R195): through the L1 data cache, to the own
seat memory, to register space over the control network, with outstanding misses held until their line returns. -/
namespace Sys2Proof.Machine

/-- How an access of a core ends: carried out (or under way), held back until there is room, or refused precisely. -/
inductive AccRes where
  | ok (s : State)
  | stall
  | fault (code : Nat) (addr : Addr)

/-- A register a load writes. -/
def Core.deliver (k : Core) (dst : LoadDst) (v : BitVec 32) : Core :=
  match dst with
  | .w r => k.setW r (v.setWidth 16)
  | .a r => k.setA r v

/-- The core with a load to a register outstanding (R112). -/
def Core.await (k : Core) (dst : LoadDst) : Core :=
  match dst with
  | .w r => { k with busyW := k.busyW ||| BitVec.ofNat 16 (2 ^ r.val) }
  | .a r => { k with busyA := k.busyA ||| BitVec.ofNat 8 (2 ^ r.val) }

/-- The core with no load to a register outstanding. -/
def Core.unawait (k : Core) (dst : LoadDst) : Core :=
  match dst with
  | .w r => { k with busyW := k.busyW &&& ~~~ BitVec.ofNat 16 (2 ^ r.val) }
  | .a r => { k with busyA := k.busyA &&& ~~~ BitVec.ofNat 8 (2 ^ r.val) }

/-- The operations an access hangs on a miss: a load of one register, or the stored words. -/
def missLoad (dst : LoadDst) (off : Nat) : List MissOp := [.load dst off]

/-- The stored words of a store, low word first. -/
def missStore (off : Nat) (wide : Bool) (v : BitVec 32) : List MissOp :=
  if wide then [.store off (v.setWidth 16), .store (off + 1) ((v >>> 16).setWidth 16)] else [.store off (v.setWidth 16)]

/-- The requests a read has sent, its outcome left aside. -/
def Got.sent (r : Got) (s : State) : State := match r with | .wait t => t | _ => s

/-- An access joins the outstanding miss of its block, or starts one: the crew cache is looked up (R191), and reads go out for what
other crews hold. A ninth miss stalls (R112), and a miss that the mesh has no room for (R266). -/
def State.addMiss (s : State) (c : CoreId) (a w : Nat) (ops : List MissOp) : AccRes :=
  let k := s.core c
  let b := blockOf a w
  if k.misses.any (fun m => m.block == b) then
    .ok (s.setCore c { k with misses := k.misses.map (fun m => if m.block == b then { m with ops := m.ops ++ ops } else m) })
  else if 8 ≤ k.misses.length then .stall
  else
    let t := s.ccLine c b
    if t.2.isNone && !(nearTo c w) && s.coreClogged c then .stall
    else
      let s1 := t.1.setCore c { t.1.core c with misses := (t.1.core c).misses ++ [⟨b, ops, t.2⟩] }
      .ok (if t.2.isNone then (s1.blockWords c .miss b).sent s1 else s1)

/-- A transaction enters the control network (R269). -/
def State.pushCtl (s : State) (who : Requester) (k : CtlKind) : State := { s with ctl := s.ctl ++ [⟨who, k, 0, []⟩] }

/-- The transaction reads for a register of its core. -/
def CtlTxn.readsReg (t : CtlTxn) : Bool := match t.kind with | .core _ _ none _ => true | _ => false

/-- Two lists share an element. -/
def meets {α : Type} [BEq α] (x y : List α) : Bool := x.any (fun a => y.contains a)

/-- The addresses of a transfer of the tile path; none for an operation on registers. -/
def TileOp.addrs (o : TileOp) : List Addr :=
  match o with
  | .tld _ ea st => tileAddrs ea st 16
  | .tst _ ea st => tileAddrs ea st 16
  | .zld _ ea st => tileAddrs ea st 32
  | .zst _ ea st => tileAddrs ea st 32
  | _ => []

/-- A transfer of the tile path stores. -/
def TileOp.stores (o : TileOp) : Bool := match o with | .tst _ _ _ => true | .zst _ _ _ => true | _ => false

/-- An access must wait: for an earlier transfer of the tile path that touches one of its words, any access for a store, a store for
any transfer (R113, R158 point 6); or for the zeroing of a cache storage range (R194). -/
def State.behindTile (s : State) (c : CoreId) (write : Bool) (as : List Addr) : Bool :=
  as.any (fun a => ((s.named c a.toNat).map s.zeroing).getD false) || (s.core c).tileQ.any (fun q => (write || q.2.stores) &&
    meets (as.map (fun a => s.resolve c a.toNat)) (q.2.addrs.map (fun a => s.resolve c a.toNat)))

/-- The offsets in a block of the word, or the two words, of an access. -/
def wordsOf (w : Nat) (wide : Bool) : List Nat := if wide then [w % 32, w % 32 + 1] else [w % 32]

/-- A load (R111, R112): data at once from the own seat memory, from a hitting line and from the boathouse's memories;
else it is outstanding. -/
def State.loadAt (s : State) (c : CoreId) (a : Addr) (wide : Bool) (dst : LoadDst) : AccRes :=
  let n := a.toNat
  if wide && a.getLsbD 0 then .fault 5 a
  else if s.behindTile c false (a :: if wide then [a + 1] else []) then .stall
  else
    match s.access c n false, s.access c (n + if wide then 1 else 0) false with
    | .mem w, .mem w1 =>
      if cacheable c w then
        match s.lookup c (blockOf n w) (wordsOf w wide) with
        | (s1, .hit l) =>
          let v := if wide then l.get (w % 32 + 1) ++ l.get (w % 32) else (l.get (w % 32)).setWidth 32
          .ok (s1.setCore c ((s1.core c).deliver dst v))
        | (s1, .error) => .ok (s1.pushErr c a)
        | (s1, .miss) =>
          match s1.addMiss c n w (missLoad dst (w % 32)) with
          | .ok s2 => .ok (s2.setCore c ((s2.core c).await dst))
          | r => r
      else
        match s.readWords (crewNum c) (if wide then [w, w1] else [w]) with
        | (s1, some (x :: rest)) => .ok (s1.setCore c ((s1.core c).deliver dst (rest.headD 0 ++ x)))
        | (s1, _) => .ok (s1.pushErr c a)
    | .reg r, .reg _ =>
      .ok ((s.pushCtl (coreRequester c) (.core (BitVec.ofNat 32 r) wide none (some dst))).setCore c ((s.core c).await dst))
    | .flash b, .flash _ =>
      .ok (s.setCore c ((s.core c).deliver dst
        (if wide then s.flashWord (b + 2) ++ s.flashWord b else (s.flashWord b).setWidth 32)))
    | .rom w, .rom _ =>
      .ok (s.setCore c ((s.core c).deliver dst
        (if wide then Config.bootRom (w + 1) ++ Config.bootRom w else (Config.bootRom w).setWidth 32)))
    | .unmapped, _ => .fault (accessCode c) a
    | _, _ => .fault (accessCode c) (a + 1)

/-- A store (R111): at once to the own seat memory, to a hitting line and to boathouse memory; a miss holds it until
its line is filled (R187); to register space it is posted (R48). -/
def State.storeAt (s : State) (c : CoreId) (a : Addr) (wide : Bool) (v : BitVec 32) : AccRes :=
  let n := a.toNat
  if wide && a.getLsbD 0 then .fault 5 a
  else if s.behindTile c true (a :: if wide then [a + 1] else []) then .stall
  else
    match s.access c n true, s.access c (n + if wide then 1 else 0) true with
    | .mem w, .mem w1 =>
      if cacheable c w then
        match s.lookup c (blockOf n w) (wordsOf w wide) with
        | (s1, .hit l) =>
          let l1 := l.put (w % 32) (v.setWidth 16)
          .ok (s1.setCore c ((s1.core c).putLine (if wide then l1.put (w % 32 + 1) ((v >>> 16).setWidth 16) else l1)))
        | (s1, .error) => .ok (s1.pushErr c a)
        | (s1, .miss) => s1.addMiss c n w (missStore (w % 32) wide v)
      else .ok (s.writeWords (if wide then [(w, v.setWidth 16), (w1, (v >>> 16).setWidth 16)] else [(w, v.setWidth 16)]))
    | .reg r, .reg _ => .ok (s.pushCtl (coreRequester c) (.core (BitVec.ofNat 32 r) wide (some v) none))
    | .unmapped, _ => .fault (accessCode c) a
    | _, _ => .fault (accessCode c) (a + 1)

/-- How a read that an instruction must wait for ends: data; not yet, in the state given; held back with nothing changed; refused
before it issues; or an error response (R126). -/
inductive NowRes where
  | ok (s : State) (v : BitVec 32)
  | wait (s : State)
  | stall
  | fault (s : State) (code : Nat) (addr : Addr)
  | error (s : State) (addr : Addr)

/-- A read that its instruction cannot complete without (R126: RET, LREST, an element of a block repeat): a line that is missing is
brought in, and a read of register space follows the core's earlier accesses there (R48, R163). (log entry 17, DESIGN CHOICE) -/
def State.loadNow (s : State) (c : CoreId) (a : Addr) (wide : Bool) : NowRes :=
  let n := a.toNat
  if wide && a.getLsbD 0 then .fault s 5 a
  else if s.behindTile c false (a :: if wide then [a + 1] else []) then .stall
  else
    match s.access c n false, s.access c (n + if wide then 1 else 0) false with
    | .mem w, .mem w1 =>
      if cacheable c w then
        if (s.core c).misses.any (fun m => m.block == blockOf n w) then .stall
        else
          match s.lookup c (blockOf n w) (wordsOf w wide) with
          | (s1, .hit l) => .ok s1 (if wide then l.get (w % 32 + 1) ++ l.get (w % 32) else (l.get (w % 32)).setWidth 32)
          | (s1, .error) => .error s1 a
          | (s1, .miss) =>
            match s1.fillNow c (blockOf n w) with
            | .words t ws => .ok t (if wide then ws.getD (w % 32 + 1) 0 ++ ws.getD (w % 32) 0 else (ws.getD (w % 32) 0).setWidth 32)
            | .wait t => .wait t
            | .error t _ => .error t a
      else
        match s.readWords (crewNum c) (if wide then [w, w1] else [w]) with
        | (s1, some (x :: rest)) => .ok s1 (rest.headD 0 ++ x)
        | (s1, _) => .error s1 a
    | .reg r, .reg _ =>
      if s.ctlBusy c then .stall
      else
        match s.readAny (coreRequester c) r wide with
        | (s1, some v) => .ok s1 v
        | (s1, none) => .error s1 a
    | .flash b, .flash _ => .ok s (if wide then s.flashWord (b + 2) ++ s.flashWord b else (s.flashWord b).setWidth 32)
    | .rom w, .rom _ => .ok s (if wide then Config.bootRom (w + 1) ++ Config.bootRom w else (Config.bootRom w).setWidth 32)
    | .unmapped, _ => .fault s (accessCode c) a
    | _, _ => .fault s (accessCode c) (a + 1)

/-- The end of an instruction whose read has not given it data: it waits, is held back, or takes the failure precisely (R126). -/
def NowRes.fails (r : NowRes) (c : CoreId) : Res :=
  match r with
  | .ok s _ => .wait s
  | .wait s => .wait s
  | .stall => .stall
  | .fault s code a => .exc s code a
  | .error s a => .exc s (accessCode c) a

/-- Every load and write-back of a core is complete at its target (R114 CSYNC, R190, R264): no miss, nothing returning,
no write without its acknowledgement, no register read under way, no transfer in the tile path. -/
def State.memIdle (s : State) (c : CoreId) : Bool :=
  (s.core c).misses.isEmpty && (s.core c).returned.isEmpty &&
  !((s.writesOf c).any Prod.snd) &&
  (isSeat c || !(s.ctl.any (fun t => t.who == coreRequester c && t.readsReg))) &&
  (s.core c).tileQ.all (fun q => q.2.addrs.isEmpty)

/-- The words of a seat's fetch buffer are fetched again (R196: stored code is seen after CSYNC). -/
def State.refetch (s : State) (c : CoreId) : State := s.setCore c { s.core c with fbuf := none }

/-- A CSYNC that waits completes once the core's accesses are complete. -/
def State.csyncCheck (s : State) (c : CoreId) : State :=
  if (s.core c).wait == some .csync && s.memIdle c then (s.refetch c).complete c (cstSs (s.core c).cst) else s

/-! ## Lines (R187, R188) -/

/-- The block a core's cache would hold an address under (R161). -/
def lineBlock (c : CoreId) (a : Nat) : Nat :=
  match c with
  | .seat crew st =>
    if a < 0x20000 then (seatBase (crew.val * 8 + st.val) + a) / 32
    else if 0x100000 ≤ a ∧ a < 0x900000 then (storeBase crew.val + (a - 0x100000)) / 32
    else a / 32
  | .cox crew => if 0x100000 ≤ a ∧ a < 0x900000 then (storeBase crew.val + (a - 0x100000)) / 32 else a / 32
  | .boathouse => a / 32

/-- CFLUSH of one line: masked words written, the line left clean (R187); a parity error drops it (R177). -/
def State.flushLine (s : State) (c : CoreId) (block : Nat) : State :=
  match (s.core c).line block with
  | none => s
  | some l =>
    if l.dirty = 0 then s
    else
      let s1 := s.writeBack c l
      if l.dirty &&& l.bad = 0 then
        let ls := (mapGet (fun _ => []) (s1.core c).l1d (l1Set block)).map (fun m =>
          if m.block == block then { m with dirty := 0 } else m)
        s1.setCore c { s1.core c with l1d := mapSet (fun _ => []) (s1.core c).l1d (l1Set block) ls }
      else s1.setCore c ((s1.core c).dropLine block)

/-- The blocks of a core's dirty lines. -/
def Core.dirtyBlocks (k : Core) : List Nat :=
  k.l1d.flatMap (fun p => (p.2.filter (fun l => l.dirty != 0)).map Line.block)

/-- What the operations waiting for a line make of it: data for the loads, in order, and the line with the stores. -/
def applyMissOps : List MissOp → Line → List Returned → Line × List Returned
  | [], l, r => (l, r)
  | .load (.w d) o :: ops, l, r => applyMissOps ops l (r ++ [⟨.w d, (l.get o).setWidth 32⟩])
  | .load (.a d) o :: ops, l, r => applyMissOps ops l (r ++ [⟨.a d, l.get (o + 1) ++ l.get o⟩])
  | .store o v :: ops, l, r => applyMissOps ops (l.put o v) r

/-- An access that waited for a line whose fill failed: it is reported, and its register is free again (R126, R187). -/
def State.failOp (s : State) (c : CoreId) (block : Nat) (op : MissOp) : State :=
  match op with
  | .load d o => (s.setCore c ((s.core c).unawait d)).pushErr c (BitVec.ofNat 32 (block * 32 + o))
  | .store o _ => s.pushErr c (BitVec.ofNat 32 (block * 32 + o))

/-- The fill of a miss returns (R187): its line is installed, its loads have their data, its stores are merged; on an
error response the line is not allocated and each access is reported (R126). -/
def State.fillWith (s : State) (c : CoreId) (m : Miss) (words : Option (List Word)) : State :=
  let k := s.core c
  let s0 := s.setCore c { k with misses := k.misses.filter (fun x => x.block != m.block) }
  let s1 := match words with
    | some ws =>
      let r := applyMissOps m.ops ⟨m.block, ws, 0, 0⟩ []
      let t := s0.install c r.1
      t.setCore c { t.core c with returned := (t.core c).returned ++ r.2 }
    | none =>
      m.ops.foldl (fun t op => t.failOp c m.block op) s0
  s1.csyncCheck c

/-- LINE_FILL: the n-th outstanding miss of a core is filled, from the crew cache's line, from its own crew's memory and from the
data that came over the mesh. A fill whose data are still on the mesh waits. -/
def State.lineFill (s : State) (c : CoreId) (n : Nat) : State :=
  match (s.core c).misses[n]? with
  | none => s
  | some m =>
    match m.data with
    | some ws => s.fillWith c m (some ws)
    | none =>
      match s.blockWords c .miss m.block with
      | .words t ws => t.fillWith c m (some ws)
      | .wait t => t
      | .error t _ => t.fillWith c m none

/-- A miss is outstanding for the block of a line instruction, or a transfer of the tile path still has to store there: CFLUSH and CINV
follow them (R113, R187). -/
def State.lineBusy (s : State) (c : CoreId) (block : Nat) : Bool :=
  (s.core c).misses.any (fun m => m.block == block) ||
    s.behindTile c false ((List.range 32).map (fun i => BitVec.ofNat 32 (block * 32 + i)))

/-- The same, for every line. -/
def State.cacheBusy (s : State) (c : CoreId) : Bool :=
  !((s.core c).misses.isEmpty) || (s.core c).tileQ.any (fun q => q.2.stores)

end Sys2Proof.Machine
end

