-- ==== Sys2Proof/Machine/Mesh.lean ====
section
/-! DEFINITION. The bulk mesh (spec/09 R253–R268): routing, arbitration by priority and age, and what a packet does at
its target. Outputs are numbered N, E, S, W, L, A, H (0–6), as MESH_BUSY numbers them; inputs L, A, H, N, E, S, W. -/
namespace Sys2Proof.Machine
open Host

/-- The output a packet takes at a router: requests X then Y, responses Y then X (R256). -/
def routeOut (r : Nat) (p : Packet) : Nat :=
  let x := r % 12
  let y := r / 12
  let dx := p.dst % 12
  let dy := p.dst / 12
  let goX := if x < dx then 1 else 3
  let goY := if y < dy then 2 else 0
  if r = p.dst then (match p.exit with | .crew => 4 | .port => 5 | .host => 6)
  else if p.vc = 0 then (if x ≠ dx then goX else goY)
  else (if y ≠ dy then goY else goX)

/-- The router and the input that an output joins. -/
def linkEnd (r out : Nat) : Nat × Nat :=
  match out with
  | 0 => (r - 12, 5)
  | 1 => (r + 1, 6)
  | 2 => (r + 12, 3)
  | _ => (r - 1, 4)

/-- AGE: mesh cycles since injection, saturating (R254). -/
def State.pktAge (s : State) (p : Packet) : Nat := min 65535 ((s.time - p.born) * 2)

/-- Where the answer to a packet leaves the mesh. -/
def MeshReq.exit (q : MeshReq) : MeshExit := match q.input with | 0 => .crew | 1 => .port | _ => .host

/-- The answer to a request, injected at a router (R258: with the request's priority). -/
def State.answer (s : State) (r : Nat) (p : Packet) (kind : PktKind) (cause : PktCause) (addr : Nat) (words : List (Nat × Word))
    (poison : Bool) : State :=
  s.inject r 0 1
    { kind := kind, dst := p.src, exit := p.req.exit, src := r, req := p.req, prio := p.prio, born := s.time, addr := addr
      len := p.len, lane := p.lane, tag := p.tag, poison := poison, cause := cause, words := words }

/-! ## Packets at their crew (R255, R264, R386) -/

/-- The packets that have reached a crew, oldest first. -/
def State.arrived (s : State) (r : Nat) : List Packet := mapGet (fun _ => []) s.exits r

/-- A packet leaves those that have reached a crew. -/
def State.leaveExit (s : State) (r : Nat) (p : Packet) : State := { s with exits := mapSet (fun _ => []) s.exits r ((s.arrived r).erase p) }

/-- The oldest request that has reached a crew, if it is of a kind: requests are served in the order of their arrival (R263). -/
def State.oldestRequest (s : State) (r : Nat) (kind : PktKind) : Option Packet :=
  ((s.arrived r).find? (fun p => p.vc == 0)).filter (fun p => p.kind == kind)

/-- The slot of a word's crew is HELD. -/
def State.wordHeld (s : State) (w : Nat) : Bool := s.crewAssigned (memCrew w) && s.slotState (s.crewSlot (memCrew w)) == 4

/-- A word that a packet may reach: mapped; or of a lane killed since, for a write accepted before (R385, R386), and for a read of
the host in HELD (R389). -/
def State.pktMay (s : State) (p : Packet) (w : Nat) : Bool :=
  s.globalPlace w == .mem w || (p.accepted && !(s.inCacheRange w) && (p.kind == .write || (p.req == .host && s.wordHeld w)))

/-- The words a packet reads or writes. -/
def Packet.touches (p : Packet) : List Nat := if p.kind = .write then p.words.map Prod.fst else (List.range p.len).map (fun i => p.addr + i)

/-- The packet waits at its crew: the crew has no power, or a word is being zeroed (R194). -/
def State.pktWaits (s : State) (r : Nat) (p : Packet) : Bool := !(s.crewMem r) || p.touches.any s.zeroing

/-- A write packet at its crew: its words take effect and it is acknowledged; a poisoned one is discarded, and words no memory answers
for make an error response (R255, R264, R386). A line written back into a cache storage range is lost, with LOSTWB (R195). -/
def State.meshWriteAt (s : State) (r : Nat) (p : Packet) : State :=
  if p.poison then s.answer r p .error .poisoned p.addr [] false
  else
    let good := p.words.filter (fun w => s.pktMay p w.1)
    let s1 := (s.writeWords good).bankUse 21 true (good.map Prod.fst)
    match p.words.find? (fun w => !(s.pktMay p w.1)) with
    | none => s1.answer r p .writeAck .none p.addr [] false
    | some w =>
      let s2 := if p.back && s.inCacheRange w.1 then s1.orReg (R.COX_CC_STAT (memCrew w.1)) 4 else s1
      s2.answer r p .error .unmapped w.1 [] false

/-- MESH_WRITE: the oldest request that has reached a crew, a write. -/
def execMeshWrite (router : Fin 96) (s : State) : Outcome State Fault Refusal :=
  .next (match s.oldestRequest router.val .write with
    | some p => if s.pktWaits router.val p then s else (s.leaveExit router.val p).meshWriteAt router.val p
    | none => s)

/-- A read packet at its crew, which returns its words, or an error (R176, R255); the host gets the words of an uncorrectable error
marked poisoned (R62). -/
def State.meshReadAt (s : State) (r : Nat) (p : Packet) : State :=
  let ws := (List.range p.len).map (fun i => p.addr + i)
  if p.poison then s.answer r p .error .poisoned p.addr [] false
  else
    match ws.find? (fun w => !(s.pktMay p w)) with
    | some w => s.answer r p .error .unmapped w [] false
    | none =>
      match (s.bankUse 21 false ws).readWords r ws with
      | (s1, some vs) => s1.answer r p .readData .none p.addr (ws.zip vs) false
      | (s1, none) =>
        let bad := (ws.find? (fun w => s.eccTwo.contains w)).getD p.addr
        if p.req == .host then s1.answer r p .readData .memErr bad (ws.map (fun w => (w, s1.word w))) true
        else s1.answer r p .error .memErr bad [] false

/-- MESH_READ: the oldest request that has reached a crew, a read. -/
def execMeshRead (router : Fin 96) (s : State) : Outcome State Fault Refusal :=
  .next (match s.oldestRequest router.val .read with
    | some p => if s.pktWaits router.val p then s else (s.leaveExit router.val p).meshReadAt router.val p
    | none => s)

/-- The answer to a write of a core that has reached its crew. -/
def State.coreAck (s : State) (r : Nat) : Option (CoreId × Packet) :=
  (s.arrived r).findSome? (fun p => match p.req with
    | .core c => if (p.kind == .writeAck || p.kind == .error) && (s.writesOf c).any (fun w => w.1 == p.tag) then some (c, p) else none
    | _ => none)

/-- WRITE_ACKNOWLEDGE: the acknowledgement, or the error response, of a core's write reaches its crew: the write counts
complete, and an error is reported to a core that still counts it as its own (R126, R264). -/
def execWriteAcknowledge (router : Fin 96) (s : State) : Outcome State Fault Refusal :=
  .next (match s.coreAck router.val with
    | none => s
    | some (c, p) =>
      let mine := (s.writesOf c).any (fun w => w.1 == p.tag && w.2)
      let s1 := s.leaveExit router.val p
      let s2 := { s1 with outWrites := mapSet (fun _ => []) s1.outWrites (coreKey c)
                                        ((s.writesOf c).eraseP (fun w => w.1 == p.tag)) }
      let s3 := if p.kind == .error && mine then s2.pushErr c (BitVec.ofNat 32 p.addr) else s2
      s3.csyncCheck c)

/-! ## Memory accesses of the host interface and the remote-access logic -/

/-- The packets that read or write some words for a requester (R254, R257): one for each run of words of one crew. -/
def State.packetsFor (s : State) (q : MeshReq) (tag lane : Nat) (write : Bool) (ws : List (Nat × Word)) : List Packet :=
  (runsOf (ws.map Prod.fst)).map (fun run =>
    { kind := if write then .write else .read, dst := memCrew run.1, exit := .crew, src := q.router, req := q, prio := s.meshPrio q
      born := s.time, addr := run.1, len := run.2, lane := lane, tag := tag, poison := false, cause := .none
      words := if write then ws.filter (fun w => decide (run.1 ≤ w.1) && decide (w.1 < run.1 + run.2)) else []
      accepted := true })

/-- The lowest of the 256 tags that a requester has not in use (R254). -/
def State.opTag (s : State) (q : MeshReq) : Option Nat :=
  (List.range 256).find? (fun t => !(s.ops.any (fun o => o.who == q && o.tag == t)))

/-- The packets of an access go out. -/
def State.sendOp (s : State) (o : MemOp) : State :=
  o.todo.foldl (fun t p => t.inject p.src p.req.input 0 { p with born := s.time, prio := s.meshPrio p.req })
    { s with ops := s.ops.map (fun x => if x.who == o.who && x.tag == o.tag then { x with todo := [], left := o.todo.length } else x) }

/-- The stream a remote request belongs to (R339). -/
def MemOp.stream (o : MemOp) : Option (Nat × Nat × Nat) := match o.use with | .remote k _ => some (k.src, k.sq, k.lane) | _ => none

/-- A remote request is of a type. -/
def MemOp.isType (o : MemOp) (t : TType) : Bool := match o.use with | .remote k _ => k.ptype == t | _ => false

/-- The accesses before one, of its stream. -/
def State.opsBefore (s : State) (o : MemOp) : List MemOp :=
  (s.ops.takeWhile (fun x => x != o)).filter (fun x => o.stream.isSome && x.stream == o.stream)

/-- An access may go out: the words of a remote READ are read after every earlier request of its stream has been applied (R336). -/
def State.opMaySend (s : State) (o : MemOp) : Bool := !(o.isType .read) || (s.opsBefore o).isEmpty

/-- Accesses that have waited for their turn go out. -/
def State.sendWaiting (s : State) : State :=
  s.ops.foldl (fun t o => if !o.todo.isEmpty && t.opMaySend o then t.sendOp o else t) s

/-- Accesses to memory begin; none while the requester has no tag free. -/
def State.startOp (s : State) (q : MeshReq) (lane : Nat) (use : OpFor) (write : Bool) (ws : List (Nat × Word)) : Option State :=
  (s.opTag q).map (fun tag =>
    { s with ops := s.ops ++ [(⟨q, tag, use, s.packetsFor q tag lane write ws, 0, [], none⟩ : MemOp)] }.sendWaiting)

/-- What an answer says went wrong. -/
def Packet.failure (p : Packet) : Option PktCause :=
  if p.kind == .error then some p.cause else if p.poison then some (if p.cause == .none then .poisoned else p.cause) else none

/-- An answer that has left the mesh by link A or H is counted by the access it belongs to. -/
def State.takeAnswer (s : State) (p : Packet) : State :=
  { s with ops := s.ops.map (fun o =>
      if o.who == p.req && o.tag == p.tag then
        { o with left := o.left - 1, got := o.got ++ p.words
                 bad := o.bad.or (p.failure.map (fun c => (c, p.addr))) }
      else o) }

/-- An access is complete: every answer is there, and for a remote HAIL the earlier writes of its stream are acknowledged (R337). -/
def State.opDone (s : State) (o : MemOp) : Bool :=
  o.todo.isEmpty && o.left == 0 && (!(o.isType .hail) || (s.opsBefore o).all (fun x => !(x.isType .write)))

/-- An access is forgotten. -/
def State.dropOp (s : State) (o : MemOp) : State := { s with ops := s.ops.filter (fun x => x != o) }

end Sys2Proof.Machine
end

