-- ==== Sys2Proof/Machine/CacheCmd.lean ====
section
/-! DEFINITION. Commands of the crew cache (spec/06 R193–R195), write-back of corrected errors (R175), crew-store banks
(R168–R171) and zeroing at power-up (R198). -/
namespace Sys2Proof.Machine
open Host

/-! ## Crew cache commands -/

/-- A command or a change of EN is in progress. -/
def State.ccIsBusy (s : State) (c : Nat) : Bool := s.bit (R.COX_CC_STAT c) 0

/-- The crew cache with the lines a command will drop marked. (log entry 64, DEDUCED) -/
def CrewCache.mark (k : CrewCache) (p : CcLine → Bool) (since : Nat) : CrewCache :=
  { sets := k.sets.map (fun e => (e.1, e.2.map (fun l => { l with marked := p l }))), busy := some (.invalidate since) }

/-- A pulse of COX_CC_CMD (R193): INVALL alone when both are pulsed; ignored while BUSY. (log entry 64, DEDUCED) -/
def State.ccCommand (s : State) (c : Nat) (v : Word) : State :=
  if v &&& 3 = 0 then s
  else if s.ccIsBusy c then s.orReg (R.COX_CC_STAT c) 8
  else
    let lo := (s.reg32 (R.COX_CC_RBASE_LO c)).toNat
    let hi := lo + (s.reg32 (R.COX_CC_RLEN_LO c)).toNat
    let p := fun (l : CcLine) => v.getLsbD 0 || decide (max lo (l.block * 32) < min hi (l.block * 32 + 32))
    (s.setCache c ((s.cache c).mark p (s.crewCycles c))).orReg (R.COX_CC_STAT c) 1

/-- INVALL. -/
def execInvall (crew : Fin 96) (s : State) : Outcome State Fault Refusal :=
  if s.crewUp crew.val then .next (s.ccCommand crew.val 1) else .next s

/-- INVRANGE. -/
def execInvrange (crew : Fin 96) (s : State) : Outcome State Fault Refusal :=
  if s.crewUp crew.val then .next (s.ccCommand crew.val 2) else .next s

/-- The command or change of EN ends: BUSY clears, DONE sets. -/
def State.ccDone (s : State) (c : Nat) : State :=
  (s.setCache c { s.cache c with busy := none }).setReg (R.COX_CC_STAT c) ((s.reg (R.COX_CC_STAT c) &&& 0xFFFE) ||| 2)

/-- CC_COMMAND_DONE: every marked line is gone. -/
def execCcCommandDone (crew : Fin 96) (s : State) : Outcome State Fault Refusal :=
  let k := s.cache crew.val
  match k.busy with
  | some (.invalidate _) =>
    if s.crewUp crew.val then
      let sets := (k.sets.map (fun p => (p.1, p.2.filter (fun l => !l.marked)))).filter (fun p => !p.2.isEmpty)
      .next ((s.setCache crew.val { k with sets := sets }).ccDone crew.val)
    else .next s
  | _ => .next s

/-- A range of memory reads zero, its errors gone (R194, R198). -/
def State.zeroRange (s : State) (lo hi : Nat) : State :=
  { s with mem := s.mem.filter (fun p => !(decide (2 * lo ≤ p.1) && decide (p.1 < 2 * hi)))
           eccOne := s.eccOne.filter (fun w => !(decide (lo ≤ w) && decide (w < hi)))
           eccTwo := s.eccTwo.filter (fun w => !(decide (lo ≤ w) && decide (w < hi))) }

/-- A write of COX_CC_CTRL (R193–R195). Turning the cache off drops its lines; the range is zeroed as the command ends, and accesses
to it wait until then. (log entry 23, DEDUCED) -/
def State.ccCtrlWrite (s : State) (c : Nat) (v : Word) : State :=
  let a := R.COX_CC_CTRL c
  if v.getLsbD 0 == s.ccOn c then s.setReg a ((s.reg a &&& 0xFFFD) ||| (v &&& 2))
  else if s.ccIsBusy c then s.orReg (R.COX_CC_STAT c) 8
  else
    let s1 := s.setReg a (v &&& 3)
    if v.getLsbD 0 then (s1.setCache c ⟨[], none⟩).orReg (R.COX_CC_STAT c) 2
    else (s1.setCache c ⟨[], some .disable⟩).orReg (R.COX_CC_STAT c) 1

/-- CC_DISABLE: a write of COX_CC_CTRL with EN = 0, NOWIN as it is. -/
def execCcDisable (crew : Fin 96) (s : State) : Outcome State Fault Refusal :=
  if s.crewUp crew.val then .next (s.ccCtrlWrite crew.val (s.reg (R.COX_CC_CTRL crew.val) &&& 2)) else .next s

/-- The cache storage range of a crew is zero. -/
def State.zeroStorage (s : State) (c : Nat) : State := s.zeroRange (storeBase c + 0x7C0000) (storeBase c + 0x800000)

/-- CC_DISABLE_DONE. -/
def execCcDisableDone (crew : Fin 96) (s : State) : Outcome State Fault Refusal :=
  match (s.cache crew.val).busy with
  | some .disable => if s.crewUp crew.val then .next ((s.zeroStorage crew.val).ccDone crew.val) else .next s
  | _ => .next s

/-- CC_ENABLE: a write of COX_CC_CTRL with EN = 1, NOWIN as it is. -/
def execCcEnable (crew : Fin 96) (s : State) : Outcome State Fault Refusal :=
  if s.crewUp crew.val then .next (s.ccCtrlWrite crew.val ((s.reg (R.COX_CC_CTRL crew.val) &&& 2) ||| 1)) else .next s

/-! ## Memory -/

/-- CORRECTED_WRITEBACK: the corrected word is written back, so that it holds no error (R175); the write-back takes its place at the
banks (R170). -/
def execCorrectedWriteback (addr : Addr) (s : State) : Outcome State Fault Refusal :=
  .next (if s.eccOne.contains addr.toNat then
    { s with eccOne := s.eccOne.filter (fun w => w != addr.toNat) }.bankUse 23 true [addr.toNat]
  else s)

/-- One cycle of a bank (R170): the oldest request is granted, and with a read every other read of its block. Each request left waits a
cycle. -/
def State.bankCycle (s : State) (c b : Nat) : State :=
  let key := c * 16 + b
  match mapGet (fun _ => []) s.banks key with
  | [] => s
  | r :: rest =>
    let left := if r.write then rest else rest.filter (fun x => x.write || x.block != r.block)
    { s with banks := mapSet (fun _ => []) s.banks key left }.addWrap32 (R.COX_BANK_WAIT_LO c) left.length

/-- BANK_GRANT, of the bank at a place of the bank grid (R20). -/
def execBankGrant (crew : Fin 96) (row col : Fin 4) (s : State) : Outcome State Fault Refusal :=
  if s.crewUp crew.val then .next (s.bankCycle crew.val (4 * row.val + col.val)) else .next s

/-- Crews whose domain and store section are up and zeroed are released from reset (R472). -/
def State.releaseCrews (s : State) : State :=
  { s with inRst := s.inRst &&& ~~~ (s.vcOn &&& s.storeOn &&& s.seatsZeroed &&& s.storesZeroed) }

/-- MEMORY_ZEROING_DONE: the memories hold zeros with valid check bits, and crews that have both are released (R198). -/
def execMemoryZeroingDone (kind : ZeroKind) (s : State) : Outcome State Fault Refusal :=
  match kind with
  | .seatMemories c =>
    if s.crewOn c.val && !(s.seatsZeroed.getLsbD c.val) then
      .next { s.zeroRange (seatBase (c.val * 8)) (seatBase (c.val * 8 + 8)) with
              seatsZeroed := s.seatsZeroed ||| BitVec.ofNat 96 (2 ^ c.val) }.releaseCrews
    else .next s
  | .crewStores =>
    .next { (List.range 96).foldl (fun (t : State) c => if s.storeOn.getLsbD c && !(s.storesZeroed.getLsbD c) then
              t.zeroRange (storeBase c) (storeBase (c + 1)) else t) s with storesZeroed := s.storeOn }.releaseCrews

end Sys2Proof.Machine
end

