-- ==== Sys2Proof/Machine/Handles.lean ====
section
/-! DEFINITION. The handle table (spec/06 R178–R183) and the instructions that name a handle: HLEA and HAIL (spec/04
R114, R115), with the crew's hail port. -/
namespace Sys2Proof.Machine
open Host

/-! ## Entries (R178, R179) -/

/-- KIND of an entry: 0 SEAT, 1 STORE, 2 WINDOW. -/
def State.hKind (s : State) (c h : Nat) : Nat := s.fld (R.HT_CTRL c h) 2 3

/-- BASE of an entry. -/
def State.hBase (s : State) (c h : Nat) : Nat := (s.reg32 (R.HT_BASE_LO c h)).toNat

/-- LEN of an entry. -/
def State.hLen (s : State) (c h : Nat) : Nat := (s.reg32 (R.HT_LEN_LO c h)).toNat

/-- A state-only use of handle h of crew c by crew `by` passes its checks (R179). -/
def State.hStateUse (s : State) (user c h : Nat) : Bool :=
  s.hState c h != 0 && decide (s.fld (R.HT_LANE c h) 0 10 = s.laneOf user)

/-- A use of handle h of crew c at offset x by crew `user` passes the checks of R179. -/
def State.hUse (s : State) (user c h x : Nat) : Bool :=
  s.hStateUse user c h && decide (s.hKind c h ≤ 2) && decide (x < s.hLen c h) &&
    (match s.hKind c h with
     | 0 => inSeatMem (s.hBase c h + x)
     | 1 => inStore (s.hBase c h + x)
     | _ => true)

/-- HLEA: ad = base of the handle + at; ACCESS, with no effect, when a check fails. (log entry 19, DEDUCED) -/
def execHlea (c : CoreId) (d : Fin 8) (x : Fin 16) (t : Fin 8) (s : State) : Outcome State Fault Refusal :=
  .next (s.runInsn c { word := (Instr.hlea c d x t).word, ws := [x], as := [d, t], onBh := false } (fun u =>
    let k := u.core c
    let w := k.rw x
    let off := k.ra t
    let h := w.toNat % 256
    let other := w.getLsbD 15
    let crew := if other then w.toNat / 256 % 128 else crewNum c
    if decide (crew < 96) && u.crewOn crew && u.hUse (crewNum c) crew h off.toNat && u.hKind crew h != 2 then
      .done (u.setCore c (k.setA d (BitVec.ofNat 32 (u.hBase crew h) + off)))
    else .exc u 3 (off.setWidth 16 ++ w)))

/-- The source queue a core's hails carry (R115). -/
def State.hailQueue (s : State) (c : CoreId) : Nat :=
  match c with
  | .seat _ _ => ((s.core c).task.map Task.queue).getD 0
  | .cox crew => s.fld (R.COX_HAILQ crew.val) 0 5
  | .boathouse => 0

/-- The hail port has room: it holds 8 hails (R115). -/
def State.hailRoom (s : State) (crew : Nat) : Bool := decide ((s.schedOf crew).hails.length < 8)

/-- A hail enters the port. -/
def State.pushHail (s : State) (h : Hail) : State :=
  s.setSched h.crew { s.schedOf h.crew with hails := (s.schedOf h.crew).hails ++ [h] }

/-- The words a HAIL sends: wt, wt + 1 and so on. -/
def Core.hailWords (k : Core) (y n : Nat) : List Word := (List.range n).map (fun i => k.w.toList.getD (y + i) 0)

/-- HAIL: a hail at the crew's hail port, or a wait for room there (R115). (log entry 14, DEDUCED) (log entry 19, DEDUCED) -/
def execHail (c : CoreId) (d : Fin 16) (a : Fin 8) (y : Fin 16) (n : Fin 4) (s : State) : Outcome State Fault Refusal :=
  let count := n.val + 1
  let word := (Instr.hail c d a y n).word
  .next (s.runInsn c
    { word := word, ws := d :: (List.finRange 16).filter (fun r => decide (y.val ≤ r.val) && decide (r.val < y.val + count))
      as := [a], onBh := false } (fun u =>
    let k := u.core c
    let crew := crewNum c
    let w := k.rw d
    let off := k.ra a
    let h := w.toNat / 256
    if 15 < y.val + n.val then .exc u 1 word
    else if u.hStateUse crew crew h && u.hKind crew h == 2 && decide (off.toNat + count ≤ u.hLen crew h) then
      let hail : Hail :=
        { crew := crew, handle := h, dev := u.fld (R.HT_RDEV crew h) 0 8, win := u.fld (R.HT_RWIN crew h) 0 12
          key := u.reg32 (R.HT_KEY_LO crew h), off := BitVec.ofNat 32 (u.hBase crew h) + off, data := k.hailWords y.val count
          cnt := w.toNat % 64, event := w.getLsbD 6, lane := u.laneOf crew, sq := u.hailQueue c, engine := none }
      if u.hailRoom crew then .done (u.pushHail hail) else .wait (u.setCore c { k with wait := some (.hail hail) })
    else .exc u 3 (off.setWidth 16 ++ w)))

/-- HAIL_ACCEPT: the port takes a stalled hail once it has room, and the instruction completes. -/
def execHailAccept (c : CoreId) (s : State) : Outcome State Fault Refusal :=
  match (s.core c).wait with
  | some (.hail h) => if s.hailRoom h.crew then .next ((s.pushHail h).complete c (cstSs (s.core c).cst)) else .next s
  | _ => .next s

/-! ## COX_HFIND and COX_HCAS (R163, R181, R183) -/

end Sys2Proof.Machine
end

