-- ==== Sys2Proof/Machine/Float.lean ====
section
/-! DEFINITION. Floating-point numbers of the vector and matrix units (spec/05 R134, R135, R147, R152–R156): decoding to
an exact dyadic value, exact arithmetic, one rounding to nearest even. -/
namespace Sys2Proof.Machine

/-- A format: exponent bits, fraction bits, bias, whether the top exponent holds infinities and NaNs (IEEE) or only one
NaN code (E4M3, R135), and the canonical NaN. -/
structure FFmt where
  eb   : Nat
  mb   : Nat
  bias : Nat
  inf  : Bool
  nan  : Nat
  deriving DecidableEq, Repr

/-- IEEE 754 binary16. -/
def fmtF16 : FFmt := ⟨5, 10, 15, true, 0x7E00⟩
/-- bfloat16. -/
def fmtBf16 : FFmt := ⟨8, 7, 127, true, 0x7FC0⟩
/-- IEEE 754 binary32. -/
def fmtF32 : FFmt := ⟨8, 23, 127, true, 0x7FC00000⟩
/-- OCP E4M3. -/
def fmtE4m3 : FFmt := ⟨4, 3, 7, false, 0x7F⟩
/-- OCP E5M2. -/
def fmtE5m2 : FFmt := ⟨5, 2, 15, true, 0x7E⟩

/-- A number: not a number, an infinity, or ± m · 2^e, with a signed zero. -/
inductive FVal where
  | nan
  | inf (neg : Bool)
  | fin (neg : Bool) (m : Nat) (e : Int)
  deriving DecidableEq, Repr

/-- The code of +∞, or for E4M3 of its NaN: the first code past the largest finite one (R135). -/
def FFmt.top (f : FFmt) : Nat := if f.inf then (2 ^ f.eb - 1) * 2 ^ f.mb else f.nan

/-- The value of a code. -/
def FFmt.decode (f : FFmt) (x : Nat) : FVal :=
  let neg := decide ((x / 2 ^ (f.eb + f.mb)) % 2 = 1)
  let mag := x % 2 ^ (f.eb + f.mb)
  if mag = f.top then (if f.inf then .inf neg else .nan)
  else if f.top < mag then .nan
  else
    let ex := mag / 2 ^ f.mb
    let fr := mag % 2 ^ f.mb
    if ex = 0 then .fin neg fr (1 - (f.bias : Int) - f.mb)
    else .fin neg (fr + 2 ^ f.mb) ((ex : Int) - f.bias - f.mb)

/-- A code with its sign. -/
def FFmt.signed (f : FFmt) (neg : Bool) (mag : Nat) : Nat := mag + if neg then 2 ^ (f.eb + f.mb) else 0

/-- The magnitude code of m · 2^e (plus, when `sticky`, something positive less than a unit of m), rounded to nearest
even as if the exponent had no upper end. -/
def FFmt.roundMag (f : FFmt) (m : Nat) (e : Int) (sticky : Bool) : Nat :=
  if m = 0 then 0
  else
    let low : Int := 1 - (f.bias : Int) - f.mb
    let q : Int := max ((m.log2 : Int) + e - f.mb) low
    let sh : Int := q - e
    let sig : Nat :=
      if sh ≤ 0 then m * 2 ^ (-sh).toNat
      else if (m.log2 : Int) + 2 < sh then 0
      else
        let n := sh.toNat
        let k := m / 2 ^ n
        let r := m % 2 ^ n
        let h := 2 ^ (n - 1)
        if h < r || (r == h && (sticky || k % 2 == 1)) then k + 1 else k
    (q - low).toNat * 2 ^ f.mb + sig

/-- What a rounding that overflows gives (R153, R155, R156). -/
def FFmt.overflow (f : FFmt) (neg sat : Bool) : Nat :=
  if f.inf && !sat then f.signed neg f.top
  else if sat then f.signed neg (f.top - 1)
  else f.nan

/-- A finite value rounded to a code; overflow goes to ±∞, or saturates under `sat`. -/
def FFmt.round (f : FFmt) (neg : Bool) (m : Nat) (e : Int) (sticky sat : Bool) : Nat :=
  let mag := f.roundMag m e sticky
  if f.top ≤ mag then f.overflow neg sat else f.signed neg mag

/-- The code of a value, rounded to nearest even. An infinite source counts as overflow. (log entry 77, DEDUCED) -/
def FFmt.encode (f : FFmt) (sat : Bool) (v : FVal) : Nat :=
  match v with
  | .nan => f.nan
  | .inf neg => f.overflow neg sat
  | .fin neg m e => f.round neg m e false sat

/-- The signed integer of a finite value over 2^e. -/
def dyadic (neg : Bool) (m : Nat) (e base : Int) : Int :=
  let n : Int := (m * 2 ^ (e - base).toNat : Nat)
  if neg then -n else n

/-- The exact sum. An exact zero sum of opposite-signed terms is +0; a sum of zeros of one sign keeps it (R152). -/
def FVal.add (x y : FVal) : FVal :=
  match x, y with
  | .nan, _ => .nan
  | _, .nan => .nan
  | .inf a, .inf b => if a = b then .inf a else .nan
  | .inf a, _ => .inf a
  | _, .inf b => .inf b
  | .fin n1 m1 e1, .fin n2 m2 e2 =>
    let base := min e1 e2
    let t := dyadic n1 m1 e1 base + dyadic n2 m2 e2 base
    if t = 0 then .fin (n1 && n2) 0 base else .fin (decide (t < 0)) t.natAbs base

/-- The value with its sign inverted. -/
def FVal.neg (x : FVal) : FVal :=
  match x with
  | .nan => .nan
  | .inf a => .inf (!a)
  | .fin n m e => .fin (!n) m e

/-- The exact product; ∞ × 0 is not a number (R153). -/
def FVal.mul (x y : FVal) : FVal :=
  match x, y with
  | .nan, _ => .nan
  | _, .nan => .nan
  | .inf a, .inf b => .inf (a != b)
  | .inf a, .fin n m _ => if m = 0 then .nan else .inf (a != n)
  | .fin n m _, .inf b => if m = 0 then .nan else .inf (n != b)
  | .fin n1 m1 e1, .fin n2 m2 e2 => .fin (n1 != n2) (m1 * m2) (e1 + e2)

/-- x < y; not for NaN; zeros are equal. -/
def FVal.lt (x y : FVal) : Bool :=
  match x, y with
  | .nan, _ => false
  | _, .nan => false
  | .inf a, .inf b => a && !b
  | .inf a, _ => a
  | _, .inf b => !b
  | .fin n1 m1 e1, .fin n2 m2 e2 =>
    let base := min e1 e2
    decide (dyadic n1 m1 e1 base < dyadic n2 m2 e2 base)

/-- Equality of values; not for NaN; zeros are equal. -/
def FVal.eq (x y : FVal) : Bool :=
  match x, y with
  | .nan, _ => false
  | _, .nan => false
  | x, y => !(x.lt y) && !(y.lt x)

/-- A NaN. -/
def FVal.isNan (x : FVal) : Bool := match x with | .nan => true | _ => false

/-- The sign of a value. -/
def FVal.isNeg (x : FVal) : Bool :=
  match x with
  | .nan => false
  | .inf a => a
  | .fin n _ _ => n

/-- The lesser of two codes, −0 below +0; a NaN operand gives the canonical NaN (R155). -/
def FFmt.min2 (f : FFmt) (x y : Nat) : Nat :=
  let a := f.decode x
  let b := f.decode y
  if a.isNan || b.isNan then f.nan
  else if a.lt b then x else if b.lt a then y else if a.isNeg then x else y

/-- The greater of two codes. -/
def FFmt.max2 (f : FFmt) (x y : Nat) : Nat :=
  let a := f.decode x
  let b := f.decode y
  if a.isNan || b.isNan then f.nan
  else if a.lt b then y else if b.lt a then x else if a.isNeg then y else x

/-- The integer square root, from bit `n` down, `r` so far. -/
def isqrtFrom (x : Nat) : Nat → Nat → Nat
  | 0, r => r
  | n + 1, r =>
    let t := r + 2 ^ n
    if t * t ≤ x then isqrtFrom x n t else isqrtFrom x n r

/-- The integer square root. -/
def isqrt (x : Nat) : Nat := isqrtFrom x (x.log2 / 2 + 1) 0

/-- 1 / x, correctly rounded (R155). (log entry 67, DEDUCED) -/
def FFmt.rcp (f : FFmt) (x : Nat) : Nat :=
  match f.decode x with
  | .nan => f.nan
  | .inf n => f.signed n 0
  | .fin n m e =>
    if m = 0 then f.signed n f.top
    else
      let k := m.log2 + 40
      f.round n (2 ^ k / m) (-e - k) (2 ^ k % m != 0) false

/-- 1 / √x, correctly rounded (R155). -/
def FFmt.rsq (f : FFmt) (x : Nat) : Nat :=
  match f.decode x with
  | .nan => f.nan
  | .inf n => if n then f.nan else 0
  | .fin n m e =>
    if m = 0 then f.signed n f.top
    else if n then f.nan
    else
      let m1 := if e % 2 = 0 then m else 2 * m
      let e1 := if e % 2 = 0 then e else e - 1
      let k := m1.log2 + 40
      let r := isqrt (2 ^ (2 * k) / m1)
      f.round false r (-(e1 / 2) - k) (r * r * m1 != 2 ^ (2 * k)) false

/-- The fraction bits of the fixed-point numbers below. -/
def fxBits : Nat := 128

/-- 2^y for a fraction y of `n` more bits, the top one first: `c` is 2 to the power of the bit before, `r` the product
so far, both with `fxBits` fraction bits. -/
def exp2Bits (y : Nat) : Nat → Nat → Nat → Nat
  | 0, _, r => r
  | n + 1, c, r =>
    let c1 := isqrt (c * 2 ^ fxBits)
    exp2Bits y n c1 (if y / 2 ^ n % 2 = 1 then r * c1 / 2 ^ fxBits else r)

/-- 2 to the power x, correctly rounded (R155): the integer part moves the exponent, 64 bits of the fraction select
roots of 2, and a fraction past them makes the result inexact only. (log entry 67, DEDUCED) -/
def FFmt.exp2 (f : FFmt) (x : Nat) : Nat :=
  match f.decode x with
  | .nan => f.nan
  | .inf n => if n then 0 else f.top
  | .fin n m e =>
    let scaled : Int := if 0 ≤ e + 64 then (m * 2 ^ (e + 64).toNat : Nat) else (m / 2 ^ (-(e + 64)).toNat : Nat)
    let lost := decide (e + 64 < 0) && m % 2 ^ (-(e + 64)).toNat != 0
    let t : Int := if n then (-scaled - if lost then 1 else 0) else scaled
    let whole := t / (2 ^ 64 : Int)
    let frac := (t % (2 ^ 64 : Int)).toNat
    if frac = 0 && !lost then f.round false 1 whole false false
    else f.round false (exp2Bits frac 64 (2 ^ (fxBits + 1)) (2 ^ fxBits)) (whole - fxBits) true false

/-- Binary digits of log₂ y, y in [1, 2) with `fxBits` fraction bits: squared, a digit 1 where it reaches 2. -/
def log2Bits : Nat → Nat → Nat → Nat
  | 0, _, r => r
  | n + 1, y, r =>
    let y2 := y * y / 2 ^ fxBits
    if 2 ^ (fxBits + 1) ≤ y2 then log2Bits n (y2 / 2) (2 * r + 1) else log2Bits n y2 (2 * r)

/-- log₂ x, correctly rounded (R155). (log entry 67, DEDUCED) -/
def FFmt.log2 (f : FFmt) (x : Nat) : Nat :=
  match f.decode x with
  | .nan => f.nan
  | .inf n => if n then f.nan else f.top
  | .fin n m e =>
    if m = 0 then f.signed true f.top
    else if n then f.nan
    else
      let whole : Int := (m.log2 : Int) + e
      if m = 2 ^ m.log2 then f.round (decide (whole < 0)) whole.natAbs 0 false false
      else
        let t : Int := whole * 2 ^ 60 + (log2Bits 60 (m * 2 ^ fxBits / 2 ^ m.log2) 0 : Nat)
        if 0 ≤ t then f.round false t.toNat (-60) true false
        else f.round true (t.natAbs - 1) (-60) true false

/-- A finite value rounded to the nearest integer, ties to even. -/
def FVal.toIntRne (neg : Bool) (m : Nat) (e : Int) : Int :=
  let n : Nat :=
    if 0 ≤ e then m * 2 ^ e.toNat
    else if (m.log2 : Int) + 2 < -e then 0
    else
      let sh := (-e).toNat
      let k := m / 2 ^ sh
      let r := m % 2 ^ sh
      if 2 ^ (sh - 1) < r || (r == 2 ^ (sh - 1) && k % 2 == 1) then k + 1 else k
  if neg then -(n : Int) else n

/-- An integer held to a range. -/
def clampInt (lo hi x : Int) : Int := if x < lo then lo else if hi < x then hi else x

/-- A 16-bit signed integer from a code, rounded to nearest even and saturated; 0 for a NaN (R156). -/
def FFmt.toI16 (f : FFmt) (x : Nat) : Int :=
  match f.decode x with
  | .nan => 0
  | .inf n => if n then -32768 else 32767
  | .fin n m e => clampInt (-32768) 32767 (FVal.toIntRne n m e)

/-- The code of an integer. -/
def FFmt.ofInt (f : FFmt) (x : Int) : Nat := f.round (decide (x < 0)) x.natAbs 0 false false

/-- An fp32 subnormal becomes zero of its sign (R152, KL-09). -/
def flush32 (x : Nat) : Nat := if x / 2 ^ 23 % 256 = 0 then x / 2 ^ 31 * 2 ^ 31 else x

/-- One step of a floating-point MMA element (R152): exact product, one rounding, subnormals flushed. -/
def macF32 (acc : Nat) (a b : FVal) : Nat :=
  flush32 (fmtF32.encode false ((fmtF32.decode acc).add (a.mul b)))

end Sys2Proof.Machine
end

