-- ==== Sys2Proof/Machine/Scalar.lean ====
section
/-! DEFINITION. Scalar instructions (spec/04 R110): integer arithmetic and logic, shifts and bit counts, multiply,
address arithmetic, packed 8-bit data and immediate forms. -/
namespace Sys2Proof.Machine
open Host

/-! ## Shared shapes -/

/-- Three w registers: wd from ws and wt, and the flags. -/
def State.alu3 (s : State) (c : CoreId) (i : Instr) (d x y : Fin 16) (f : Flags → Word → Word → Word × Flags) : State :=
  s.regInsn c { word := i.word, ws := [d, x, y] } (fun k =>
    let r := f k.flags (k.rw x) (k.rw y)
    (k.setW d r.1).setFlags r.2)

/-- Two w registers: wd from ws, and the flags. -/
def State.alu2 (s : State) (c : CoreId) (i : Instr) (d x : Fin 16) (f : Flags → Word → Word × Flags) : State :=
  s.regInsn c { word := i.word, ws := [d, x] } (fun k =>
    let r := f k.flags (k.rw x)
    (k.setW d r.1).setFlags r.2)

/-- A w register and an immediate: wd from ws, and the flags. -/
def State.aluI (s : State) (c : CoreId) (i : Instr) (d x : Fin 16) (imm : Word) (f : Word → Word → Word × Flags) : State :=
  s.regInsn c { word := i.word, ws := [d, x] } (fun k =>
    let r := f (k.rw x) imm
    (k.setW d r.1).setFlags r.2)

/-- Rotation of a word to the left. -/
def rotL (x : Word) (n : Nat) : Word := x.rotateLeft n

/-- Rotation of a word to the right. -/
def rotR (x : Word) (n : Nat) : Word := x.rotateRight n

/-- Logical shift left with its flags: the last bit out is bit 16 − n. -/
def shlOp (o : Flags) (x : Word) (n : Nat) : Word × Flags :=
  (x <<< n, shiftFlags o (x <<< n) n (x.getLsbD (16 - n)))

/-- Logical shift right with its flags: the last bit out is bit n − 1. -/
def shrOp (o : Flags) (x : Word) (n : Nat) : Word × Flags :=
  (x >>> n, shiftFlags o (x >>> n) n (x.getLsbD (n - 1)))

/-- Arithmetic shift right with its flags. -/
def sarOp (o : Flags) (x : Word) (n : Nat) : Word × Flags :=
  (x.sshiftRight n, shiftFlags o (x.sshiftRight n) n (x.getLsbD (n - 1)))

/-- Rotate left with its flags. -/
def rolOp (o : Flags) (x : Word) (n : Nat) : Word × Flags := (rotL x n, znFlags o (rotL x n))

/-- Rotate right with its flags. -/
def rorOp (o : Flags) (x : Word) (n : Nat) : Word × Flags := (rotR x n, znFlags o (rotR x n))

/-- The shift amount in bits 3:0 of a w register (R110). -/
def amount (y : Word) : Nat := y.toNat % 16

/-- Leading zeros of a word, 16 for zero. -/
def leadingZeros (x : Word) : Nat := ((List.range 16).takeWhile (fun i => !(x.getLsbD (15 - i)))).length

/-- Bits set in a word. -/
def bitsSet {w : Nat} (x : BitVec w) : Nat := ((List.range w).filter (fun i => x.getLsbD i)).length

/-- The word with its bit order reversed. -/
def bitReverse (x : Word) : Word := x.reverse

/-- Byte k of a word. -/
def byteOf (x : Word) (k : Nat) : Byte := (x >>> (8 * k)).setWidth 8

/-- A word with byte k replaced. -/
def putByte (x : Word) (k : Nat) (b : Byte) : Word :=
  if k = 0 then (x &&& 0xFF00) ||| b.setWidth 16 else (x &&& 0x00FF) ||| (b.setWidth 16 <<< 8)

/-! ## Integer arithmetic and logic, OP 0x01 -/

/-- ADD: wd = ws + wt. -/
def execAdd (c : CoreId) (d x y : Fin 16) (s : State) : Outcome State Fault Refusal :=
  .next (s.alu3 c (.add c d x y) d x y (fun o p q => let _ := o; addFlags p q false))

/-- ADC: wd = ws + wt + C. -/
def execAdc (c : CoreId) (d x y : Fin 16) (s : State) : Outcome State Fault Refusal :=
  .next (s.alu3 c (.adc c d x y) d x y (fun o p q => addFlags p q o.c))

/-- SUB: wd = ws − wt. -/
def execSub (c : CoreId) (d x y : Fin 16) (s : State) : Outcome State Fault Refusal :=
  .next (s.alu3 c (.sub c d x y) d x y (fun o p q => let _ := o; subFlags p q false))

/-- SBC: wd = ws − wt − (1 − C). -/
def execSbc (c : CoreId) (d x y : Fin 16) (s : State) : Outcome State Fault Refusal :=
  .next (s.alu3 c (.sbc c d x y) d x y (fun o p q => subFlags p q (!o.c)))

/-- AND: bitwise; C and V cleared. -/
def execAnd (c : CoreId) (d x y : Fin 16) (s : State) : Outcome State Fault Refusal :=
  .next (s.alu3 c (.and c d x y) d x y (fun o p q => let _ := o; (p &&& q, logicFlags (p &&& q))))

/-- OR: bitwise; C and V cleared. -/
def execOr (c : CoreId) (d x y : Fin 16) (s : State) : Outcome State Fault Refusal :=
  .next (s.alu3 c (.or c d x y) d x y (fun o p q => let _ := o; (p ||| q, logicFlags (p ||| q))))

/-- XOR: bitwise; C and V cleared. -/
def execXor (c : CoreId) (d x y : Fin 16) (s : State) : Outcome State Fault Refusal :=
  .next (s.alu3 c (.xor c d x y) d x y (fun o p q => let _ := o; (p ^^^ q, logicFlags (p ^^^ q))))

/-- NOT: wd = complement of ws. -/
def execNot (c : CoreId) (d x : Fin 16) (s : State) : Outcome State Fault Refusal :=
  .next (s.alu2 c (.not c d x) d x (fun o p => (~~~ p, znFlags o (~~~ p))))

/-- NEG: wd = 0 − ws. -/
def execNeg (c : CoreId) (d x : Fin 16) (s : State) : Outcome State Fault Refusal :=
  .next (s.alu2 c (.neg c d x) d x (fun o p => let _ := o; subFlags 0 p false))

/-- MOV: wd = ws. -/
def execMov (c : CoreId) (d x : Fin 16) (s : State) : Outcome State Fault Refusal :=
  .next (s.alu2 c (.mov c d x) d x (fun o p => (p, o)))

/-- CMP: flags of ws − wt. -/
def execCmp (c : CoreId) (x y : Fin 16) (s : State) : Outcome State Fault Refusal :=
  .next (s.regInsn c { word := (Instr.cmp c x y).word, ws := [x, y] } (fun k =>
    k.setFlags (subFlags (k.rw x) (k.rw y) false).2))

/-- TST on two w registers: flags of ws AND wt. -/
def State.tstScalar (s : State) (c : CoreId) (x y : Fin 16) : State :=
  s.regInsn c { word := (Instr.tst c (.scalar x y)).word, ws := [x, y] } (fun k =>
    k.setFlags (logicFlags (k.rw x &&& k.rw y)))

/-- MIN: signed minimum. -/
def execMin (c : CoreId) (d x y : Fin 16) (s : State) : Outcome State Fault Refusal :=
  .next (s.alu3 c (.min c d x y) d x y (fun o p q => let r := if p.slt q then p else q; (r, znFlags o r)))

/-- MAX: signed maximum. -/
def execMax (c : CoreId) (d x y : Fin 16) (s : State) : Outcome State Fault Refusal :=
  .next (s.alu3 c (.max c d x y) d x y (fun o p q => let r := if q.slt p then p else q; (r, znFlags o r)))

/-- MINU: unsigned minimum. -/
def execMinu (c : CoreId) (d x y : Fin 16) (s : State) : Outcome State Fault Refusal :=
  .next (s.alu3 c (.minu c d x y) d x y (fun o p q => let r := if p.ult q then p else q; (r, znFlags o r)))

/-- MAXU: unsigned maximum. -/
def execMaxu (c : CoreId) (d x y : Fin 16) (s : State) : Outcome State Fault Refusal :=
  .next (s.alu3 c (.maxu c d x y) d x y (fun o p q => let r := if q.ult p then p else q; (r, znFlags o r)))

/-- SEL: wd = ws if the condition holds, else wt; condition 15 is ILLEGAL (R109). -/
def execSel (c : CoreId) (d x y : Fin 16) (cc : Fin 16) (s : State) : Outcome State Fault Refusal :=
  .next (s.runInsn c { word := (Instr.sel c d x y cc).word, ws := [d, x, y] } (fun t =>
    let k := t.core c
    if cc.val = 15 then .exc t 1 (Instr.sel c d x y cc).word
    else .done (t.setCore c (k.setW d (if condHolds k.flags cc.val then k.rw x else k.rw y)))))

/-! ## Shifts and bit counts, OP 0x02 -/

/-- SHL by wt bits 3:0. -/
def execShl (c : CoreId) (d x y : Fin 16) (s : State) : Outcome State Fault Refusal :=
  .next (s.alu3 c (.shl c d x y) d x y (fun o p q => shlOp o p (amount q)))

/-- SHR by wt bits 3:0. -/
def execShr (c : CoreId) (d x y : Fin 16) (s : State) : Outcome State Fault Refusal :=
  .next (s.alu3 c (.shr c d x y) d x y (fun o p q => shrOp o p (amount q)))

/-- SAR by wt bits 3:0. -/
def execSar (c : CoreId) (d x y : Fin 16) (s : State) : Outcome State Fault Refusal :=
  .next (s.alu3 c (.sar c d x y) d x y (fun o p q => sarOp o p (amount q)))

/-- ROL by wt bits 3:0. -/
def execRol (c : CoreId) (d x y : Fin 16) (s : State) : Outcome State Fault Refusal :=
  .next (s.alu3 c (.rol c d x y) d x y (fun o p q => rolOp o p (amount q)))

/-- ROR by wt bits 3:0. -/
def execRor (c : CoreId) (d x y : Fin 16) (s : State) : Outcome State Fault Refusal :=
  .next (s.alu3 c (.ror c d x y) d x y (fun o p q => rorOp o p (amount q)))

/-- SHLI by AUX bits 3:0. -/
def execShli (c : CoreId) (d x : Fin 16) (aux : BitVec 8) (s : State) : Outcome State Fault Refusal :=
  .next (s.alu2 c (.shli c d x aux) d x (fun o p => shlOp o p (aux.toNat % 16)))

/-- SHRI by AUX bits 3:0. -/
def execShri (c : CoreId) (d x : Fin 16) (aux : BitVec 8) (s : State) : Outcome State Fault Refusal :=
  .next (s.alu2 c (.shri c d x aux) d x (fun o p => shrOp o p (aux.toNat % 16)))

/-- SARI by AUX bits 3:0. -/
def execSari (c : CoreId) (d x : Fin 16) (aux : BitVec 8) (s : State) : Outcome State Fault Refusal :=
  .next (s.alu2 c (.sari c d x aux) d x (fun o p => sarOp o p (aux.toNat % 16)))

/-- ROLI by AUX bits 3:0. -/
def execRoli (c : CoreId) (d x : Fin 16) (aux : BitVec 8) (s : State) : Outcome State Fault Refusal :=
  .next (s.alu2 c (.roli c d x aux) d x (fun o p => rolOp o p (aux.toNat % 16)))

/-- RORI by AUX bits 3:0. -/
def execRori (c : CoreId) (d x : Fin 16) (aux : BitVec 8) (s : State) : Outcome State Fault Refusal :=
  .next (s.alu2 c (.rori c d x aux) d x (fun o p => rorOp o p (aux.toNat % 16)))

/-- CLZ: leading zeros; Z only. -/
def execClz (c : CoreId) (d x : Fin 16) (s : State) : Outcome State Fault Refusal :=
  .next (s.alu2 c (.clz c d x) d x (fun o p => let r := BitVec.ofNat 16 (leadingZeros p); (r, { o with z := r == 0 })))

/-- POPC: bits set; Z only. -/
def execPopc (c : CoreId) (d x : Fin 16) (s : State) : Outcome State Fault Refusal :=
  .next (s.alu2 c (.popc c d x) d x (fun o p => let r := BitVec.ofNat 16 (bitsSet p); (r, { o with z := r == 0 })))

/-- BREV: bit order reversed. -/
def execBrev (c : CoreId) (d x : Fin 16) (s : State) : Outcome State Fault Refusal :=
  .next (s.alu2 c (.brev c d x) d x (fun o p => (bitReverse p, o)))

/-! ## Multiply, OP 0x03 -/

/-- MUL: low 16 bits of the product. -/
def execMul (c : CoreId) (d x y : Fin 16) (s : State) : Outcome State Fault Refusal :=
  .next (s.alu3 c (.mul c d x y) d x y (fun o p q => let r := p * q; (r, znFlags o r)))

/-- MULHS: high 16 bits of the signed product. -/
def execMulhs (c : CoreId) (d x y : Fin 16) (s : State) : Outcome State Fault Refusal :=
  .next (s.alu3 c (.mulhs c d x y) d x y (fun o p q => let r : Word := ((p.signExtend 32 * q.signExtend 32) >>> 16).setWidth 16; (r, znFlags o r)))

/-- MULHU: high 16 bits of the unsigned product. -/
def execMulhu (c : CoreId) (d x y : Fin 16) (s : State) : Outcome State Fault Refusal :=
  .next (s.alu3 c (.mulhu c d x y) d x y (fun o p q => let r : Word := ((p.setWidth 32 * q.setWidth 32) >>> 16).setWidth 16; (r, znFlags o r)))

/-- MULWU: ad = unsigned 32-bit product. -/
def execMulwu (c : CoreId) (d : Fin 8) (x y : Fin 16) (s : State) : Outcome State Fault Refusal :=
  .next (s.regInsn c { word := (Instr.mulwu c d x y).word, ws := [x, y], as := [d] } (fun k =>
    k.setA d ((k.rw x).setWidth 32 * (k.rw y).setWidth 32)))

/-! ## Address arithmetic, OP 0x04 -/

/-- ADDA: ad = as + sign-extended wt. -/
def execAdda (c : CoreId) (d a : Fin 8) (y : Fin 16) (s : State) : Outcome State Fault Refusal :=
  .next (s.regInsn c { word := (Instr.adda c d a y).word, ws := [y], as := [d, a] } (fun k =>
    k.setA d (k.ra a + (k.rw y).signExtend 32)))

/-- ADDAU: ad = as + zero-extended wt. -/
def execAddau (c : CoreId) (d a : Fin 8) (y : Fin 16) (s : State) : Outcome State Fault Refusal :=
  .next (s.regInsn c { word := (Instr.addau c d a y).word, ws := [y], as := [d, a] } (fun k =>
    k.setA d (k.ra a + (k.rw y).setWidth 32)))

/-- ADDAA: ad = as + at. -/
def execAddaa (c : CoreId) (d a b : Fin 8) (s : State) : Outcome State Fault Refusal :=
  .next (s.regInsn c { word := (Instr.addaa c d a b).word, ws := [], as := [d, a, b] } (fun k =>
    k.setA d (k.ra a + k.ra b)))

/-- SUBAA: ad = as − at. -/
def execSubaa (c : CoreId) (d a b : Fin 8) (s : State) : Outcome State Fault Refusal :=
  .next (s.regInsn c { word := (Instr.subaa c d a b).word, ws := [], as := [d, a, b] } (fun k =>
    k.setA d (k.ra a - k.ra b)))

/-- MOVA: ad = as. -/
def execMova (c : CoreId) (d a : Fin 8) (s : State) : Outcome State Fault Refusal :=
  .next (s.regInsn c { word := (Instr.mova c d a).word, ws := [], as := [d, a] } (fun k =>
    k.setA d (k.ra a)))

/-- MOVAL: wd = bits 15:0 of as. -/
def execMoval (c : CoreId) (d : Fin 16) (a : Fin 8) (s : State) : Outcome State Fault Refusal :=
  .next (s.regInsn c { word := (Instr.moval c d a).word, ws := [d], as := [a] } (fun k =>
    k.setW d ((k.ra a).setWidth 16)))

/-- MOVAH: wd = bits 31:16 of as. -/
def execMovah (c : CoreId) (d : Fin 16) (a : Fin 8) (s : State) : Outcome State Fault Refusal :=
  .next (s.regInsn c { word := (Instr.movah c d a).word, ws := [d], as := [a] } (fun k =>
    k.setW d ((k.ra a >>> 16).setWidth 16)))

/-- MOVWA: ad = ws × 2¹⁶ + wt. -/
def execMovwa (c : CoreId) (d : Fin 8) (x y : Fin 16) (s : State) : Outcome State Fault Refusal :=
  .next (s.regInsn c { word := (Instr.movwa c d x y).word, ws := [x, y], as := [d] } (fun k =>
    k.setA d (k.rw x ++ k.rw y)))

/-- CMPA: flags of the 32-bit as − at. -/
def execCmpa (c : CoreId) (a b : Fin 8) (s : State) : Outcome State Fault Refusal :=
  .next (s.regInsn c { word := (Instr.cmpa c a b).word, ws := [], as := [a, b] } (fun k =>
    k.setFlags (subFlags (k.ra a) (k.ra b) false).2))

/-- SHLA: ad = as shifted left by AUX 4:0. -/
def execShla (c : CoreId) (d a : Fin 8) (aux : BitVec 8) (s : State) : Outcome State Fault Refusal :=
  .next (s.regInsn c { word := (Instr.shla c d a aux).word, ws := [], as := [d, a] } (fun k =>
    k.setA d (k.ra a <<< (aux.toNat % 32))))

/-! ## Packed 8-bit data, OP 0x05 -/

/-- EXTB: byte k of ws, zero-extended. -/
def execExtb (c : CoreId) (d x : Fin 16) (k : Fin 2) (s : State) : Outcome State Fault Refusal :=
  .next (s.alu2 c (.extb c d x k) d x (fun o p => ((byteOf p k.val).setWidth 16, o)))

/-- EXTBS: byte k of ws, sign-extended. -/
def execExtbs (c : CoreId) (d x : Fin 16) (k : Fin 2) (s : State) : Outcome State Fault Refusal :=
  .next (s.alu2 c (.extbs c d x k) d x (fun o p => ((byteOf p k.val).signExtend 16, o)))

/-- INSB: byte k of wd = bits 7:0 of ws; the other byte kept. -/
def execInsb (c : CoreId) (d x : Fin 16) (k : Fin 2) (s : State) : Outcome State Fault Refusal :=
  .next (s.regInsn c { word := (Instr.insb c d x k).word, ws := [d, x] } (fun q =>
    q.setW d (putByte (q.rw d) k.val ((q.rw x).setWidth 8))))

/-- PACKB: wd = (wt bits 7:0) × 2⁸ + (ws bits 7:0). -/
def execPackb (c : CoreId) (d x y : Fin 16) (s : State) : Outcome State Fault Refusal :=
  .next (s.alu3 c (.packb c d x y) d x y (fun o p q => ((byteOf q 0) ++ (byteOf p 0), o)))

/-- SWPB: the two bytes exchanged. -/
def execSwpb (c : CoreId) (d x : Fin 16) (s : State) : Outcome State Fault Refusal :=
  .next (s.alu2 c (.swpb c d x) d x (fun o p => ((byteOf p 0) ++ (byteOf p 1), o)))

/-! ## Immediate forms, OP 0x10–0x13 -/

/-- ADDI: wd = ws + imm. -/
def execAddi (c : CoreId) (d x : Fin 16) (imm : Word) (s : State) : Outcome State Fault Refusal :=
  .next (s.aluI c (.addi c d x imm) d x imm (fun p q => addFlags p q false))

/-- ANDI: bitwise with imm; C and V cleared. -/
def execAndi (c : CoreId) (d x : Fin 16) (imm : Word) (s : State) : Outcome State Fault Refusal :=
  .next (s.aluI c (.andi c d x imm) d x imm (fun p q => (p &&& q, logicFlags (p &&& q))))

/-- ORI: bitwise with imm; C and V cleared. -/
def execOri (c : CoreId) (d x : Fin 16) (imm : Word) (s : State) : Outcome State Fault Refusal :=
  .next (s.aluI c (.ori c d x imm) d x imm (fun p q => (p ||| q, logicFlags (p ||| q))))

/-- XORI: bitwise with imm; C and V cleared. -/
def execXori (c : CoreId) (d x : Fin 16) (imm : Word) (s : State) : Outcome State Fault Refusal :=
  .next (s.aluI c (.xori c d x imm) d x imm (fun p q => (p ^^^ q, logicFlags (p ^^^ q))))

/-- LI: wd = imm. -/
def execLi (c : CoreId) (d : Fin 16) (imm : Word) (s : State) : Outcome State Fault Refusal :=
  .next (s.regInsn c { word := (Instr.li c d imm).word, ws := [d] } (fun k => k.setW d imm))

/-- CMPI: flags of ws − imm. -/
def execCmpi (c : CoreId) (x : Fin 16) (imm : Word) (s : State) : Outcome State Fault Refusal :=
  .next (s.regInsn c { word := (Instr.cmpi c x imm).word, ws := [x] } (fun k =>
    k.setFlags (subFlags (k.rw x) imm false).2))

/-- ADDAI: ad = as + sign-extended imm. -/
def execAddai (c : CoreId) (d a : Fin 8) (imm : Word) (s : State) : Outcome State Fault Refusal :=
  .next (s.regInsn c { word := (Instr.addai c d a imm).word, as := [d, a] } (fun k =>
    k.setA d (k.ra a + imm.signExtend 32)))

/-- LAL: bits 15:0 of ad = imm. -/
def execLal (c : CoreId) (d : Fin 8) (imm : Word) (s : State) : Outcome State Fault Refusal :=
  .next (s.regInsn c { word := (Instr.lal c d imm).word, as := [d] } (fun k =>
    k.setA d ((k.ra d &&& 0xFFFF0000) ||| imm.setWidth 32)))

/-- LAH: bits 31:16 of ad = imm. -/
def execLah (c : CoreId) (d : Fin 8) (imm : Word) (s : State) : Outcome State Fault Refusal :=
  .next (s.regInsn c { word := (Instr.lah c d imm).word, as := [d] } (fun k =>
    k.setA d ((k.ra d &&& 0x0000FFFF) ||| (imm.setWidth 32 <<< 16))))

end Sys2Proof.Machine
end

