-- ==== Sys2Proof/Machine/Vector.lean ====
section
/-! DEFINITION. Vector instructions of a seat (spec/05 R133–R147, R155, R156): loads and stores, integer and
floating-point lanes, compares, moves, reductions, conversions and predicates. -/
namespace Sys2Proof.Machine
open Host

/-! ## Lanes -/

/-- A signed type. -/
def tySigned (t : ElemTy) : Bool := match t with | .i16 => true | .i8 => true | _ => false

/-- A 16-bit integer type. -/
def tyInt16 (t : ElemTy) : Bool := match t with | .i16 => true | .u16 => true | _ => false

/-- An 8-bit integer type. -/
def tyInt8 (t : ElemTy) : Bool := match t with | .i8 => true | .u8 => true | _ => false

/-- A 16-bit floating-point type. -/
def tyF16 (t : ElemTy) : Bool := match t with | .f16 => true | .bf16 => true | _ => false

/-- The format of a floating-point type; binary16 for the others, which no rule uses as one. -/
def tyFmt (t : ElemTy) : FFmt :=
  match t with | .bf16 => fmtBf16 | .e4m3 => fmtE4m3 | .e5m2 => fmtE5m2 | _ => fmtF16

/-- Least and greatest value of an integer type. -/
def tyRange (t : ElemTy) : Int × Int :=
  match t with
  | .i16 => (-32768, 32767) | .u16 => (0, 65535) | .i8 => (-128, 127) | .u8 => (0, 255) | _ => (0, 0)

/-- The integer an element holds. -/
def elemInt {w : Nat} (signed : Bool) (x : BitVec w) : Int := if signed then x.toInt else x.toNat

/-- An operation on the elements of a word: on the word, or on each byte of a packed word (R136). -/
def onElems (t : ElemTy) (f : Int → Int → Int) (x y : Word) : Word :=
  let g := tySigned t
  if tyInt8 t then
    let e := fun (k : Nat) => BitVec.ofInt 8 (f (elemInt g (byteOf x k)) (elemInt g (byteOf y k)))
    e 1 ++ e 0
  else BitVec.ofInt 16 (f (elemInt g x) (elemInt g y))

/-- A vector register with lanes governed by a predicate replaced (R146). -/
def lanes (old : VReg) (p : BitVec 32) (f : Fin 32 → Word) : VReg :=
  Vector.ofFn (fun i : Fin 32 => if p.getLsbD i.val then f i else old.get i)

/-- Every lane replaced. -/
def allLanes (f : Fin 32 → Word) : VReg := Vector.ofFn f

/-- A vector instruction on registers, given its fields: three vector registers, predicate, type, and the lane
operation, ILLEGAL for types it does not allow. -/
def State.vec3 (s : State) (c : CoreId) (i : Instr) (d x y : Fin 16) (pr : Fin 4) (ok : Bool)
    (f : Word → Word → Word → Word) : State :=
  s.runInsn c { word := i.word, vs := [d, x, y], onCox := false, onBh := false } (fun t =>
    let k := t.core c
    if ok then .done (t.setCore c (k.setV d (lanes (k.rv d) (k.rp pr) (fun l => f ((k.rv d).get l) ((k.rv x).get l) ((k.rv y).get l)))))
    else .exc t 1 i.word)

/-- A vector instruction with one source. -/
def State.vec2 (s : State) (c : CoreId) (i : Instr) (d x : Fin 16) (pr : Fin 4) (ok : Bool)
    (f : Word → Word) : State :=
  s.runInsn c { word := i.word, vs := [d, x], onCox := false, onBh := false } (fun t =>
    let k := t.core c
    if ok then .done (t.setCore c (k.setV d (lanes (k.rv d) (k.rp pr) (fun l => f ((k.rv x).get l)))))
    else .exc t 1 i.word)

/-- A floating-point lane operation on codes. -/
def onCodes2 (f : FFmt → Nat → Nat → Nat) (t : ElemTy) (x y : Word) : Word := BitVec.ofNat 16 (f (tyFmt t) x.toNat y.toNat)

/-- A floating-point lane operation with one operand. -/
def onCodes1 (f : FFmt → Nat → Nat) (t : ElemTy) (x : Word) : Word := BitVec.ofNat 16 (f (tyFmt t) x.toNat)

/-! ## Integer, OP 0x28 (R146) -/

/-- VADD: lanes added, modulo the width. -/
def execVadd (c : CoreId) (d x y : Fin 16) (pr : Fin 4) (ty : ElemTy) (s : State) : Outcome State Fault Refusal :=
  .next (s.vec3 c (.vadd c d x y pr ty) d x y pr (tyInt16 ty || tyInt8 ty) (fun _ p q => onElems ty (fun a b => a + b) p q))

/-- VSUB: lanes subtracted, modulo the width. -/
def execVsub (c : CoreId) (d x y : Fin 16) (pr : Fin 4) (ty : ElemTy) (s : State) : Outcome State Fault Refusal :=
  .next (s.vec3 c (.vsub c d x y pr ty) d x y pr (tyInt16 ty || tyInt8 ty) (fun _ p q => onElems ty (fun a b => a - b) p q))

/-- VADDS: lanes added, saturating to the range of TY. -/
def execVadds (c : CoreId) (d x y : Fin 16) (pr : Fin 4) (ty : ElemTy) (s : State) : Outcome State Fault Refusal :=
  .next (s.vec3 c (.vadds c d x y pr ty) d x y pr (tyInt16 ty || tyInt8 ty) (fun _ p q => onElems ty (fun a b => clampInt (tyRange ty).1 (tyRange ty).2 (a + b)) p q))

/-- VSUBS: lanes subtracted, saturating. -/
def execVsubs (c : CoreId) (d x y : Fin 16) (pr : Fin 4) (ty : ElemTy) (s : State) : Outcome State Fault Refusal :=
  .next (s.vec3 c (.vsubs c d x y pr ty) d x y pr (tyInt16 ty || tyInt8 ty) (fun _ p q => onElems ty (fun a b => clampInt (tyRange ty).1 (tyRange ty).2 (a - b)) p q))

/-- VMUL: low 16 bits of lane products. -/
def execVmul (c : CoreId) (d x y : Fin 16) (pr : Fin 4) (ty : ElemTy) (s : State) : Outcome State Fault Refusal :=
  .next (s.vec3 c (.vmul c d x y pr ty) d x y pr (tyInt16 ty) (fun _ p q => p * q))

/-- VMULH: high 16 bits of lane products, by TY signedness. -/
def execVmulh (c : CoreId) (d x y : Fin 16) (pr : Fin 4) (ty : ElemTy) (s : State) : Outcome State Fault Refusal :=
  .next (s.vec3 c (.vmulh c d x y pr ty) d x y pr (tyInt16 ty) (fun _ p q => onElems ty (fun a b => a * b / 65536) p q))

/-- VMIN: lane minima by TY signedness. -/
def execVmin (c : CoreId) (d x y : Fin 16) (pr : Fin 4) (ty : ElemTy) (s : State) : Outcome State Fault Refusal :=
  .next (s.vec3 c (.vmin c d x y pr ty) d x y pr (tyInt16 ty || tyInt8 ty) (fun _ p q => onElems ty (fun a b => if a < b then a else b) p q))

/-- VMAX: lane maxima by TY signedness. -/
def execVmax (c : CoreId) (d x y : Fin 16) (pr : Fin 4) (ty : ElemTy) (s : State) : Outcome State Fault Refusal :=
  .next (s.vec3 c (.vmax c d x y pr ty) d x y pr (tyInt16 ty || tyInt8 ty) (fun _ p q => onElems ty (fun a b => if a < b then b else a) p q))

/-- VAND: bitwise AND. -/
def execVand (c : CoreId) (d x y : Fin 16) (pr : Fin 4) (ty : ElemTy) (s : State) : Outcome State Fault Refusal :=
  .next (s.vec3 c (.vand c d x y pr ty) d x y pr (tyInt16 ty || tyInt8 ty) (fun _ p q => p &&& q))

/-- VOR: bitwise OR. -/
def execVor (c : CoreId) (d x y : Fin 16) (pr : Fin 4) (ty : ElemTy) (s : State) : Outcome State Fault Refusal :=
  .next (s.vec3 c (.vor c d x y pr ty) d x y pr (tyInt16 ty || tyInt8 ty) (fun _ p q => p ||| q))

/-- VXOR: bitwise XOR. -/
def execVxor (c : CoreId) (d x y : Fin 16) (pr : Fin 4) (ty : ElemTy) (s : State) : Outcome State Fault Refusal :=
  .next (s.vec3 c (.vxor c d x y pr ty) d x y pr (tyInt16 ty || tyInt8 ty) (fun _ p q => p ^^^ q))

/-- VSHL: left by vt bits 3:0. -/
def execVshl (c : CoreId) (d x y : Fin 16) (pr : Fin 4) (ty : ElemTy) (s : State) : Outcome State Fault Refusal :=
  .next (s.vec3 c (.vshl c d x y pr ty) d x y pr (tyInt16 ty) (fun _ p q => p <<< (q.toNat % 16)))

/-- VSHR: right by vt bits 3:0; arithmetic for .i16. -/
def execVshr (c : CoreId) (d x y : Fin 16) (pr : Fin 4) (ty : ElemTy) (s : State) : Outcome State Fault Refusal :=
  .next (s.vec3 c (.vshr c d x y pr ty) d x y pr (tyInt16 ty) (fun _ p q => if tySigned ty then p.sshiftRight (q.toNat % 16) else p >>> (q.toNat % 16)))

/-- VMAC: vd + vs × vt, low 16 bits. -/
def execVmac (c : CoreId) (d x y : Fin 16) (pr : Fin 4) (ty : ElemTy) (s : State) : Outcome State Fault Refusal :=
  .next (s.vec3 c (.vmac c d x y pr ty) d x y pr (tyInt16 ty) (fun o p q => o + p * q))

/-- VABS: absolute value; the least value gives itself; unsigned types are ILLEGAL. -/
def execVabs (c : CoreId) (d x : Fin 16) (pr : Fin 4) (ty : ElemTy) (s : State) : Outcome State Fault Refusal :=
  .next (s.vec2 c (.vabs c d x pr ty) d x pr (tySigned ty) (fun p => onElems ty (fun a _ => if a < 0 then -a else a) p p))

/-- VMOV: lanes copied. -/
def execVmov (c : CoreId) (d x : Fin 16) (pr : Fin 4) (ty : ElemTy) (s : State) : Outcome State Fault Refusal :=
  .next (s.vec2 c (.vmov c d x pr ty) d x pr (tyInt16 ty || tyInt8 ty) (fun p => p))

/-! ## Floating point, OP 0x29 (R146, R155) -/

/-- VFADD: sum, rounded once. -/
def execVfadd (c : CoreId) (d x y : Fin 16) (pr : Fin 4) (ty : ElemTy) (s : State) : Outcome State Fault Refusal :=
  .next (s.vec3 c (.vfadd c d x y pr ty) d x y pr (tyF16 ty) (fun _ p q => onCodes2 (fun f a b => f.encode false ((f.decode a).add (f.decode b))) ty p q))

/-- VFSUB: difference. -/
def execVfsub (c : CoreId) (d x y : Fin 16) (pr : Fin 4) (ty : ElemTy) (s : State) : Outcome State Fault Refusal :=
  .next (s.vec3 c (.vfsub c d x y pr ty) d x y pr (tyF16 ty) (fun _ p q => onCodes2 (fun f a b => f.encode false ((f.decode a).add (f.decode b).neg)) ty p q))

/-- VFMUL: product. -/
def execVfmul (c : CoreId) (d x y : Fin 16) (pr : Fin 4) (ty : ElemTy) (s : State) : Outcome State Fault Refusal :=
  .next (s.vec3 c (.vfmul c d x y pr ty) d x y pr (tyF16 ty) (fun _ p q => onCodes2 (fun f a b => f.encode false ((f.decode a).mul (f.decode b))) ty p q))

/-- VFMA: vd + vs × vt, one rounding. -/
def execVfma (c : CoreId) (d x y : Fin 16) (pr : Fin 4) (ty : ElemTy) (s : State) : Outcome State Fault Refusal :=
  .next (s.vec3 c (.vfma c d x y pr ty) d x y pr (tyF16 ty) (fun o p q => onCodes2 (fun f a b => f.encode false ((f.decode o.toNat).add ((f.decode a).mul (f.decode b)))) ty p q))

/-- VFMS: vd − vs × vt, one rounding. -/
def execVfms (c : CoreId) (d x y : Fin 16) (pr : Fin 4) (ty : ElemTy) (s : State) : Outcome State Fault Refusal :=
  .next (s.vec3 c (.vfms c d x y pr ty) d x y pr (tyF16 ty) (fun o p q => onCodes2 (fun f a b => f.encode false ((f.decode o.toNat).add ((f.decode a).mul (f.decode b)).neg)) ty p q))

/-- VFMIN: minimum; −0 orders below +0. -/
def execVfmin (c : CoreId) (d x y : Fin 16) (pr : Fin 4) (ty : ElemTy) (s : State) : Outcome State Fault Refusal :=
  .next (s.vec3 c (.vfmin c d x y pr ty) d x y pr (tyF16 ty) (fun _ p q => onCodes2 FFmt.min2 ty p q))

/-- VFMAX: maximum. -/
def execVfmax (c : CoreId) (d x y : Fin 16) (pr : Fin 4) (ty : ElemTy) (s : State) : Outcome State Fault Refusal :=
  .next (s.vec3 c (.vfmax c d x y pr ty) d x y pr (tyF16 ty) (fun _ p q => onCodes2 FFmt.max2 ty p q))

/-- VFABS: sign cleared, NaN payload kept. -/
def execVfabs (c : CoreId) (d x : Fin 16) (pr : Fin 4) (ty : ElemTy) (s : State) : Outcome State Fault Refusal :=
  .next (s.vec2 c (.vfabs c d x pr ty) d x pr (tyF16 ty) (fun p => p &&& 0x7FFF))

/-- VFNEG: sign inverted, NaN payload kept. -/
def execVfneg (c : CoreId) (d x : Fin 16) (pr : Fin 4) (ty : ElemTy) (s : State) : Outcome State Fault Refusal :=
  .next (s.vec2 c (.vfneg c d x pr ty) d x pr (tyF16 ty) (fun p => p ^^^ 0x8000))

/-- VFRCP: 1 / vs, correctly rounded. -/
def execVfrcp (c : CoreId) (d x : Fin 16) (pr : Fin 4) (ty : ElemTy) (s : State) : Outcome State Fault Refusal :=
  .next (s.vec2 c (.vfrcp c d x pr ty) d x pr (tyF16 ty) (fun p => onCodes1 FFmt.rcp ty p))

/-- VFRSQ: 1 / √vs, correctly rounded. -/
def execVfrsq (c : CoreId) (d x : Fin 16) (pr : Fin 4) (ty : ElemTy) (s : State) : Outcome State Fault Refusal :=
  .next (s.vec2 c (.vfrsq c d x pr ty) d x pr (tyF16 ty) (fun p => onCodes1 FFmt.rsq ty p))

/-- VFEXP2: 2 to the power vs, correctly rounded. -/
def execVfexp2 (c : CoreId) (d x : Fin 16) (pr : Fin 4) (ty : ElemTy) (s : State) : Outcome State Fault Refusal :=
  .next (s.vec2 c (.vfexp2 c d x pr ty) d x pr (tyF16 ty) (fun p => onCodes1 FFmt.exp2 ty p))

/-- VFLOG2: log₂ vs, correctly rounded. -/
def execVflog2 (c : CoreId) (d x : Fin 16) (pr : Fin 4) (ty : ElemTy) (s : State) : Outcome State Fault Refusal :=
  .next (s.vec2 c (.vflog2 c d x pr ty) d x pr (tyF16 ty) (fun p => onCodes1 FFmt.log2 ty p))

/-! ## Compares, OP 0x2A -/

/-- A 32-bit word from its bits. -/
def bitsOf (f : Nat → Bool) : BitVec 32 := BitVec.ofNat 32 (((List.range 32).map (fun i => if f i then 2 ^ i else 0)).sum)

/-- The condition of a compare (R146): EQ, NE, LT, LE, GT, GE; with a NaN false, but for NE. -/
def laneCompare (ty : ElemTy) (cond : Nat) (x y : Word) : Bool :=
  let pick := fun (lt eq nan : Bool) =>
    match cond with
    | 0 => eq
    | 1 => !eq
    | 2 => lt
    | 3 => (lt || eq)
    | 4 => !(lt || eq) && !nan
    | _ => !lt && !nan
  if tyF16 ty then
    let a := (tyFmt ty).decode x.toNat
    let b := (tyFmt ty).decode y.toNat
    pick (a.lt b) (a.eq b) (a.isNan || b.isNan)
  else
    let a := elemInt (tySigned ty) x
    let b := elemInt (tySigned ty) y
    pick (decide (a < b)) (decide (a = b)) false

/-- VCMP: every bit of pd is written; bit i is 1 where the lane satisfies the condition and its predicate bit is 1. -/
def execVcmp (c : CoreId) (pd : Fin 4) (x y : Fin 16) (cond : Fin 6) (pr : Fin 4) (ty : ElemTy) (s : State) : Outcome State Fault Refusal :=
  let word := (Instr.vcmp c pd x y cond pr ty).word
  .next (s.runInsn c { word := word, vs := [x, y], onCox := false, onBh := false } (fun t =>
    let k := t.core c
    if tyInt16 ty || tyF16 ty then
      .done (t.setCore c (k.setP pd (bitsOf (fun i =>
        (k.rp pr).getLsbD i && laneCompare ty cond.val ((k.rv x).toList.getD i 0) ((k.rv y).toList.getD i 0)))))
    else .exc t 1 word))

/-! ## Move and permute, OP 0x2B -/

/-- The lane a w register names: its bits 4:0. -/
def laneIdx (w : Word) : Fin 32 := ⟨w.toNat % 32, Nat.mod_lt _ (by decide)⟩

/-- A move or permute: the registers it names, and what it makes of the core. -/
def State.vmove (s : State) (c : CoreId) (word : BitVec 32) (vs ws : List (Fin 16)) (f : Core → Core) : State :=
  s.regInsn c { word := word, vs := vs, ws := ws, onCox := false, onBh := false } f

/-- VBC: every enabled lane = ws. -/
def execVbc (c : CoreId) (d x : Fin 16) (pr : Fin 4) (s : State) : Outcome State Fault Refusal :=
  .next (s.vmove c (Instr.vbc c d x pr).word [d] [x] (fun k =>
    k.setV d (lanes (k.rv d) (k.rp pr) (fun _ => k.rw x))))

/-- VINS: lane (wt bits 4:0) = ws, if its predicate bit is 1. -/
def execVins (c : CoreId) (d x y : Fin 16) (pr : Fin 4) (s : State) : Outcome State Fault Refusal :=
  .next (s.vmove c (Instr.vins c d x y pr).word [d] [x, y] (fun k =>
    let i := laneIdx (k.rw y)
    if (k.rp pr).getLsbD i.val then k.setV d ((k.rv d).set i (k.rw x)) else k))

/-- VEXT: wd = lane (wt bits 4:0) of vs. -/
def execVext (c : CoreId) (d x y : Fin 16) (s : State) : Outcome State Fault Refusal :=
  .next (s.vmove c (Instr.vext c d x y).word [x] [d, y] (fun k =>
    k.setW d ((k.rv x).get (laneIdx (k.rw y)))))

/-- VPERM: lane i = vs[vt[i] bits 4:0]. -/
def execVperm (c : CoreId) (d x y : Fin 16) (pr : Fin 4) (s : State) : Outcome State Fault Refusal :=
  .next (s.vmove c (Instr.vperm c d x y pr).word [d, x, y] [] (fun k =>
    k.setV d (lanes (k.rv d) (k.rp pr) (fun i => (k.rv x).get (laneIdx ((k.rv y).get i))))))

/-- VROT: lane i = vs[(i + wt bits 4:0) mod 32]. -/
def execVrot (c : CoreId) (d x y : Fin 16) (pr : Fin 4) (s : State) : Outcome State Fault Refusal :=
  .next (s.vmove c (Instr.vrot c d x y pr).word [d, x] [y] (fun k =>
    k.setV d (lanes (k.rv d) (k.rp pr) (fun i => (k.rv x).get (i + laneIdx (k.rw y))))))

/-- VSEL: lane i = vs[i] if predicate bit i is 1, else vt[i]; all lanes written. -/
def execVsel (c : CoreId) (d x y : Fin 16) (pr : Fin 4) (s : State) : Outcome State Fault Refusal :=
  .next (s.vmove c (Instr.vsel c d x y pr).word [d, x, y] [] (fun k =>
    k.setV d (allLanes (fun i => if (k.rp pr).getLsbD i.val then (k.rv x).get i else (k.rv y).get i))))

/-- VIOTA: lane i = i. -/
def execViota (c : CoreId) (d : Fin 16) (pr : Fin 4) (s : State) : Outcome State Fault Refusal :=
  .next (s.vmove c (Instr.viota c d pr).word [d] [] (fun k =>
    k.setV d (lanes (k.rv d) (k.rp pr) (fun i => BitVec.ofNat 16 i.val))))

/-! ## Reductions, OP 0x2C (R146, R147) -/

/-- The lanes that take part. -/
def taking (v : VReg) (p : BitVec 32) : List Word := ((List.finRange 32).filter (fun i => p.getLsbD i.val)).map (fun i => v.get i)

/-- A reduction into a w register. -/
def State.reduce (s : State) (c : CoreId) (i : Instr) (d x : Fin 16) (pr : Fin 4) (ok : Bool)
    (f : VReg → BitVec 32 → Word) : State :=
  s.runInsn c { word := i.word, vs := [x], ws := [d], onCox := false, onBh := false } (fun t =>
    let k := t.core c
    if ok then .done (t.setCore c (k.setW d (f (k.rv x) (k.rp pr)))) else .exc t 1 i.word)

/-- One round of the tree of R147: element i added to element i + h. -/
def treeRound (f : FFmt) (h : Nat) (xs : List Nat) : List Nat :=
  (List.range h).map (fun i => f.encode false ((f.decode (xs.getD i 0)).add (f.decode (xs.getD (i + h) 0))))

/-- The sum of R147; a lane that takes no part enters as −0; +0 if none does. -/
def treeSum (f : FFmt) (v : VReg) (p : BitVec 32) : Nat :=
  if p = 0 then 0
  else
    let xs := (List.finRange 32).map (fun i => if p.getLsbD i.val then (v.get i).toNat else f.signed true 0)
    (treeRound f 1 (treeRound f 2 (treeRound f 4 (treeRound f 8 (treeRound f 16 xs))))).headD 0

/-- VRADD: sum modulo 2¹⁶; 0 if no lane takes part. -/
def execVradd (c : CoreId) (d x : Fin 16) (pr : Fin 4) (ty : ElemTy) (s : State) : Outcome State Fault Refusal :=
  .next (s.reduce c (.vradd c d x pr ty) d x pr (tyInt16 ty) (fun v p => (taking v p).foldl (fun a b => a + b) 0))

/-- VRMIN: minimum; the largest value of the type if no lane takes part. -/
def execVrmin (c : CoreId) (d x : Fin 16) (pr : Fin 4) (ty : ElemTy) (s : State) : Outcome State Fault Refusal :=
  .next (s.reduce c (.vrmin c d x pr ty) d x pr (tyInt16 ty) (fun v p => BitVec.ofInt 16 ((taking v p).foldl (fun a b => if elemInt (tySigned ty) b < a then elemInt (tySigned ty) b else a) (tyRange ty).2)))

/-- VRMAX: maximum; the smallest value of the type if no lane takes part. -/
def execVrmax (c : CoreId) (d x : Fin 16) (pr : Fin 4) (ty : ElemTy) (s : State) : Outcome State Fault Refusal :=
  .next (s.reduce c (.vrmax c d x pr ty) d x pr (tyInt16 ty) (fun v p => BitVec.ofInt 16 ((taking v p).foldl (fun a b => if a < elemInt (tySigned ty) b then elemInt (tySigned ty) b else a) (tyRange ty).1)))

/-- VFRADD: sum by the fixed tree. -/
def execVfradd (c : CoreId) (d x : Fin 16) (pr : Fin 4) (ty : ElemTy) (s : State) : Outcome State Fault Refusal :=
  .next (s.reduce c (.vfradd c d x pr ty) d x pr (tyF16 ty) (fun v p => BitVec.ofNat 16 (treeSum (tyFmt ty) v p)))

/-- VFRMIN: minimum; +∞ if no lane takes part. -/
def execVfrmin (c : CoreId) (d x : Fin 16) (pr : Fin 4) (ty : ElemTy) (s : State) : Outcome State Fault Refusal :=
  .next (s.reduce c (.vfrmin c d x pr ty) d x pr (tyF16 ty) (fun v p => BitVec.ofNat 16 ((taking v p).foldl (fun a b => (tyFmt ty).min2 a b.toNat) (tyFmt ty).top)))

/-- VFRMAX: maximum; −∞ if no lane takes part. -/
def execVfrmax (c : CoreId) (d x : Fin 16) (pr : Fin 4) (ty : ElemTy) (s : State) : Outcome State Fault Refusal :=
  .next (s.reduce c (.vfrmax c d x pr ty) d x pr (tyF16 ty) (fun v p => BitVec.ofNat 16 ((taking v p).foldl (fun a b => (tyFmt ty).max2 a b.toNat) ((tyFmt ty).signed true (tyFmt ty).top))))

/-! ## Conversions, OP 0x2D (R147, R156) -/

/-- The lane mappings of the conversion table: lane to lane, bytes to lanes, lanes to bytes, or not listed. -/
inductive CvtShape where
  | same | widen | narrow | none
  deriving DecidableEq, Repr

/-- The row of the conversion table a pair falls in. -/
def cvtShape (src dst : ElemTy) : CvtShape :=
  match src, dst with
  | .f16, .bf16 => .same
  | .bf16, .f16 => .same
  | .i16, .f16 => .same
  | .i16, .bf16 => .same
  | .f16, .i16 => .same
  | .bf16, .i16 => .same
  | .i8, .i16 => .widen
  | .u8, .i16 => .widen
  | .i8, .f16 => .widen
  | .i8, .bf16 => .widen
  | .u8, .f16 => .widen
  | .u8, .bf16 => .widen
  | .e4m3, .f16 => .widen
  | .e4m3, .bf16 => .widen
  | .e5m2, .f16 => .widen
  | .e5m2, .bf16 => .widen
  | .f16, .e4m3 => .narrow
  | .f16, .e5m2 => .narrow
  | .bf16, .e4m3 => .narrow
  | .bf16, .e5m2 => .narrow
  | .i16, .i8 => .narrow
  | .u16, .u8 => .narrow
  | _, _ => .none

/-- One element converted (R156): rounded to nearest even; overflow as the table of R156 states. -/
def cvtElem (src dst : ElemTy) (sat : Bool) (x : Nat) : Nat :=
  let fsrc := match src with | .f16 => true | .bf16 => true | .e4m3 => true | .e5m2 => true | _ => false
  let fdst := match dst with | .f16 => true | .bf16 => true | .e4m3 => true | .e5m2 => true | _ => false
  let i : Int := if tyInt8 src then elemInt (tySigned src) (BitVec.ofNat 8 x) else elemInt (tySigned src) (BitVec.ofNat 16 x)
  if fdst then
    if fsrc then (tyFmt dst).encode (sat && !(tyF16 dst)) ((tyFmt src).decode x)
    else (tyFmt dst).ofInt i
  else
    let v : Int := if fsrc then (tyFmt src).toI16 x else clampInt (tyRange dst).1 (tyRange dst).2 i
    if tyInt8 dst then (BitVec.ofInt 8 v).toNat else (BitVec.ofInt 16 v).toNat

/-- VCVT. -/
def execVcvt (c : CoreId) (d x : Fin 16) (dst src : ElemTy) (h sat : Bool) (s : State) : Outcome State Fault Refusal :=
  let word := (Instr.vcvt c d x dst src h sat).word
  .next (s.runInsn c { word := word, vs := [d, x], onCox := false, onBh := false } (fun t =>
    let k := t.core c
    let o := if h then 16 else 0
    let src16 := fun (i : Nat) => (k.rv x).toList.getD i 0
    match cvtShape src dst with
    | .same =>
      if h then .exc t 1 word
      else .done (t.setCore c (k.setV d (allLanes (fun i => BitVec.ofNat 16 (cvtElem src dst sat (src16 i.val).toNat)))))
    | .widen =>
      .done (t.setCore c (k.setV d (allLanes (fun i =>
        BitVec.ofNat 16 (cvtElem src dst sat (byteOf (src16 (o + i.val / 2)) (i.val % 2)).toNat)))))
    | .narrow =>
      let b := fun (l : Nat) => BitVec.ofNat 8 (cvtElem src dst sat (src16 l).toNat)
      .done (t.setCore c (k.setV d (allLanes (fun i =>
        if o ≤ i.val && decide (i.val < o + 16) then b (2 * (i.val - o) + 1) ++ b (2 * (i.val - o)) else (k.rv d).get i))))
    | .none => .exc t 1 word))

/-! ## Predicates, OP 0x2E -/

/-- A predicate operation. -/
def State.predOp (s : State) (c : CoreId) (word : BitVec 32) (ws : List (Fin 16)) (as : List (Fin 8)) (f : Core → Core) : State :=
  s.regInsn c { word := word, ws := ws, as := as, onCox := false, onBh := false } f

/-- PAND: bitwise. -/
def execPand (c : CoreId) (d x y : Fin 4) (s : State) : Outcome State Fault Refusal :=
  .next (s.predOp c (Instr.pand c d x y).word [] [] (fun k => k.setP d (k.rp x &&& k.rp y)))

/-- POR: bitwise. -/
def execPor (c : CoreId) (d x y : Fin 4) (s : State) : Outcome State Fault Refusal :=
  .next (s.predOp c (Instr.por c d x y).word [] [] (fun k => k.setP d (k.rp x ||| k.rp y)))

/-- PXOR: bitwise. -/
def execPxor (c : CoreId) (d x y : Fin 4) (s : State) : Outcome State Fault Refusal :=
  .next (s.predOp c (Instr.pxor c d x y).word [] [] (fun k => k.setP d (k.rp x ^^^ k.rp y)))

/-- PNOT: complement. -/
def execPnot (c : CoreId) (d x : Fin 4) (s : State) : Outcome State Fault Refusal :=
  .next (s.predOp c (Instr.pnot c d x).word [] [] (fun k => k.setP d (~~~ k.rp x)))

/-- PTAIL: bit i = 1 when i < wt. -/
def execPtail (c : CoreId) (d : Fin 4) (y : Fin 16) (s : State) : Outcome State Fault Refusal :=
  .next (s.predOp c (Instr.ptail c d y).word [y] [] (fun k =>
    k.setP d (bitsOf (fun i => decide (i < (k.rw y).toNat)))))

/-- PCNT: number of bits set. -/
def execPcnt (c : CoreId) (d : Fin 16) (x : Fin 4) (s : State) : Outcome State Fault Refusal :=
  .next (s.predOp c (Instr.pcnt c d x).word [d] [] (fun k => k.setW d (BitVec.ofNat 16 (bitsSet (k.rp x)))))

/-- PMOVA: ad = ps. -/
def execPmova (c : CoreId) (d : Fin 8) (x : Fin 4) (s : State) : Outcome State Fault Refusal :=
  .next (s.predOp c (Instr.pmova c d x).word [] [d] (fun k => k.setA d (k.rp x)))

/-- PMOVP: pd = as. -/
def execPmovp (c : CoreId) (d : Fin 4) (a : Fin 8) (s : State) : Outcome State Fault Refusal :=
  .next (s.predOp c (Instr.pmovp c d a).word [] [a] (fun k => k.setP d (k.ra a)))

/-! ## Vector loads and stores, OP 0x1C (R141, R143–R145) -/

/-- The words a vector or tile access touches, checked before any is read or written (R144): their places, or the
lowest failing address. -/
def State.vecCheck (s : State) (c : CoreId) (write : Bool) (addrs : List Addr) : Except Addr (List Nat) :=
  match addrs.filter (fun a => match s.access c a.toNat write with | .mem _ => false | _ => true) with
  | [] => .ok (addrs.map (fun a => match s.access c a.toNat write with | .mem w => w | _ => 0))
  | a :: as => .error (lowestAddr (a :: as))

/-- Some address lies in a block whose miss is outstanding: the access waits for it, so that it agrees with earlier
accesses of the core (R113). -/
def State.vecMissed (s : State) (c : CoreId) (addrs : List Addr) : Bool :=
  (s.core c).misses.any (fun m => addrs.any (fun a => lineBlock c a.toNat == m.block))

/-- A vector access waits for earlier accesses of the core to the same words (R113). -/
def State.vecWaits (s : State) (c : CoreId) (write : Bool) (addrs : List Addr) : Bool :=
  s.vecMissed c addrs || s.behindTile c write addrs

/-- What the lookups of a vector access find: each word in turn, of a hitting line or none; or the word whose dirty copy is bad. -/
def State.vecLookups (s : State) (c : CoreId) : List (Addr × Nat) → State × Except Nat (List (Option Word))
  | [] => (s, .ok [])
  | (a, w) :: rest =>
    let r := if cacheable c w then s.lookup c (blockOf a.toNat w) [w % 32] else (s, .miss)
    match r with
    | (s1, .error) => (s1, .error w)
    | (s1, .miss) =>
      match s1.vecLookups c rest with
      | (s2, .ok vs) => (s2, .ok (none :: vs))
      | e => e
    | (s1, .hit l) =>
      match s1.vecLookups c rest with
      | (s2, .ok vs) => (s2, .ok (some (l.get (w % 32)) :: vs))
      | e => e

/-- Words read for a vector or tile access (R145): from the own seat memory, from valid lines, or from their targets. All are read, or
none while an answer is still to come. -/
def State.vecRead (s : State) (c : CoreId) (use : ReadFor) (ps : List (Addr × Nat)) : Got :=
  match s.vecLookups c ps with
  | (s1, .error w) => .error s1 w
  | (s1, .ok hits) =>
    let missing := ((ps.zip hits).filter (fun p => p.2.isNone)).map (fun p => p.1.2)
    match s1.readNow c use missing with
    | .words t vs =>
      let found := missing.zip vs
      .words t ((ps.zip hits).map (fun p =>
        p.2.getD (((found.find? (fun f => f.1 == p.1.2)).map Prod.snd).getD 0)))
    | r => r

/-- The address by which an access named a word. -/
def addrFor (ps : List (Addr × Nat)) (w : Nat) : Addr := ((ps.find? (fun p => p.2 == w)).map Prod.fst).getD (ps.headD (0, 0)).1

/-- Words written in order (R145): into valid lines, into memory of the own crew, and gathered for other crews. -/
def State.vecWriteNear (s : State) (c : CoreId) : List (Addr × Nat × Word) → List (Nat × Word) → State × List (Nat × Word)
  | [], far => (s, far)
  | (a, w, v) :: rest, far =>
    if cacheable c w then
      match s.lookup c (blockOf a.toNat w) [w % 32] with
      | (s1, .hit l) => (s1.setCore c ((s1.core c).putLine (l.put (w % 32) v))).vecWriteNear c rest far
      | (s1, .error) => (s1.pushErr c a).vecWriteNear c rest far
      | (s1, .miss) =>
        if nearTo c w then (s1.writeWord w v).vecWriteNear c rest far
        else s1.vecWriteNear c rest (far ++ [(w, v)])
    else (s.writeWord w v).vecWriteNear c rest far

/-- Some word goes to another crew while the mesh has no room for the core's requests (R266). -/
def State.vecClogged (s : State) (c : CoreId) (ws : List Nat) : Bool := s.coreClogged c && ws.any (fun w => !(nearTo c w))

/-- Words written: those for other crews leave as one packet a crew. -/
def State.vecWrite (s : State) (c : CoreId) (use : ReadFor) (ws : List (Addr × Nat × Word)) : State :=
  let r := (s.bankUse (useRank c use) true ((ws.map (fun p => p.2.1)).filter (nearTo c))).vecWriteNear c ws []
  let crews := (r.2.map (fun p => memCrew p.1)).eraseDups
  crews.foldl (fun t n => t.sendWrite c n false (r.2.filter (fun p => memCrew p.1 == n))) r.1

/-- Enabled lanes, lowest first. -/
def enabled (p : BitVec 32) : List (Fin 32) := (List.finRange 32).filter (fun i => p.getLsbD i.val)

/-- A vector load: lane i from `addr i`. -/
def State.vecLoad (s : State) (c : CoreId) (i : Insn) (d : Fin 16) (b : Fin 8) (wb : Bool) (off : BitVec 12) (pr : Fin 4)
    (addr : Core → Fin 32 → Addr) : State :=
  s.runInsn c { i with onCox := false, onBh := false } (fun t =>
    let k := t.core c
    let ls := enabled (k.rp pr)
    let as := ls.map (addr k)
    if t.vecWaits c false as then .stall
    else
      match t.vecCheck c false as with
      | .error a => .exc t 3 a
      | .ok ws =>
        match t.vecRead c .insn (as.zip ws) with
        | .wait t1 => .wait t1
        | .error t1 w =>
          let t2 := t1.pushErr c (addrFor (as.zip ws) w)
          .done (t2.setCore c ((t2.core c).writeBase b wb off))
        | .words t1 vs =>
          let got := ls.zip vs
          let v := lanes (k.rv d) (k.rp pr) (fun l => ((got.find? (fun g => g.1 == l)).map Prod.snd).getD 0)
          .done (t1.setCore c (((t1.core c).setV d v).writeBase b wb off)))

/-- A vector store: lane i to `addr i`, in increasing order. -/
def State.vecStore (s : State) (c : CoreId) (i : Insn) (d : Fin 16) (b : Fin 8) (wb : Bool) (off : BitVec 12) (pr : Fin 4)
    (addr : Core → Fin 32 → Addr) : State :=
  s.runInsn c { i with onCox := false, onBh := false } (fun t =>
    let k := t.core c
    let ls := enabled (k.rp pr)
    let as := ls.map (addr k)
    if t.vecWaits c true as then .stall
    else
      match t.vecCheck c true as with
      | .error a => .exc t 3 a
      | .ok ws =>
        if t.vecClogged c ws then .stall
        else
          let t1 := t.vecWrite c .insn (as.zip (ws.zip (ls.map (fun l => (k.rv d).get l))))
          .done (t1.setCore c ((t1.core c).writeBase b wb off)))

/-- A stride register w12–w15. -/
def strideReg (sr : Fin 4) : Fin 16 := ⟨12 + sr.val, by omega⟩

/-- VLD: contiguous. -/
def execVld (c : CoreId) (d : Fin 16) (b : Fin 8) (wb : Bool) (off : BitVec 12) (pr : Fin 4) (s : State) : Outcome State Fault Refusal :=
  .next (s.vecLoad c { word := (Instr.vld c d b wb off pr).word, vs := [d], as := [b] } d b wb off pr
    (fun k i => effAddr (k.ra b) wb off + BitVec.ofNat 32 i.val))

/-- VLD.B: one word into every enabled lane. -/
def execVldB (c : CoreId) (d : Fin 16) (b : Fin 8) (wb : Bool) (off : BitVec 12) (pr : Fin 4) (s : State) : Outcome State Fault Refusal :=
  .next (s.vecLoad c { word := (Instr.vldB c d b wb off pr).word, vs := [d], as := [b] } d b wb off pr
    (fun k _ => effAddr (k.ra b) wb off))

/-- VST: contiguous. -/
def execVst (c : CoreId) (d : Fin 16) (b : Fin 8) (wb : Bool) (off : BitVec 12) (pr : Fin 4) (s : State) : Outcome State Fault Refusal :=
  .next (s.vecStore c { word := (Instr.vst c d b wb off pr).word, vs := [d], as := [b] } d b wb off pr
    (fun k i => effAddr (k.ra b) wb off + BitVec.ofNat 32 i.val))

/-- VLDS: strided, the stride sign-extended. -/
def execVlds (c : CoreId) (d : Fin 16) (b : Fin 8) (wb : Bool) (off : BitVec 12) (sr : Fin 4) (pr : Fin 4) (s : State) : Outcome State Fault Refusal :=
  .next (s.vecLoad c { word := (Instr.vlds c d b wb off sr pr).word, vs := [d], as := [b], ws := [strideReg sr] } d b wb off pr
    (fun k i => effAddr (k.ra b) wb off + BitVec.ofNat 32 i.val * (k.rw (strideReg sr)).signExtend 32))

/-- VSTS: strided. -/
def execVsts (c : CoreId) (d : Fin 16) (b : Fin 8) (wb : Bool) (off : BitVec 12) (sr : Fin 4) (pr : Fin 4) (s : State) : Outcome State Fault Refusal :=
  .next (s.vecStore c { word := (Instr.vsts c d b wb off sr pr).word, vs := [d], as := [b], ws := [strideReg sr] } d b wb off pr
    (fun k i => effAddr (k.ra b) wb off + BitVec.ofNat 32 i.val * (k.rw (strideReg sr)).signExtend 32))

end Sys2Proof.Machine
end

