-- ==== Sys2Proof/Machine/Matrix.lean ====
section
/-! DEFINITION. The tile path, the matrix queue and their instructions (spec/05 R133, R137–R142, R148–R154, R156–R159). -/
namespace Sys2Proof.Machine
open Host

/-! ## What queued operations touch (R158) -/

/-- Tiles an operation of the tile path reads. -/
def TileOp.readsT (o : TileOp) : List (Fin 8) :=
  match o with
  | .tst t _ _ => [t] | .ttr _ x => [x] | .vmovt _ t _ => [t] | .tmovr t _ _ => [t] | _ => []

/-- Tiles an operation of the tile path writes. -/
def TileOp.writesT (o : TileOp) : List (Fin 8) :=
  match o with
  | .tld t _ _ => [t] | .tzero t => [t] | .ttr d _ => [d] | .tmovr t _ _ => [t] | _ => []

/-- Accumulators an operation of the tile path touches. -/
def TileOp.accs (o : TileOp) : List (Fin 4) :=
  match o with | .zld z _ _ => [z] | .zst z _ _ => [z] | _ => []

/-- The vector register an operation of the tile path writes. -/
def TileOp.writesV (o : TileOp) : List (Fin 16) := match o with | .vmovt d _ _ => [d] | _ => []

/-- Tiles an operation of the matrix queue reads. -/
def MatOp.readsT (o : MatOp) : List (Fin 8) :=
  match o with | .mma _ a b _ _ _ _ _ => [a, b] | .zcvt t _ _ _ _ _ _ => [t] | _ => []

/-- Tiles an operation of the matrix queue writes. -/
def MatOp.writesT (o : MatOp) : List (Fin 8) := match o with | .zcvt t _ _ _ _ _ _ => [t] | _ => []

/-- Accumulators an operation of the matrix queue touches. -/
def MatOp.accs (o : MatOp) : List (Fin 4) :=
  match o with
  | .mma d _ _ _ _ _ _ _ => [d] | .zzero d => [d] | .zcvt _ z _ _ _ _ _ => [z] | .zmovr _ z _ => [z]

/-- The vector register an operation of the matrix queue writes. -/
def MatOp.writesV (o : MatOp) : List (Fin 16) := match o with | .zmovr d _ _ => [d] | _ => []

/-- An operation of the tile path and one of the matrix queue keep their program order (R158, points 2–5). -/
def tileMatConflict (o : TileOp) (m : MatOp) : Bool :=
  meets o.writesT (m.readsT ++ m.writesT) || meets o.readsT m.writesT || meets o.accs m.accs || meets o.writesV m.writesV

/-- The operation at the head of the tile path may execute: no earlier operation of the matrix queue stands before it. -/
def Core.tileReady (k : Core) : Bool :=
  match k.tileQ with
  | [] => false
  | (n, o) :: _ => !(k.matQ.any (fun q => decide (q.1 < n) && tileMatConflict o q.2))

/-- The operation at the head of the matrix queue may execute. -/
def Core.matReady (k : Core) : Bool :=
  match k.matQ with
  | [] => false
  | (n, m) :: _ => !(k.tileQ.any (fun q => decide (q.1 < n) && tileMatConflict q.2 m))

/-- The tile path has room: four operations, the one in progress among them (R133). -/
def Core.tileRoom (k : Core) : Bool := decide (k.tileQ.length < 4)

/-- The matrix queue has room: four operations waiting, beside the one executing (R133). (log entry 16, DEDUCED) -/
def Core.matRoom (k : Core) : Bool := decide (k.matQ.length < if k.matReady then 5 else 4)

/-- An operation enters the tile path. -/
def Core.pushTile (k : Core) (o : TileOp) : Core := { k with tileQ := k.tileQ ++ [(k.seq, o)], seq := k.seq + 1 }

/-- An operation enters the matrix queue. -/
def Core.pushMat (k : Core) (o : MatOp) : Core := { k with matQ := k.matQ ++ [(k.seq, o)], seq := k.seq + 1 }

/-! ## Issue -/

/-- An instruction bound for the tile path, given whether its fields are legal. -/
def State.tileInsn (s : State) (c : CoreId) (i : Insn) (ok : Bool) (o : Core → TileOp) : State :=
  s.runInsn c { i with onCox := false, onBh := false } (fun t =>
    let k := t.core c
    if !ok then .exc t 1 i.word
    else if !(k.tileRoom) then .stall
    else .done (t.setCore c (k.pushTile (o k))))

/-- An instruction bound for the matrix queue. -/
def State.matInsn (s : State) (c : CoreId) (i : Insn) (ok : Bool) (o : MatOp) : State :=
  s.runInsn c { i with onCox := false, onBh := false } (fun t =>
    let k := t.core c
    if !ok then .exc t 1 i.word
    else if !(k.matRoom) then .stall
    else .done (t.setCore c (k.pushMat o)))

/-- A tile or accumulator load or store (R142, R144): every address is checked at issue. (log entry 15, DEDUCED) -/
def State.tileMemInsn (s : State) (c : CoreId) (i : Instr) (b : Fin 8) (wb : Bool) (stride : TileStride) (write : Bool)
    (row : Nat) (o : Addr → Addr → TileOp) : State :=
  s.runInsn c
    { word := i.word, as := [b], onCox := false, onBh := false
      ws := match stride with | .reg r _ => [tileStrideReg r] | _ => [] } (fun t =>
    let k := t.core c
    let ea := k.tileEa b wb stride
    let st := k.tileStride stride
    if !(k.tileRoom) then .stall
    else if row == 32 && ea.getLsbD 0 then .exc t 5 ea
    else if row == 32 && st.getLsbD 0 then .exc t 5 (ea + st)
    else
      match t.vecCheck c write (tileAddrs ea st row) with
      | .error a => .exc t 3 a
      | .ok _ => .done (t.setCore c ((k.pushTile (o ea st)).tileWriteBase b wb stride)))

/-- TLD: queues a tile load. -/
def execTld (c : CoreId) (t : Fin 8) (b : Fin 8) (wb : Bool) (stride : TileStride) (s : State) : Outcome State Fault Refusal :=
  .next (s.tileMemInsn c (.tld c t b wb stride) b wb stride false 16 (TileOp.tld t))

/-- TST: the flag test of R110, or the tile store of R142. -/
def execTst (c : CoreId) (form : TstForm) (s : State) : Outcome State Fault Refusal :=
  match form with
  | .scalar x y => .next (s.tstScalar c x y)
  | .tile t b wb stride => .next (s.tileMemInsn c (.tst c form) b wb stride true 16 (TileOp.tst t))

/-- ZLD: queues an accumulator load; EA and stride even (R139). -/
def execZld (c : CoreId) (z : Fin 4) (b : Fin 8) (wb : Bool) (stride : TileStride) (s : State) : Outcome State Fault Refusal :=
  .next (s.tileMemInsn c (.zld c z b wb stride) b wb stride false 32 (TileOp.zld z))

/-- ZST: queues an accumulator store. -/
def execZst (c : CoreId) (z : Fin 4) (b : Fin 8) (wb : Bool) (stride : TileStride) (s : State) : Outcome State Fault Refusal :=
  .next (s.tileMemInsn c (.zst c z b wb stride) b wb stride true 32 (TileOp.zst z))

/-- TZERO: every word of the tile becomes 0. -/
def execTzero (c : CoreId) (t : Fin 8) (s : State) : Outcome State Fault Refusal :=
  .next (s.tileInsn c { word := (Instr.tzero c t).word } true (fun _ => .tzero t))

/-- TTR: transpose by whole words. -/
def execTtr (c : CoreId) (d x : Fin 8) (s : State) : Outcome State Fault Refusal :=
  .next (s.tileInsn c { word := (Instr.ttr c d x).word } true (fun _ => .ttr d x))

/-- TMOVR: two tile rows from a vector; the row is even. -/
def execTmovr (c : CoreId) (t : Fin 8) (x : Fin 16) (r : Fin 16) (s : State) : Outcome State Fault Refusal :=
  .next (s.tileInsn c { word := (Instr.tmovr c t x r).word, vs := [x] } (decide (r.val % 2 = 0)) (fun k => .tmovr t (k.rv x) r))

/-- VMOVT: a vector from two tile rows; the row is even. -/
def execVmovt (c : CoreId) (d : Fin 16) (t : Fin 8) (r : Fin 16) (s : State) : Outcome State Fault Refusal :=
  .next (s.tileInsn c { word := (Instr.vmovt c d t r).word, vs := [d] } (decide (r.val % 2 = 0)) (fun _ => .vmovt d t r))

/-- An 8-bit floating-point type. -/
def tyF8 (t : ElemTy) : Bool := match t with | .e4m3 => true | .e5m2 => true | _ => false

/-- The B type of an MMA (R148). -/
def mmaBTy (ty : ElemTy) (bfmt : Fin 4) : ElemTy := match bfmt.val with | 1 => .e4m3 | 2 => .e5m2 | _ => ty

/-- MMA: queues zd = acc + A × B. -/
def execMma (c : CoreId) (d : Fin 4) (a b : Fin 8) (fresh : Bool) (bfmt : Fin 4) (ra rb : Bool) (ty : ElemTy) (s : State) :
    Outcome State Fault Refusal :=
  .next (s.matInsn c
    { word := (Instr.mma c d a b fresh bfmt ra rb ty).word }
    (ty != .u16 && bfmt.val != 3 && (bfmt.val == 0 || tyF8 ty)) (.mma d a b fresh (mmaBTy ty bfmt) ra rb ty))

/-- ZZERO: every element becomes +0. -/
def execZzero (c : CoreId) (d : Fin 4) (s : State) : Outcome State Fault Refusal :=
  .next (s.matInsn c { word := (Instr.zzero c d).word } true (.zzero d))

/-- ZCVT: queues the conversion of an accumulator into a tile. -/
def execZcvt (c : CoreId) (t : Fin 8) (z : Fin 4) (sh : Fin 16) (int sat h : Bool) (ty : ElemTy) (s : State) : Outcome State Fault Refusal :=
  let isInt := tyInt16 ty || tyInt8 ty
  .next (s.matInsn c
    { word := (Instr.zcvt c t z sh int sat h ty).word }
    ((int == isInt) && (int || sh.val == 0) && (!h || tyInt8 ty || tyF8 ty)) (.zcvt t z sh int sat h ty))

/-- ZMOVR: queues a move of one accumulator row into vd. -/
def execZmovr (c : CoreId) (d : Fin 16) (z : Fin 4) (r : Fin 16) (s : State) : Outcome State Fault Refusal :=
  .next (s.matInsn c { word := (Instr.zmovr c d z r).word, vs := [d] } true (.zmovr d z r))

/-! ## Execution (R148–R154, R156) -/

/-- The core with a tile written: each latch tagged with it becomes invalid (R150). -/
def Core.setT (k : Core) (t : Fin 8) (x : Tile) : Core :=
  let keep := fun (l : Latch) => l.filter (fun p => p.1 != t)
  { k with t := k.t.set t x, latchA := keep k.latchA, latchB := keep k.latchB }

/-- The core with an accumulator written. -/
def Core.setAcc (k : Core) (z : Fin 4) (x : Acc) : Core := { k with z := k.z.set z x }

/-- A tile by its words. -/
def tileOf (f : Fin 16 → Fin 16 → Word) : Tile := Vector.ofFn (fun r => Vector.ofFn (fun c => f r c))

/-- An accumulator by its elements. -/
def accOf (f : Fin 16 → Fin 16 → BitVec 32) : Acc := Vector.ofFn (fun r => Vector.ofFn (fun c => f r c))

/-- Word c of row r. -/
def Tile.at (x : Tile) (r c : Fin 16) : Word := (x.get r).get c

/-- Element n of row r. -/
def Acc.at (x : Acc) (r c : Fin 16) : BitVec 32 := (x.get r).get c

/-- The codes A[m][k], in order of k (R138). -/
def aCodes (ty : ElemTy) (x : Tile) (m : Fin 16) : List Nat :=
  (List.finRange 16).flatMap (fun w =>
    if tyInt8 ty || tyF8 ty then [(byteOf (x.at m w) 0).toNat, (byteOf (x.at m w) 1).toNat] else [(x.at m w).toNat])

/-- The codes B[k][n], in order of k (R138). -/
def bCodes (ty : ElemTy) (x : Tile) (n : Fin 16) : List Nat :=
  (List.finRange 16).flatMap (fun i =>
    if tyInt8 ty || tyF8 ty then [(byteOf (x.at i n) 0).toNat, (byteOf (x.at i n) 1).toNat] else [(x.at i n).toNat])

/-- The integer a code of an integer type stands for. -/
def codeInt (ty : ElemTy) (x : Nat) : Int :=
  if tyInt8 ty then elemInt (tySigned ty) (BitVec.ofNat 8 x) else elemInt (tySigned ty) (BitVec.ofNat 16 x)

/-- One element of an MMA (R152–R154). -/
def mmaElem (ty bty : ElemTy) (as bs : List Nat) (acc : BitVec 32) : BitVec 32 :=
  if tyInt16 ty || tyInt8 ty then
    BitVec.ofInt 32 ((as.zip bs).foldl (fun t p => t + codeInt ty p.1 * codeInt bty p.2) acc.toInt)
  else
    BitVec.ofNat 32 ((as.zip bs).foldl (fun t p => macF32 t ((tyFmt ty).decode p.1) ((tyFmt bty).decode p.2)) (flush32 acc.toNat))

/-- The product of an MMA. -/
def mmaResult (ty bty : ElemTy) (a b : Tile) (acc : Acc) : Acc :=
  accOf (fun m n => mmaElem ty bty (aCodes ty a m) (bCodes bty b n) (acc.at m n))

/-- The operand a hinted or unhinted read gives: the latch when it hits, else the tile (R150). -/
def latchRead (hint : Bool) (l : Latch) (t : Fin 8) (x : Tile) : Tile × Latch :=
  if hint then
    match l with
    | some (g, y) => if g = t then (y, l) else (x, some (t, x))
    | none => (x, some (t, x))
  else (x, l)

/-- An int32 element shifted right by `sh`, rounded to nearest even, and saturated to a type (R156). -/
def zcvtInt (ty : ElemTy) (sh : Nat) (x : BitVec 32) : Int :=
  let v := x.toInt
  let q := v / (2 ^ sh : Nat)
  let r := v - q * (2 ^ sh : Nat)
  let q1 := if 2 * r > (2 ^ sh : Nat) || (2 * r == (2 ^ sh : Nat) && q % 2 == 1) then q + 1 else q
  clampInt (tyRange ty).1 (tyRange ty).2 q1

/-- One element converted by ZCVT. -/
def zcvtElem (ty : ElemTy) (sh : Nat) (int sat : Bool) (x : BitVec 32) : Nat :=
  if int then
    (if tyInt8 ty then (BitVec.ofInt 8 (zcvtInt ty sh x)).toNat else (BitVec.ofInt 16 (zcvtInt ty sh x)).toNat)
  else (tyFmt ty).encode (sat && tyF8 ty) (fmtF32.decode (flush32 x.toNat))

/-- The tile after a ZCVT. -/
def zcvtTile (old : Tile) (z : Acc) (ty : ElemTy) (sh : Nat) (int sat h : Bool) : Tile :=
  tileOf (fun m w =>
    if tyInt8 ty || tyF8 ty then
      let base := if h then 8 else 0
      if base ≤ w.val ∧ w.val < base + 8 then
        let e := fun (n : Nat) => BitVec.ofNat 8 (zcvtElem ty sh int sat ((z.get m).toList.getD n 0))
        e (2 * (w.val - base) + 1) ++ e (2 * (w.val - base))
      else old.at m w
    else BitVec.ofNat 16 (zcvtElem ty sh int sat (z.at m w)))

/-- The core after an operation of the matrix queue. -/
def Core.runMat (k : Core) (o : MatOp) : Core :=
  match o with
  | .mma d a b fresh bty ra rb ty =>
    let ta := latchRead ra k.latchA a (k.t.get a)
    let tb := latchRead rb k.latchB b (k.t.get b)
    let acc := if fresh then accOf (fun _ _ => 0) else k.z.get d
    { k.setAcc d (mmaResult ty bty ta.1 tb.1 acc) with latchA := ta.2, latchB := tb.2 }
  | .zzero d => k.setAcc d (accOf (fun _ _ => 0))
  | .zcvt t z sh int sat h ty => k.setT t (zcvtTile (k.t.get t) (k.z.get z) ty sh.val int sat h)
  | .zmovr d z r =>
    k.setV d (allLanes (fun i =>
      let e : BitVec 32 := ((k.z.get z).get r).toList.getD (i.val / 2) 0
      if i.val % 2 = 0 then e.setWidth 16 else (e >>> 16).setWidth 16))

/-- Row r + 1 of a tile, r even. -/
def nextRow (r : Fin 16) : Fin 16 := ⟨(r.val + 1) % 16, Nat.mod_lt _ (by decide)⟩

/-- The words of a tile, row by row. -/
def Tile.words (x : Tile) : List Word := x.toList.flatMap Vector.toList

/-- The words of an accumulator, row by row, low word first (R139). -/
def Acc.words (x : Acc) : List Word :=
  x.toList.flatMap (fun (row : Vector (BitVec 32) 16) => row.toList.flatMap (fun (e : BitVec 32) => [e.setWidth 16, (e >>> 16).setWidth 16]))

/-- A tile from its words, row by row. -/
def tileFrom (ws : Array Word) : Tile := tileOf (fun r c => ws.getD (r.val * 16 + c.val) 0)

/-- An accumulator from its words, row by row. -/
def accFrom (ws : Array Word) : Acc :=
  accOf (fun r n => ws.getD (r.val * 32 + 2 * n.val + 1) 0 ++ ws.getD (r.val * 32 + 2 * n.val) 0)

/-- Words loaded by a transfer: addresses that no longer lead to memory are an error of the target (R144). -/
def State.tileRead (s : State) (c : CoreId) (as : List Addr) : Got :=
  match s.vecCheck c false as with
  | .error _ => .error s 0
  | .ok ws => s.vecRead c .tile (as.zip ws)

/-- Words stored by a transfer: the words the targets accept stand, the others are reported (R144). -/
def State.tileWrite (s : State) (c : CoreId) (as : List Addr) (vs : List Word) : State :=
  let placed := (as.zip vs).map (fun p => (p.1, s.access c p.1.toNat true, p.2))
  let good := placed.filterMap (fun p => match p.2.1 with | .mem w => some (p.1, w, p.2.2) | _ => none)
  let lost := placed.filterMap (fun p => match p.2.1 with | .mem _ => none | _ => some p.1)
  let s1 := s.vecWrite c .tile good
  match lost with
  | [] => s1
  | a :: rest => s1.pushErr c (lowestAddr (a :: rest))

/-- The address a failed load of the tile path reports. -/
def State.tileFailed (s : State) (c : CoreId) (as : List Addr) (w : Nat) : Addr :=
  match s.vecCheck c false as with
  | .error a => a
  | .ok ws => addrFor (as.zip ws) w

/-- A load of the tile path: its words go where `put` says; an error is reported, the destination as it was (R126); none while an
answer is still to come, beside the state with the reads sent. -/
def State.tileLoad (s : State) (c : CoreId) (as : List Addr) (put : Core → Array Word → Core) : State × Bool :=
  match s.tileRead c as with
  | .words t ws => (t.setCore c (put (t.core c) ws.toArray), true)
  | .wait t => (t, false)
  | .error t w => (t.pushErr c (s.tileFailed c as w), true)

/-- A store of the tile path; not while the mesh has no room for it (R266). -/
def State.tileStore (s : State) (c : CoreId) (as : List Addr) (vs : List Word) : State × Bool :=
  if s.coreClogged c then (s, false) else (s.tileWrite c as vs, true)

/-- An operation of the tile path: the state after it, and whether it is done. -/
def State.runTile (s : State) (c : CoreId) (o : TileOp) : State × Bool :=
  let k := s.core c
  match o with
  | .tld t _ _ => s.tileLoad c o.addrs (fun q ws => q.setT t (tileFrom ws))
  | .zld z _ _ => s.tileLoad c o.addrs (fun q ws => q.setAcc z (accFrom ws))
  | .tst t _ _ => s.tileStore c o.addrs (k.t.get t).words
  | .zst z _ _ => s.tileStore c o.addrs (k.z.get z).words
  | .tzero t => (s.setCore c (k.setT t (tileOf (fun _ _ => 0))), true)
  | .ttr d x => (s.setCore c (k.setT d (tileOf (fun r n => (k.t.get x).at n r))), true)
  | .tmovr t v r =>
    (s.setCore c (k.setT t (tileOf (fun i n =>
      if i = r then v.toList.getD n.val 0 else if i = nextRow r then v.toList.getD (16 + n.val) 0 else (k.t.get t).at i n))), true)
  | .vmovt d t r =>
    (s.setCore c (k.setV d (allLanes (fun i =>
      if i.val < 16 then ((k.t.get t).get r).toList.getD i.val 0 else ((k.t.get t).get (nextRow r)).toList.getD (i.val - 16) 0))), true)

/-- The head of the tile path executes, if nothing stands before it and no miss of a line it touches is outstanding
(R113). It leaves the path once it is done. -/
def State.tileStep (s : State) (c : CoreId) : State :=
  let k := s.core c
  match k.tileQ with
  | [] => s
  | (_, o) :: _ =>
    if k.tileReady && !(s.vecMissed c o.addrs) then
      match s.runTile c o with
      | (t, true) =>
        let u := t.dropReads c .tile
        (u.setCore c { u.core c with tileQ := (u.core c).tileQ.drop 1 }).csyncCheck c
      | (t, false) => t
    else s

/-- The head of the matrix queue executes, if nothing stands before it. -/
def State.matStep (s : State) (c : CoreId) : State :=
  let k := s.core c
  match k.matQ with
  | [] => s
  | (_, o) :: rest => if k.matReady then s.setCore c ({ k with matQ := rest }.runMat o) else s

/-- A seat whose crew has power works on its queues; a lane kill has emptied them (R159). -/
def State.seatPowered (s : State) (c : CoreId) : Bool :=
  match c with | .seat crew _ => s.crewUp crew.val | _ => false

/-- TILE_PATH_TRANSFER. -/
def execTilePathTransfer (c : CoreId) (s : State) : Outcome State Fault Refusal :=
  if s.seatPowered c then .next (s.tileStep c) else .next s

/-- MATRIX_QUEUE_OPERATION. -/
def execMatrixQueueOperation (c : CoreId) (s : State) : Outcome State Fault Refusal :=
  if s.seatPowered c then .next (s.matStep c) else .next s

/-- Both queues run on, `n` rounds, until they are empty or held up (R159). -/
def drainQueues : Nat → State → CoreId → State
  | 0, s, _ => s
  | n + 1, s, c => drainQueues n ((s.tileStep c).matStep c) c

end Sys2Proof.Machine
end

