-- ==== Sys2Proof/Machine/Cox.lean ====
section
/-! DEFINITION. The control core's scheduler and scoreboard (spec/07): counters, gates, queues, dispatch, completion, and
seats under the control core. -/
namespace Sys2Proof.Machine
open Host

/-! ## Task records (R200, R201) -/

/-- The three words of gate n. -/
def recGate (ws : List Word) (n : Nat) : Word × BitVec 32 := (recWord ws (10 + 3 * n), recLong ws (11 + 3 * n))

/-- Bits a gate leaves unused are not all 0 (R201). -/
def gateResv (g : Word × BitVec 32) : Bool :=
  match wfld g.1 0 3 with
  | 0 => g.1 != 0 || g.2 != 0
  | 1 => g.1 >>> 9 != 0
  | 2 => g.1 >>> 13 != 0 || g.2 != 0
  | 3 => g.1 >>> 9 != 0 || g.2 != 0
  | 4 => g.1 >>> 5 != 0 || g.2 != 0
  | _ => false

/-- A gate of a reserved kind, or a HANDLE gate naming EMPTY. -/
def gateBad (g : Word × BitVec 32) : Bool := decide (4 < wfld g.1 0 3) || (wfld g.1 0 3 == 2 && wfld g.1 11 2 == 0)

/-- The first check a record fails (R210, R217), 0 if none. -/
def State.recCheck (s : State) (c : Nat) (ws : List Word) : Nat :=
  let w := recWord ws
  let adv := (w 4).getLsbD 2
  let hupd := (w 4).getLsbD 3
  let ax := (w 6).getLsbD 13
  let acrew := wfld (w 6) 6 7
  let g0 := recGate ws 0
  let g1 := recGate ws 1
  if w 4 >>> 4 != 0 || w 5 >>> 8 != 0 || w 6 >>> 14 != 0 || w 7 >>> 8 != 0 || w 8 >>> 10 != 0
      || (!adv && (w 6 != 0 || w 7 != 0)) || (!hupd && w 8 != 0) || (!ax && acrew != 0) || gateResv g0 || gateResv g1 then 1
  else if (w 0).getLsbD 0 then 2
  else if wfld (w 5) 0 8 == 0 then 3
  else if adv && (wfld (w 7) 0 8 == 0 || (ax && (decide (95 < acrew) || s.laneOf acrew != s.laneOf c))) then 5
  else if gateBad g0 || gateBad g1 then 4
  else if (wfld g0.1 0 3 == 2 && !(s.hStateUse c c (wfld g0.1 3 8))) || (wfld g1.1 0 3 == 2 && !(s.hStateUse c c (wfld g1.1 3 8))) then 6
  else 0

/-! ## Queues -/

/-- Ring slots, log₂ (R206). -/
def State.qSize (s : State) (c q : Nat) : Nat := min 10 (s.fld (R.COX_Q_CTRL c q) 8 4)

/-- The queue with its state set. -/
def State.setQState (s : State) (c q st : Nat) : State := s.setFld (R.COX_Q_STAT c q) 0 2 st

/-- The queue enters ERROR (R217). -/
def State.qError (s : State) (c q code : Nat) : State := (s.setFld (R.COX_Q_STAT c q) 0 2 2).setFld (R.COX_Q_STAT c q) 2 4 code

/-- The head buffer of a queue set or emptied. -/
def State.setHead (s : State) (c q : Nat) (h : Option HeadBuf) : State :=
  let k := s.schedOf c
  let rest := k.heads.filter (fun p => p.1 != q)
  s.setSched c { k with heads := match h with
    | some b => rest.filter (fun p => decide (p.1 < q)) ++ (q, b) :: rest.filter (fun p => decide (q < p.1))
    | none => rest }

/-- The key of a mark: the queue, and a catch group (0–63) or 64 + a phase (R211). -/
def markKey (q ev : Nat) : Nat := q * 128 + ev

/-- The marks of a queue brought into line with its HEAD and TAIL: those that HEAD has reached are dropped, those past a
lowered TAIL move down to it. -/
def State.trimMarks (s : State) (c q : Nat) : State :=
  let k := s.schedOf c
  let n := s.qCount c q
  let hd := s.qHead c q
  s.setSched c { k with marks := k.marks.filterMap (fun p =>
    if p.1 / 128 = q then
      let ahead := (p.2 + 2048 - hd) % 2048
      let m := min ahead n
      if m = 0 ∨ 1024 < ahead then none else some (p.1, (hd + m) % 2048)
    else some p) }

/-- An event marks every queue's TAIL (R211). -/
def State.markAll (s : State) (c ev : Nat) : State :=
  (List.range 32).foldl (fun t q =>
    if t.qCount c q = 0 then t
    else
      let k := t.schedOf c
      t.setSched c { k with marks := mapSet (fun _ => 2048) k.marks (markKey q ev) (t.qTail c q) }) s

/-! ## Lateness (R95, R96, R220) -/

/-- The crew has late work: on a seat or at the head of a queue. -/
def State.lateWork (s : State) (c : Nat) : Bool :=
  (crewSeats (crewOf c)).any (fun k => ((s.core k).task.map Task.late).getD false) ||
    (s.schedOf c).heads.any (fun p => p.2.late)

/-- LATE and the hold request clear when the crew's last late task completes (R96, R98). -/
def State.lateCheck (s : State) (c : Nat) : State :=
  if s.bit (R.COX_STROKE_STAT c) 9 && !(s.lateWork c) then
    { s.clrReg (R.COX_STROKE_STAT c) 0x0200 with holding := s.holding &&& ~~~ BitVec.ofNat 96 (2 ^ c) }.holdSettle
  else s

/-- The head buffer is discarded. -/
def State.dropHead (s : State) (c q : Nat) : State := (s.setHead c q none).lateCheck c

/-! ## Gates (R201–R204, R211) -/

/-- The gate's condition holds now; CATCH and PHASE gates open by their events. -/
def State.gateNow (s : State) (c : Nat) (g : Word × BitVec 32) : Bool :=
  match wfld g.1 0 3 with
  | 0 => true
  | 1 => decide ((s.reg32 (R.COX_CNT_LO c (wfld g.1 3 6)) - g.2).toNat < 2 ^ 31)
  | 2 => s.hState c (wfld g.1 3 8) == wfld g.1 11 2
  | _ => false

/-- The event that opens a CATCH or PHASE gate. -/
def gateEvent (g : Word × BitVec 32) : Option Nat :=
  match wfld g.1 0 3 with
  | 3 => some (wfld g.1 3 6)
  | 4 => some (64 + wfld g.1 3 2)
  | _ => none

/-- A head buffer with gates latched; once both are open the record is ready (R202, R212, R220). (log entry 12, DEDUCED) -/
def State.latchGates (s : State) (c q : Nat) (b : HeadBuf) (o0 o1 : Bool) : State :=
  let g0 := b.g0 || o0
  let g1 := b.g1 || o1
  if g0 && g1 && b.ready.isNone then
    let k := s.schedOf c
    (s.setSched c { k with stamp := k.stamp + 1 }).setHead c q
      (some { b with g0 := g0, g1 := g1, ready := some k.stamp, stroke := s.strokeNow })
  else s.setHead c q (some { b with g0 := g0, g1 := g1 })

/-- The scoreboard evaluates the gates of a queue's head record. -/
def State.evalGates (s : State) (c q : Nat) : State :=
  match s.headOf c q with
  | none => s
  | some b => s.latchGates c q b (s.gateNow c (recGate b.words 0)) (s.gateNow c (recGate b.words 1))

/-! ### Gates of DMA engines (R234) -/

/-- Engine n of crew c. -/
def State.eng (s : State) (c n : Nat) : Dma := mapGet (fun _ => Dma.empty) s.dma (c * 4 + n)

/-- The state with an engine set. -/
def State.setEng (s : State) (c n : Nat) (d : Dma) : State := { s with dma := mapSet (fun _ => Dma.empty) s.dma (c * 4 + n) d }

/-- STATE of an engine: 0 IDLE, 1 FETCH, 2 WAIT, 3 RUN, 4 VERIFY, 5 HALTED, 6 ABORTING. -/
def State.dmaState (s : State) (c n : Nat) : Nat := s.fld (R.DMA_STAT c n) 0 3

/-- The gate of a descriptor holds now. -/
def State.dmaGateNow (s : State) (c : Nat) (ws : List Word) : Bool :=
  match wfld (recWord ws 12) 0 2 with
  | 1 => decide ((s.reg32 (R.COX_CNT_LO c (wfld (recWord ws 12) 2 6)) - recLong ws 13).toNat < 2 ^ 31)
  | 2 => s.hState c (wfld (recWord ws 12) 2 8) == wfld (recWord ws 12) 10 2
  | _ => true

/-- An engine in WAIT looks at its gate: once it has held, it is open. -/
def State.latchDma (s : State) (c n : Nat) : State :=
  let d := s.eng c n
  if s.dmaState c n == 2 && !d.opened && s.dmaGateNow c d.words then s.setEng c n { d with opened := true } else s

/-- The scoreboard evaluates every head record, and every engine in WAIT its gate: done before a counter or handle changes again, so
that a condition that held is latched (R202, R234). (log entry 12, DEDUCED) -/
def State.settle (s : State) (c : Nat) : State :=
  (List.range 4).foldl (fun t n => t.latchDma c n) ((List.range 32).foldl (fun t q => t.evalGates c q) s)

/-- A catch-group completion or phase entry in a crew: gates naming it open, TAIL is marked (R94, R211). (log entry 12, DEDUCED) -/
def State.gateEventAll (s : State) (c ev : Nat) : State :=
  let s1 := (List.range 32).foldl (fun t q =>
    match t.headOf c q with
    | none => t
    | some b => t.latchGates c q b (gateEvent (recGate b.words 0) == some ev) (gateEvent (recGate b.words 1) == some ev)) s
  s1.markAll c ev

/-- A counter advances (R204): refused while the crew's lane is killed (R384). -/
def State.advanceCnt (s : State) (c cnt amt : Nat) : State :=
  if s.crewKilled c then s
  else (s.settle c).addWrap32 (R.COX_CNT_LO c cnt) amt

/-- The STATE of a handle changes. -/
def State.setHandle (s : State) (c h st : Nat) : State := (s.settle c).setFld (R.HT_CTRL c h) 0 2 st

/-- CNT_INC: a COX_CNT_INC write. -/
def execCntInc (crew : Fin 96) (cnt : Fin 64) (amt : BitVec 8) (s : State) : Outcome State Fault Refusal :=
  if s.crewUp crew.val then .next (s.advanceCnt crew.val cnt.val amt.toNat) else .next s

/-- GATE_EVALUATION. -/
def execGateEvaluation (crew : Fin 96) (q : Fin 32) (s : State) : Outcome State Fault Refusal :=
  if s.crewUp crew.val then .next (s.evalGates crew.val q.val) else .next s

/-- A COX_HCAS write (R181): compare and store, the result kept for the requester. -/
def State.hcasWrite (s : State) (who : Requester) (c h expect new : Nat) : State :=
  let key := c * 98 + requesterKey who
  let put := fun (t : State) (v : Nat) => { t with hcasRes := mapSet (fun _ => 0) t.hcasRes key (BitVec.ofNat 16 v) }
  if s.crewScrub c then put s 0
  else
    let seen := s.hState c h
    if seen = expect then put (s.setHandle c h new) (1 + 2 * seen) else put s (2 * seen)

/-- HCAS. -/
def execHcas (who : Requester) (crew : Fin 96) (h : Fin 256) (expect new : Fin 4) (s : State) : Outcome State Fault Refusal :=
  if s.crewUp crew.val then .next (s.hcasWrite who crew.val h.val expect.val new.val) else .next s

/-- COX_DBELL_SET: doorbell bits set (R221). -/
def State.coxDoorbell (s : State) (c : Nat) (bits : Word) : State := s.orReg (R.COX_DBELL_STAT c) bits

/-- COX_DBELL_SET. -/
def execCoxDbellSet (crew : Fin 96) (bits : Word) (s : State) : Outcome State Fault Refusal :=
  if s.crewUp crew.val then .next (s.coxDoorbell crew.val bits) else .next s

/-! ## Ring and queue control (R206, R207, R209, R217) -/

/-- The crew-store offset of ring slot 0, in the own-alias or the global form. -/
def State.ringOff (s : State) (c q : Nat) : Option Nat :=
  let b := (s.reg32 (R.COX_Q_BASE_LO c q)).toNat
  if 0x100000 ≤ b ∧ b < 0x900000 then some (b - 0x100000)
  else if storeBase c ≤ b ∧ b < storeBase (c + 1) then some (b - storeBase c)
  else none

/-- The ring check of R206. -/
def State.ringOk (s : State) (c q : Nat) : Bool :=
  match s.ringOff c q with
  | none => false
  | some o =>
    let e := o + 16 * 2 ^ s.qSize c q
    decide (e ≤ 0x800000) && !(s.ccOn c && decide (0x7C0000 < e))

/-- The words of the slot of record i, as global word addresses; none where the slot is unmapped. -/
def State.slotWords (s : State) (c q i : Nat) : Option (List Nat) :=
  match s.ringOff c q with
  | none => none
  | some o =>
    let b := storeBase c + o + 16 * (i % 2 ^ s.qSize c q)
    let ws := (List.range 16).map (fun n => b + n)
    if ws.all (fun w => decide (w < storeBase (c + 1)) && !(s.inCacheRange w)) then some ws else none

/-- A write of COX_Qq_CTRL (R206). -/
def State.qCtrlWrite (s : State) (c q : Nat) (v : Word) : State :=
  let a := R.COX_Q_CTRL c q
  let old := s.reg a
  let en := v.getLsbD 0
  let v1 := if old.getLsbD 0 then (v &&& 0x00FD) ||| (old &&& 0x0F02) else v &&& 0x0FFF
  let s1 := s.setReg a v1
  if !en then ((s1.setQState c q 0).dropHead c q)
  else if old.getLsbD 0 then s1
  else
    let s2 := (((s1.setReg (R.COX_Q_HEAD c q) 0).setReg (R.COX_Q_TAIL c q) 0).dropHead c q).trimMarks c q
    if s2.ringOk c q then s2.setQState c q 1 else s2.qError c q 8

/-- QUEUE_ENABLE: a write of COX_Qq_CTRL with EN = 1. (log entry 13, DESIGN CHOICE) -/
def execQueueEnable (crew : Fin 96) (q : Fin 32) (ctrl : Word) (s : State) : Outcome State Fault Refusal :=
  if s.crewUp crew.val then .next (s.qCtrlWrite crew.val q.val (ctrl ||| 1)) else .next s

/-- QUEUE_DISABLE: a write of COX_Qq_CTRL with EN = 0. (log entry 13, DESIGN CHOICE) -/
def execQueueDisable (crew : Fin 96) (q : Fin 32) (ctrl : Word) (s : State) : Outcome State Fault Refusal :=
  if s.crewUp crew.val then .next (s.qCtrlWrite crew.val q.val (ctrl &&& 0xFFFE)) else .next s

/-- A write of COX_Qq_BASE (R206): ignored while EN is 1. -/
def State.qBaseWrite (s : State) (c q a : Nat) (v : Word) : State := if s.qEn c q then s else s.setReg a v

/-- A write of TAIL (R207). -/
def State.qTailWrite (s : State) (c q : Nat) (v : Word) : State :=
  if s.qEvent c q then s
  else
    let t := v.toNat % 2048
    let n := (t + 2048 - s.qHead c q) % 2048
    if 2 ^ s.qSize c q < n then s.qError c q 9
    else
      let s1 := (s.setReg (R.COX_Q_TAIL c q) (BitVec.ofNat 16 t)).trimMarks c q
      if n = 0 then s1.dropHead c q else s1

/-- TAIL_WRITE. -/
def execTailWrite (crew : Fin 96) (q : Fin 32) (v : Word) (s : State) : Outcome State Fault Refusal :=
  if s.crewUp crew.val then .next (s.qTailWrite crew.val q.val v) else .next s

/-- A write of HEAD (R209): a forward move of no more than the count, in EVENT mode. -/
def State.qHeadWrite (s : State) (c q : Nat) (v : Word) : State :=
  let h := v.toNat % 2048
  if s.qEvent c q && decide ((h + 2048 - s.qHead c q) % 2048 ≤ s.qCount c q) then
    s.setReg (R.COX_Q_HEAD c q) (BitVec.ofNat 16 h)
  else s

/-- HEAD_WRITE. -/
def execHeadWrite (crew : Fin 96) (q : Fin 32) (v : Word) (s : State) : Outcome State Fault Refusal :=
  if s.crewUp crew.val then .next (s.qHeadWrite crew.val q.val v) else .next s

/-- HEAD moves past the head record. -/
def State.retireHead (s : State) (c q : Nat) : State :=
  (s.setReg (R.COX_Q_HEAD c q) (BitVec.ofNat 16 ((s.qHead c q + 1) % 2048))).trimMarks c q

/-- HEAD_FETCH (R210, R211): a queue in RUN with a record and an empty head buffer reads and checks its head record;
from then on its gates are evaluated. -/
def execHeadFetch (crew : Fin 96) (q : Fin 32) (s : State) : Outcome State Fault Refusal :=
  let c := crew.val
  if s.crewUp c && s.qState c q.val == 1 && !(s.qEvent c q.val) && (s.headOf c q.val).isNone && s.qCount c q.val != 0 then
    match s.slotWords c q.val (s.qHead c q.val) with
    | none => .next (s.qError c q.val 8)
    | some as =>
      match s.readWords c as with
      | (s1, none) => .next (s1.qError c q.val 10)
      | (s1, some ws) =>
        match s1.recCheck c ws with
        | 0 =>
          let marked := fun (g : Word × BitVec 32) => match gateEvent g with
            | some ev => mapGet (fun _ => 2048) (s1.schedOf c).marks (markKey q.val ev) != 2048
            | none => false
          let b : HeadBuf := { index := s1.qHead c q.val, words := ws, slot := BitVec.ofNat 32 (as.headD 0)
                               g0 := marked (recGate ws 0), g1 := marked (recGate ws 1), ready := none, stroke := none, late := false }
          .next ((s1.setHead c q.val (some b)).evalGates c q.val)
        | n => .next (s1.qError c q.val n)
  else .next s

/-- RESTART, SKIP or FLUSH: what COX_Qq_CMD does (R206, R217). -/
def State.qRestart (s : State) (c q : Nat) : State :=
  if s.qState c q != 2 then s
  else if !(s.qEn c q) then s.setQState c q 0
  else if s.fld (R.COX_Q_STAT c q) 2 4 == 8 && !(s.ringOk c q) then s
  else (s.dropHead c q).setQState c q 1

/-- SKIP retires the head record of a queue in ERROR without its actions. -/
def State.qSkip (s : State) (c q : Nat) : State :=
  if s.qState c q != 2 then s
  else if !(s.qEn c q) then s.setQState c q 0
  else if s.fld (R.COX_Q_STAT c q) 2 4 == 8 && !(s.ringOk c q) then s
  else
    let s1 := (s.dropHead c q).setQState c q 1
    if s1.qCount c q = 0 then s1 else s1.retireHead c q

/-- FLUSH: HEAD = TAIL, the head buffer discarded. -/
def State.qFlush (s : State) (c q : Nat) : State :=
  ((s.setReg (R.COX_Q_HEAD c q) (s.reg (R.COX_Q_TAIL c q))).dropHead c q).trimMarks c q

/-- RESTART. -/
def execRestart (crew : Fin 96) (q : Fin 32) (s : State) : Outcome State Fault Refusal :=
  if s.crewUp crew.val then .next (s.qRestart crew.val q.val) else .next s

/-- SKIP. -/
def execSkip (crew : Fin 96) (q : Fin 32) (s : State) : Outcome State Fault Refusal :=
  if s.crewUp crew.val then .next (s.qSkip crew.val q.val) else .next s

/-- FLUSH. -/
def execFlush (crew : Fin 96) (q : Fin 32) (s : State) : Outcome State Fault Refusal :=
  if s.crewUp crew.val then .next (s.qFlush crew.val q.val) else .next s

/-- An event record posted by the remote-access logic (R206, R209, R337): written at TAIL, or dropped and counted. -/
def State.postEvent (s : State) (c q : Nat) (ws : List Word) : State :=
  if s.qState c q != 1 || !(s.qEvent c q) then s
  else if s.qCount c q = 2 ^ s.qSize c q then s.addSat (R.COX_Q_DROP c q) 1
  else
    match s.slotWords c q (s.qTail c q) with
    | none => (s.addSat (R.COX_Q_DROP c q) 1).qError c q 8
    | some as =>
      (s.writeWords (as.zip ws)).setReg (R.COX_Q_TAIL c q) (BitVec.ofNat 16 ((s.qTail c q + 1) % 2048))

/-! ## Dispatch (R212–R214) -/

/-- The lowest IDLE seat among those a record names. -/
def State.idleSeat (s : State) (c : Nat) (seats : Nat) : Option (Fin 8) :=
  (List.finRange 8).find? (fun n => seats.testBit n.val && (s.core (.seat (crewOf c) n)).mode == .idle)

/-- The queue's head record may be dispatched in a round (R212). -/
def State.eligible (s : State) (c q : Nat) : Bool :=
  match s.headOf c q with
  | none => false
  | some b =>
    !(s.qEvent c q) && s.qState c q == 1 && b.ready.isSome && decide (s.qRunning c q < s.fld (R.COX_Q_CTRL c q) 5 3 + 1)
      && (s.idleSeat c (wfld (recWord b.words 5) 0 8)).isSome

/-- PRIO of a queue. -/
def State.qPrio (s : State) (c q : Nat) : Nat := s.fld (R.COX_Q_CTRL c q) 2 3

/-- When a queue's head record became ready. -/
def State.readyStamp (s : State) (c q : Nat) : Nat := ((s.headOf c q).bind HeadBuf.ready).getD 0

/-- The queue a round chooses: highest PRIO, then ready earliest, then lowest number. -/
def State.bestQueue (s : State) (c : Nat) : Option Nat :=
  ((List.range 32).filter (fun q => s.eligible c q)).foldl (fun best q =>
    match best with
    | none => some q
    | some p => if s.qPrio c p < s.qPrio c q ∨ (s.qPrio c p = s.qPrio c q ∧ s.readyStamp c q < s.readyStamp c p) then some q else best) none

/-- A seat as a task starts on it (R214). Loads of an earlier task that are still outstanding write no register of the
new one; its stores, its error reports and what it left in the tile path and the matrix queue go on. (log entry 22, DESIGN CHOICE) -/
def Core.startTask (k : Core) (t : Task) : Core :=
  { k with
    mode := .running, stepDue := false, fbuf := none, task := some t, wait := none, stopReq := false, stopping := none, halted := false
    pc := recLong t.words 0
    a := #v[recLong t.words 2, t.slot, 0, 0, 0, 0, 0, 0x00020000]
    w := (((Vector.replicate 16 0).set 0 (BitVec.ofNat 16 t.queue)).set 1 (recWord t.words 9))
    cst := 0, ls := Vector.replicate 4 0, le := Vector.replicate 4 0, lc := Vector.replicate 4 0
    latchA := none, latchB := none, busyW := 0, busyA := 0, returned := [], cgw := []
    misses := k.misses.map (fun m => { m with ops := m.ops.filter (fun o => match o with | .store _ _ => true | _ => false) }) }

/-- DISPATCH_ROUND (R212). -/
def execDispatchRound (crew : Fin 96) (s : State) : Outcome State Fault Refusal :=
  let c := crew.val
  if s.crewUp c && s.bit (R.COX_CTRL c) 0 && !(s.noDispatch.getLsbD c) then
    match s.bestQueue c with
    | none => .next s
    | some q =>
      match s.headOf c q with
      | none => .next s
      | some b =>
        match s.idleSeat c (wfld (recWord b.words 5) 0 8) with
        | none => .next s
        | some n =>
          let t : Task := ⟨q, b.words, b.slot, b.stroke, b.late⟩
          let s1 := s.setCore (.seat crew n) ((s.core (.seat crew n)).startTask t)
          .next (((s1.setHead c q none).retireHead c q).addWrap32 (R.COX_DISPATCHED_LO c) 1)
  else .next s

/-! ## Completion (R216) -/

/-- COX_TDONE gets a queue's bit. -/
def State.setTdone (s : State) (c q : Nat) : State :=
  s.orReg (if q < 16 then R.COX_TDONE_LO c else R.COX_TDONE_HI c) (BitVec.ofNat 16 (2 ^ (q % 16)))

/-- The completion actions of a task: handle update, counter advance, TDONE. -/
def State.taskActions (s : State) (c : Nat) (t : Task) : State :=
  let w := recWord t.words
  let hupd := (w 4).getLsbD 3
  let h := wfld (w 8) 0 8
  if hupd && !(s.hStateUse c c h) then s.qError c t.queue 7
  else
    let s1 := if hupd then s.setHandle c h (wfld (w 8) 8 2) else s
    let irq := (w 4).getLsbD 1
    if (w 4).getLsbD 2 then
      if (w 6).getLsbD 13 then
        s1.pushCtl (.cox (crewOf c)) (.advance ⟨c, t.queue, wfld (w 6) 6 7, wfld (w 6) 0 6, wfld (w 7) 0 8, irq⟩)
      else
        let s2 := s1.advanceCnt c (wfld (w 6) 0 6) (wfld (w 7) 0 8)
        if irq then s2.setTdone c t.queue else s2
    else if irq then s1.setTdone c t.queue else s1

/-- A seat without a task: IDLE, or STOPPED where a STOP waited. A request of the HALT policy ends with the task it would have
stopped. (log entry 22, DESIGN CHOICE) -/
def Core.endTask (k : Core) : Core :=
  { k with mode := if k.stopReq && !k.halted then .stopped else .idle, task := none, wait := none, stopReq := false, stopping := none
           halted := false, stepDue := false }

/-- TEND: the seat's task ends; ILLEGAL on other cores. -/
def execTend (c : CoreId) (s : State) : Outcome State Fault Refusal :=
  .next (s.runInsn c { word := (Instr.tend c).word, onCox := false, onBh := false } (fun t =>
    .wait (t.setCore c { t.core c with wait := some .tend })))

/-- TASK_COMPLETION: the seat's queues drain, and the control core applies the completion actions. -/
def execTaskCompletion (crew : Fin 96) (n : Fin 8) (s : State) : Outcome State Fault Refusal :=
  let c : CoreId := .seat crew n
  if s.crewUp crew.val && (s.core c).wait == some .tend then
    let s1 := drainQueues 9 s c
    if (s1.core c).tileQ.isEmpty && (s1.core c).matQ.isEmpty then
      match (s1.core c).task with
      | some t => .next (((s1.setCore c (s1.core c).endTask).taskActions crew.val t).lateCheck crew.val)
      | none => .next (s1.setCore c (s1.core c).endTask)
    else .next s1
  else .next s

/-! ### The control network's order (R48, R269, R270) -/

/-- The advance a transaction is. -/
def CtlTxn.advance (t : CtlTxn) : Option Advance := match t.kind with | .advance a => some a | _ => none

/-- The n-th transaction under way may be served: none of its requester is before it (R48, R270), and round-robin, its requester has
not been served in this round, or nobody waits who has not. (log entry 73, DESIGN CHOICE) -/
def State.ctlTurn (s : State) (n : Nat) (t : CtlTxn) : Bool :=
  !((s.ctl.take n).any (fun u => u.who == t.who)) &&
    (!(s.ctlRound.contains t.who) || s.ctl.all (fun u => s.ctlRound.contains u.who))

/-- A requester has been served: a new round begins once everybody that waits has been. -/
def State.ctlServed (s : State) (who : Requester) : State :=
  { s with ctlRound := if s.ctlRound.contains who then [who] else s.ctlRound ++ [who] }

/-- The n-th transaction under way that satisfies a test, and its place; none while it is not its turn. -/
def State.ctlPick (s : State) (n : Nat) (f : CtlTxn → Bool) : Option (CtlTxn × Nat) :=
  match (s.ctl.zipIdx.filter (fun p => f p.1))[n]? with
  | some (t, i) => if s.ctlTurn i t then some (t, i) else none
  | none => none

/-- The transaction at a place leaves the network. -/
def State.ctlLeave (s : State) (t : CtlTxn) (i : Nat) : State := { s with ctl := s.ctl.eraseIdx i }.ctlServed t.who

/-- An advance reaches its counter (R216). -/
def State.advanceArrives (s : State) (a : Advance) : State :=
  if !(s.crewUp a.target) || s.laneOf a.target != s.laneOf a.crew then s.qError a.crew a.queue 5
  else if s.crewKilled a.target then s
  else
    let s1 := s.advanceCnt a.target a.cnt a.inc
    if a.irq then s1.setTdone a.crew a.queue else s1

/-- COUNTER_ADVANCE_ARRIVAL: the n-th advance on the control network arrives, behind every earlier transaction of its control core
(R216, R270). -/
def execCounterAdvanceArrival (n : Nat) (s : State) : Outcome State Fault Refusal :=
  match s.ctlPick n (fun t => t.advance.isSome) with
  | some (t, i) => .next (match t.advance with | some a => (s.ctlLeave t i).advanceArrives a | none => s)
  | none => .next s

/-! ## Seats under the control core (R218, R130) -/

/-- STOP: the stop of a running seat is due; an IDLE seat is STOPPED. -/
def State.seatStop (s : State) (c n : Nat) : State :=
  let id : CoreId := .seat (crewOf c) (seatOf n)
  let k := s.core id
  match k.mode with
  | .running => s.setCore id { k with stopReq := true, halted := false }
  | .idle => s.setCore id { k with mode := .stopped, halted := false }
  | _ => s

/-- RESUME: a STOPPED seat continues at EPC, or is IDLE when it holds no task. A STEP that a stop request went before is taken there
(R131). -/
def State.seatResume (s : State) (c n : Nat) : State :=
  let id : CoreId := .seat (crewOf c) (seatOf n)
  let k := s.core id
  match k.mode with
  | .stopped =>
    if k.task.isSome then
      s.setCore id { k with mode := .running, pc := pcOf k.epc, halted := false, stepDue := false
                            stopping := if k.stepDue then some ⟨9, false, pcOf k.epc, 0⟩ else none }
    else s.setCore id { k with mode := .idle, halted := false, stepDue := false }
  | _ => s

/-- ABORT: the task ends with no completion actions; nothing is flushed, and what is queued in the tile path and the matrix queue
stays. (log entry 22, DESIGN CHOICE) -/
def State.seatAbort (s : State) (c n : Nat) : State :=
  let id : CoreId := .seat (crewOf c) (seatOf n)
  let k := (s.dropReads id .insn).core id
  match k.mode with
  | .running => (((s.dropReads id .insn).setCore id { k.endTask with mode := .idle }).addSat (R.COX_ABORTS c) 1).lateCheck c
  | .stopped =>
    let s1 := (s.dropReads id .insn).setCore id { k.endTask with mode := .idle }
    if k.task.isSome then (s1.addSat (R.COX_ABORTS c) 1).lateCheck c else s1
  | _ => s

/-- A write of COX_SEAT_CMD: of several bits, the lowest that applies (R218). -/
def State.seatCmd (s : State) (c n : Nat) (v : Word) : State :=
  let st := s.seatState c n
  if v.getLsbD 0 && (st == 0 || st == 1) then s.seatStop c n
  else if v.getLsbD 1 && st == 2 then s.seatResume c n
  else if v.getLsbD 2 && (st == 1 || st == 2) then s.seatAbort c n
  else s

/-- COX_SEAT_STOP. -/
def execCoxSeatStop (crew : Fin 96) (n : Fin 8) (s : State) : Outcome State Fault Refusal :=
  if s.crewUp crew.val then .next (s.seatStop crew.val n.val) else .next s

/-- COX_SEAT_RESUME. -/
def execCoxSeatResume (crew : Fin 96) (n : Fin 8) (s : State) : Outcome State Fault Refusal :=
  if s.crewUp crew.val then .next (s.seatResume crew.val n.val) else .next s

/-- COX_SEAT_ABORT. -/
def execCoxSeatAbort (crew : Fin 96) (n : Fin 8) (s : State) : Outcome State Fault Refusal :=
  if s.crewUp crew.val then .next (s.seatAbort crew.val n.val) else .next s

/-- The stop a seat comes to next: the exception of the instruction in hand, else a stop request at a boundary (R131). -/
def Core.stopDue (k : Core) : Option Stop :=
  match k.stopping with
  | some st => some st
  | none => if k.stopReq && k.wait != some .csync && k.wait != some .tend then some ⟨10, false, k.pc, 0⟩ else none

/-- SEAT_STOP: the seat's queues drain, it stops with its state held, and writes EPC, ECST, ECAUSE and EVAL (R130, R159). (log entry 20, DEDUCED) -/
def execSeatStop (crew : Fin 96) (n : Fin 8) (s : State) : Outcome State Fault Refusal :=
  let c : CoreId := .seat crew n
  match (s.core c).stopDue with
  | none => .next s
  | some st =>
    if s.crewUp crew.val && (s.core c).mode == .running then
      let s0 := s.dropReads c .insn
      let s1 := drainQueues 9 (s0.setCore c { s0.core c with stopping := some st, wait := none }) c
      let k := s1.core c
      if k.tileQ.isEmpty && k.matQ.isEmpty then
        .next (s1.setCore c { k with mode := .stopped, stopping := none, stopReq := false, halted := k.halted && st.code == 10, ecst := k.cst
                                     ecause := causeWord st.code st.imp, epc := st.epc, eval := st.eval })
      else .next s1
    else .next s

end Sys2Proof.Machine
end

