-- ==== Sys2Proof/Machine/DmaState.lean ====
section
/-! DEFINITION. The state of a DMA engine and how it halts (spec/08 R243–R250). -/
namespace Sys2Proof.Machine

/-- STATE set; CAUSE is 0 when not HALTED. -/
def State.setDmaState (s : State) (c n st : Nat) : State := (s.setFld (R.DMA_STAT c n) 0 3 st).setFld (R.DMA_STAT c n) 3 5 0

/-- DMA_CUR. -/
def State.dmaCur (s : State) (c n : Nat) : Nat := (s.reg32 (R.DMA_CUR_LO c n)).toNat

/-- DMA_CUR set. -/
def State.setDmaCur (s : State) (c n a : Nat) : State := s.setReg32 (R.DMA_CUR_LO c n) (BitVec.ofNat 32 a)

/-- DMA_REMAIN set. -/
def State.setRemain (s : State) (c n v : Nat) : State := s.setReg32 (R.DMA_REMAIN_LO c n) (BitVec.ofNat 32 v)

/-- NEXT of a descriptor. -/
def dNext (ws : List Word) : Nat := (recLong ws 0).toNat

/-- LEN of a descriptor. -/
def dLen (ws : List Word) : Nat := (recLong ws 8).toNat

/-- OP of a descriptor. -/
def dOp (ws : List Word) : Nat := wfld (recWord ws 2) 0 2

/-- LEN of a COPY; 0 for the other operations. -/
def copyLen (ws : List Word) : Nat := if dOp ws = 0 then dLen ws else 0

/-- A bit of word 2 of a descriptor. -/
def dBit (ws : List Word) (n : Nat) : Bool := (recWord ws 2).getLsbD n

/-- The engine records its halt (R243): the fields, HALT of DMA_IRQ, and HALTED. -/
def State.dmaRecord (s : State) (c n : Nat) (h : DmaHalt) : State :=
  let s1 := (s.setFld (R.DMA_STAT c n) 0 3 5).setFld (R.DMA_STAT c n) 3 5 h.cause
  let s2 := ((s1.setDmaCur c n h.cur).setRemain c n h.remain).setReg32 (R.DMA_FAILADDR_LO c n) (BitVec.ofNat 32 h.fail)
  let s3 := match h.nak with
    | some k => s2.setReg (R.DMA_NAK c n) (BitVec.ofNat 16 k)
    | none => s2
  s3.orReg (R.DMA_IRQ c n) 4

/-- A request of an engine is a write that is open. -/
def DmaReq.isWrite (r : DmaReq) : Bool := match r.kind with | .write => true | .hail => true | .read => false | .verify => false

/-- A halt that waits is recorded once no write is open (R243). (log entry 32, DEDUCED) -/
def State.dmaSettle (s : State) (c n : Nat) : State :=
  match (s.eng c n).halting with
  | some h =>
    if (s.eng c n).out.any DmaReq.isWrite then s
    else (s.dmaRecord c n h).setEng c n { s.eng c n with halting := none }
  | none => s

/-- The engine halts (R243): it stops issuing, discards read data, lets its open writes complete, and signals nothing. (log entry 32, DEDUCED) -/
def State.dmaHaltWith (s : State) (c n : Nat) (h : DmaHalt) : State :=
  let d := s.eng c n
  if d.halting.isSome then s
  else
    (s.setEng c n { d with buf := [], out := d.out.filter DmaReq.isWrite, ready := false, last := false, stop := false
                           halt := false, halting := some h }).dmaSettle c n

/-- A halt with its cause, CUR, REMAIN and FAILADDR. -/
def State.dmaHalt (s : State) (c n cause cur remain fail : Nat) : State := s.dmaHaltWith c n ⟨cause, cur, remain, fail, none⟩

/-- A halt at the descriptor in hand: what is not written remains. -/
def State.dmaHaltHere (s : State) (c n cause fail : Nat) : State :=
  s.dmaHalt c n cause (s.dmaCur c n) (copyLen (s.eng c n).words - (s.eng c n).done) fail

/-- The HALT policy reaches an engine (R250): one in WAIT halts at once, one at work halts after its descriptor. -/
def State.dmaStrokeHalt (s : State) (c n : Nat) : State :=
  match s.dmaState c n with
  | 2 => s.dmaHalt c n 4 (s.dmaCur c n) 0 0
  | 1 => s.setEng c n { s.eng c n with halt := true }
  | 3 => s.setEng c n { s.eng c n with halt := true }
  | 4 => s.setEng c n { s.eng c n with halt := true }
  | _ => s

end Sys2Proof.Machine
end

