-- ==== Sys2Proof/Machine/Dma.lean ====
section
/-! DEFINITION. DMA engines (spec/08): fetching and checking descriptors, gates, the moving of words, completion, and the
commands. A remote side moves through `Sys2Proof.Machine.Rma`. -/
namespace Sys2Proof.Machine
open Host

/-- The engine's crew runs its engines: it is up and its lane is not killed (R251, R252). -/
def State.dmaLive (s : State) (c : Nat) : Bool := s.crewUp c && !(s.crewKilled c)

/-- The word of the crew's own memory an address names (R225): a global address or the own crew store alias. -/
def State.ownWord (s : State) (c a : Nat) : Option Nat :=
  if a < 0x80000000 then
    match s.resolve (.cox (crewOf c)) a with
    | .mem w => if memCrew w = c then some w else none
    | _ => none
  else none

/-- Words of the own crew's memory from an address on; none where one cannot be read. -/
def State.ownRead (s : State) (c a n : Nat) : State × Option (List Word) :=
  let ws := (List.range n).filterMap (fun i => s.ownWord c (a + i))
  if ws.length = n then s.readWords c ws else (s, none)

/-! ## The checks at the fetch (R226–R228) -/

/-- A field of a word is not 0. -/
def nz (w : Word) (lo n : Nat) : Bool := wfld w lo n != 0

/-- Every must-be-0 and unused field is 0 (R226, R227). -/
def descClean (ws : List Word) : Bool :=
  let w := recWord ws
  let gk := wfld (w 12) 0 2
  let gate := match gk with
    | 0 => !(nz (w 12) 2 10) && recLong ws 13 == 0
    | 1 => !(nz (w 12) 8 4)
    | 2 => recLong ws 13 == 0
    | _ => true
  let common := !(nz (w 11) 10 1) && !(nz (w 12) 12 4) && !(nz (w 15) 10 6) && gate && (dBit ws 15 || !(nz (w 15) 0 10))
  let adv := !(nz (w 3) 14 2) && (dBit ws 14 || w 3 == 0)
  common && (match dOp ws with
    | 0 => adv && (dBit ws 12 || !(nz (w 10) 0 8)) && (dBit ws 13 || !(nz (w 10) 8 8))
    | 1 =>
      let n := wfld (w 3) 7 2
      !(nz (w 2) 2 6) && !(dBit ws 9) && !(dBit ws 12) && !(dBit ws 14) && dBit ws 13 && !(nz (w 3) 9 7) && !(nz (w 10) 0 8) &&
        (List.range 4).all (fun i => decide (i ≤ n) || w (4 + i) == 0)
    | 2 => adv && !(nz (w 2) 2 8) && !(dBit ws 12) && !(dBit ws 13) && !(nz (w 11) 11 5) && (List.range 7).all (fun i => w (4 + i) == 0)
    | _ => true)

/-- A pattern of a COPY: 0 INC, 1 FIX, 2 LIST. -/
def dPat (ws : List Word) (dst : Bool) : Nat := wfld (recWord ws 2) (if dst then 4 else 2) 2

/-- The handle a side names. -/
def dHandle (ws : List Word) (dst : Bool) : Nat := wfld (recWord ws 10) (if dst then 8 else 0) 8

/-- The side names a handle. -/
def dByHandle (ws : List Word) (dst : Bool) : Bool := dBit ws (if dst then 13 else 12)

/-- SRC or DST. -/
def dAddr (ws : List Word) (dst : Bool) : Nat := (recLong ws (if dst then 6 else 4)).toNat

/-- SWAP exchanges pairs: WORD or BOTH. -/
def dPairs (ws : List Word) : Bool := dOp ws == 0 && (recWord ws 2).getLsbD 7

/-- The descriptor is not well formed: cause DESC. -/
def State.descBad (s : State) (c : Nat) (ws : List Word) : Bool :=
  let op := dOp ws
  !(descClean ws) || op == 3 || (op == 0 && (dPat ws false == 3 || dPat ws true == 3)) || wfld (recWord ws 12) 0 2 == 3
    || (dBit ws 14 && wfld (recWord ws 3) 6 8 == 0)
    || (dPairs ws && dLen ws % 2 == 1)
    || (op == 0 && dBit ws 8 && dPat ws true == 2)
    || (op == 0 && dBit ws 12 && dBit ws 13 && s.hKind c (dHandle ws false) == 2 && s.hKind c (dHandle ws true) == 2)
    || (!(dBit ws 11) && (dNext ws % 16 != 0 || (s.ownWord c (dNext ws)).isNone))

/-- The offset at which a handle of a descriptor fails its checks (R179, R228); none if it passes. A LIST side is checked
entry by entry. -/
def State.sideBad (s : State) (c : Nat) (ws : List Word) (dst : Bool) : Option Nat :=
  if dByHandle ws dst then
    let h := dHandle ws dst
    let x := dAddr ws dst
    let ok := match dPat ws dst with
      | 0 => s.hUse c c h x && (dLen ws == 0 || s.hUse c c h (x + dLen ws - 1))
      | 1 => s.hUse c c h x
      | _ => s.hStateUse c c h && decide (s.hKind c h ≤ 2)
    if ok then none else some x
  else none

/-- The first handle that fails (R228), and the offset. -/
def State.handlesBad (s : State) (c : Nat) (ws : List Word) : Option Nat :=
  let sides := match dOp ws with
    | 0 => (s.sideBad c ws false).or (s.sideBad c ws true)
    | 1 =>
      let h := dHandle ws true
      let x := dLen ws
      if s.hUse c c h x && s.hKind c h == 2 && s.hUse c c h (x + wfld (recWord ws 3) 7 2) then none else some x
    | _ => none
  let gate := if wfld (recWord ws 12) 0 2 == 2 && !(s.hStateUse c c (wfld (recWord ws 12) 2 8)) then some 0 else none
  let upd := if dBit ws 15 && !(s.hStateUse c c (wfld (recWord ws 15) 0 8)) then some 0 else none
  (sides.or gate).or upd

/-- A side as sampled at the fetch (R182, R229). -/
def State.sampleSide (s : State) (c : Nat) (ws : List Word) (dst : Bool) : DmaSide :=
  let a := if dOp ws = 1 then dLen ws else dAddr ws dst
  let h := dHandle ws dst
  let pat := if dOp ws = 0 then dPat ws dst else 0
  if dByHandle ws dst then
    { pat := pat, base := (s.hBase c h + a) % 2 ^ 32
      remote := if s.hKind c h = 2 then some (s.fld (R.HT_RDEV c h) 0 8, s.fld (R.HT_RWIN c h) 0 12, s.reg32 (R.HT_KEY_LO c h)) else none
      handle := some (s.hBase c h, s.hLen c h, s.hKind c h), next := a, cur := 0, left := 0 }
  else { pat := pat, base := a, remote := none, handle := none, next := a, cur := 0, left := 0 }

/-! ## Gates and the start of a descriptor (R234) -/

/-- The gate of the descriptor in hand is open: it holds now, or has held since the engine waits at it. -/
def State.dmaGate (s : State) (c n : Nat) : Bool := (s.eng c n).opened || s.dmaGateNow c (s.eng c n).words

/-- The descriptor in hand starts: a WAIT, and a COPY of no words, signal at once (R229, R236). -/
def State.dmaStart (s : State) (c n : Nat) : State :=
  let d := s.eng c n
  (s.setDmaState c n 3).setEng c n
    { d with ready := dOp d.words == 2 || (dOp d.words == 0 && dLen d.words == 0), since := s.time }

/-- DESCRIPTOR_FETCH. -/
def State.descFetch (s : State) (c n : Nat) : State :=
  let a := s.dmaCur c n
  let s0 := s.setBit (R.DMA_STAT c n) 9 false
  match s0.ownRead c a 16 with
  | (s1, none) =>
    (s1.setEng c n { s1.eng c n with words := [], done := 0, chain := (s1.eng c n).chain + 1 }).dmaHalt c n 12 a 0 a
  | (s1, some ws) =>
    let d := s1.eng c n
    let len := copyLen ws
    let s2 := (s1.setRemain c n len).setEng c n
      { d with words := ws, chain := d.chain + 1, read := 0, done := 0, buf := [], ready := false, last := false, opened := false }
    if s2.descBad c ws then s2.dmaHalt c n 6 a len 0
    else if wfld (recWord ws 11) 0 10 != s2.laneOf c then s2.dmaHalt c n 8 a len 0
    else
      match s2.handlesBad c ws with
      | some x => s2.dmaHalt c n 7 a len x
      | none =>
        if !(dBit ws 11) && dNext ws == a then s2.dmaHalt c n 2 a len 0
        else
          let s3 := s2.setEng c n { s2.eng c n with src := s2.sampleSide c ws false, dst := s2.sampleSide c ws true }
          if s3.dmaGate c n then s3.dmaStart c n else s3.setDmaState c n 2

/-- The engine is in a state, its crew runs its engines, and no halt waits. -/
def State.dmaIn (s : State) (c n st : Nat) : Bool := s.dmaLive c && s.dmaState c n == st && (s.eng c n).halting.isNone

/-- DESCRIPTOR_FETCH: an engine in FETCH reads and checks its descriptor, and waits at its gate or starts. -/
def execDescriptorFetch (crew : Fin 96) (n : Fin 4) (s : State) : Outcome State Fault Refusal :=
  .next (if s.dmaIn crew.val n.val 1 then s.descFetch crew.val n.val else s)

/-- DMA_GATE_OPEN. -/
def execDmaGateOpen (crew : Fin 96) (n : Fin 4) (s : State) : Outcome State Fault Refusal :=
  .next (if s.dmaIn crew.val n.val 2 && s.dmaGate crew.val n.val then s.dmaStart crew.val n.val else s)

/-! ## Moving words (R229–R233, R235–R237, R239) -/

/-- The position of element `i` of a side (R229); a LIST side stands at its next word. -/
def DmaSide.at (d : DmaSide) (i : Nat) : Nat :=
  match d.pat with
  | 0 => (d.base + i) % 2 ^ 32
  | 1 => d.base
  | _ => d.cur % 2 ^ 32

/-- The positions of `n` elements from element `i` on. -/
def DmaSide.run (d : DmaSide) (i n : Nat) : List Nat :=
  (List.range n).map (fun j => match d.pat with | 0 => (d.base + i + j) % 2 ^ 32 | 1 => d.base | _ => (d.cur + j) % 2 ^ 32)

/-- The elements a side takes without a new list entry, at most `n`. -/
def DmaSide.room (d : DmaSide) (n : Nat) : Nat := if d.pat = 2 then min d.left n else n

/-- The side moved on by `n` elements. -/
def DmaSide.advance (d : DmaSide) (n : Nat) : DmaSide := if d.pat = 2 then { d with cur := d.cur + n, left := d.left - n } else d

/-- The element at which `buf` begins: under WORD it keeps the pair of the next element. -/
def Dma.base (d : Dma) : Nat := if dPairs d.words then d.done - d.done % 2 else d.done

/-- The elements that can be written now: under WORD, whole pairs. -/
def Dma.avail (d : Dma) : Nat := (if dPairs d.words then d.read - d.read % 2 else d.read) - d.done

/-- A read of data is open. -/
def Dma.reading (d : Dma) : Bool := d.out.any (fun r => r.kind == .read)

/-- The engine's COPY wants more source words. -/
def Dma.wantsRead (d : Dma) : Bool := d.avail == 0 && !d.reading && decide (d.read < copyLen d.words)

/-- The value element `i` is written with (R231). -/
def Dma.value (d : Dma) (i : Nat) : Word :=
  let j := if dPairs d.words then (if i % 2 = 0 then i + 1 else i - 1) else i
  let v := d.buf.getD (j - d.base) 0
  if (recWord d.words 2).getLsbD 6 then (v <<< 8) ||| (v >>> 8) else v

/-- Where an address of a local side leads: the word, or the cause of a halt (R224, R232, R380). -/
def State.dmaWord (s : State) (c lane a : Nat) : Nat ⊕ Nat :=
  match s.resolve (.cox (crewOf c)) a with
  | .mem w => if s.laneOf (memCrew w) != lane || (s.inCoxRegion w && lane != 0) then .inr 8 else .inl w
  | _ => .inr 7

/-- The longest run of addresses that lead to words of one crew. -/
def State.dmaRun (s : State) (c lane crew : Nat) : List Nat → List Nat
  | [] => []
  | a :: as =>
    match s.dmaWord c lane a with
    | .inl w => if memCrew w = crew then w :: s.dmaRun c lane crew as else []
    | .inr _ => []

/-- Words that follow one another, from the first. -/
def rising : List Nat → List Nat
  | [] => []
  | [w] => [w]
  | w :: v :: ws => if v = w + 1 then w :: rising (v :: ws) else [w]

/-- LANE of the descriptor in hand. -/
def Dma.lane (d : Dma) : Nat := wfld (recWord d.words 11) 0 10

/-- An engine may send a packet: none of its packets waits for room (R266), and the tag of the next one is free (R254). -/
def State.dmaFree (s : State) (c n : Nat) : Bool :=
  !(s.clogged 0 (.dma c n)) && !((s.eng c n).out.any (fun r => !r.remote && r.tag % 256 == (s.eng c n).tag % 256))

/-- A packet of an engine enters the mesh, and its request is open (R242). -/
def State.dmaSend (s : State) (c n dst : Nat) (kind : PktKind) (rk : DmaKind) (addr len : Nat) (ws : List (Nat × Word)) : State :=
  let d := s.eng c n
  let s1 := s.inject c 0 0
    { kind := kind, dst := dst, exit := .crew, src := c, req := .dma c n, prio := s.meshPrio (.dma c n), born := s.time
      addr := (match ws with | [] => addr | p :: _ => p.1), len := len, lane := d.lane, tag := d.tag % 256, poison := false
      cause := .none, words := ws }
  s1.setEng c n { d with out := d.out ++ [⟨d.tag, rk, addr, len, false⟩], tag := d.tag + 1 }

/-- The words that have come for the source side. -/
def Dma.take (d : Dma) (vs : List Word) : Dma :=
  { d with buf := d.buf ++ vs, read := d.read + vs.length, src := d.src.advance vs.length }

/-- A run of reads of a local source (R235): from the own crew at once, from another over the mesh. -/
def State.dmaReadRun (s : State) (c n : Nat) : State :=
  let d := s.eng c n
  let as := d.src.run d.read (d.src.room (min 8192 (copyLen d.words - d.read)))
  match as with
  | [] => s
  | a :: _ =>
    match s.dmaWord c d.lane a with
    | .inr cause => s.dmaHaltHere c n cause a
    | .inl w =>
      if memCrew w = c then
        let run := s.dmaRun c d.lane c as
        if run.any s.zeroing then s
        else match run.find? (fun w => s.eccTwo.contains w) with
        | some bad => (s.noteUe bad).dmaHaltHere c n 9 bad
        | none =>
          match (s.bankUse (17 + n) false run).readWords c run with
          | (s1, some vs) => s1.setEng c n { (s1.eng c n).take vs with since := s.time }
          | (s1, none) => s1.dmaHaltHere c n 7 a
      else
        let run := rising (s.dmaRun c d.lane (memCrew w) (as.take 512))
        s.dmaSend c n (memCrew w) .read .read w run.length []

/-- `k` elements have left the engine (R236, R239): counts, HALF, and, after the last, the signal or the read-back. -/
def State.dmaLeft (s : State) (c n k : Nat) : State :=
  let d := s.eng c n
  let len := copyLen d.words
  let done := d.done + k
  let d1 := { d with done := done, dst := d.dst.advance k }
  let d2 := { d1 with buf := d.buf.drop (d1.base - d.base), ready := done == len && !(dBit d.words 8), since := s.time }
  let s1 := ((s.setEng c n d2).addWrap32 (R.DMA_WORDS_LO c n) k).setRemain c n (len - done)
  let h := len / 2
  let s2 := if dBit d.words 9 && decide (2 ≤ len) && decide (d.done < h) && decide (h ≤ done) && !(s1.bit (R.DMA_STAT c n) 9) then
    (s1.setBit (R.DMA_STAT c n) 9 true).orReg (R.DMA_IRQ c n) 1 else s1
  if done = len && dBit d.words 8 then s2.setDmaState c n 4 else s2

/-- Words of a crew written by an engine: the engine's crew drops its crew-cache lines of them (R192, R224). -/
def State.dmaStore (s : State) (c : Nat) (ws : List (Nat × Word)) : State :=
  (ws.map Prod.fst).foldl (fun t w => t.ccDropWord c w) (s.writeWords ws)

/-- A run of writes of a local destination (R235, R237). -/
def State.dmaWriteRun (s : State) (c n : Nat) : State :=
  let d := s.eng c n
  let as := d.dst.run d.done (d.dst.room (min 8192 d.avail))
  match as with
  | [] => s
  | a :: _ =>
    match s.dmaWord c d.lane a with
    | .inr cause => s.dmaHaltHere c n cause a
    | .inl w =>
      if memCrew w = c then
        let run := s.dmaRun c d.lane c as
        let ws := run.zipIdx.map (fun p => (p.1, d.value (d.done + p.2)))
        if run.any s.zeroing then s else ((s.dmaStore c ws).bankUse (17 + n) true run).dmaLeft c n run.length
      else
        let run := rising (s.dmaRun c d.lane (memCrew w) (as.take 512))
        let ws := run.zipIdx.map (fun p => (p.1, d.value (d.done + p.2)))
        let s1 := (run.foldl (fun t w => t.ccDropWord c w) s).dmaSend c n (memCrew w) .write .write w run.length ws
        s1.dmaLeft c n run.length

/-- The last word a VERIFIED COPY has written. -/
def Dma.lastAt (d : Dma) : Nat := d.dst.at (copyLen d.words - 1)

/-- The read-back of a VERIFIED COPY whose destination is local (R236): one read of the last word, once the writes are
complete. -/
def State.dmaVerify (s : State) (c n : Nat) : State :=
  let d := s.eng c n
  match s.dmaWord c d.lane d.lastAt with
  | .inr cause => s.dmaHaltHere c n cause d.lastAt
  | .inl w =>
    if memCrew w = c then
      if s.eccTwo.contains w then (s.noteUe w).dmaHaltHere c n 9 w
      else
        match (s.bankUse (17 + n) false [w]).readWords c [w] with
        | (s1, some _) => s1.setEng c n { s1.eng c n with ready := true }
        | (s1, none) => s1.dmaHaltHere c n 7 w
    else s.dmaSend c n (memCrew w) .read .verify w 1 []

/-- The hail of a HAIL descriptor (R227). -/
def Dma.hail (d : Dma) (c n : Nat) : Hail :=
  let t := d.dst.remote.getD (0, 0, 0)
  { crew := c, handle := dHandle d.words true, dev := t.1, win := t.2.1, key := t.2.2, off := BitVec.ofNat 32 d.dst.base
    data := (List.range (wfld (recWord d.words 3) 7 2 + 1)).map (fun i => recWord d.words (4 + i))
    cnt := wfld (recWord d.words 3) 0 6, event := (recWord d.words 3).getLsbD 6, lane := d.lane
    sq := wfld (recWord d.words 11) 11 5, engine := some (n, d.tag, dBit d.words 8) }

/-- The engine asks for the DMA path: it can read or write a run of a local side, read back, or send its hail; not while its last packet
waits for room (R266). -/
def State.dmaAsks (s : State) (c n : Nat) : Bool :=
  let d := s.eng c n
  let canRead := d.wantsRead && d.src.remote.isNone && (d.src.pat != 2 || d.src.left != 0)
  let canWrite := d.avail != 0 && d.dst.remote.isNone && (d.dst.pat != 2 || d.dst.left != 0)
  if s.dmaIn c n 3 then
    !d.ready && !d.last && (match dOp d.words with
      | 0 => (canRead || canWrite) && s.dmaFree c n
      | 1 => d.read == 0 && s.hailRoom c
      | _ => false)
  else if s.dmaIn c n 4 then !d.ready && d.dst.remote.isNone && d.out.isEmpty && s.dmaFree c n
  else false

/-- A request packet with no number yet. -/
def rawRequest (t : TType) (lane sq : Nat) (target : Nat × Nat × BitVec 32) (off : Nat) (verify : Bool) (param : Word)
    (data : List Word) : Tpkt where
  ptype := t
  hops := 3
  lane := lane
  dst := target.1
  src := 0
  win := target.2.1
  syn := false
  verify := verify
  sq := sq
  retx := false
  wash := false
  epoch := 0
  seq := 0
  key := target.2.2
  offset := BitVec.ofNat 32 off
  param := param
  tag := 0
  data := data

/-- The words of a remote run from a window offset: no packet crosses a 256-word block of the window (R333), and a FIX side
names one word. -/
def DmaSide.remoteLen (d : DmaSide) (i n : Nat) : Nat := if d.pat = 1 then min 1 n else min (256 - d.at i % 256) (d.room n)

/-- The next remote request of an engine in RUN or VERIFY: its packet, its kind and its length. -/
def State.engineRequest (s : State) (c n : Nat) : Option (Tpkt × DmaKind × Nat) :=
  let d := s.eng c n
  let sq := wfld (recWord d.words 11) 11 5
  let len := copyLen d.words
  if s.dmaIn c n 3 && dOp d.words == 0 && !d.ready && !d.last then
    match d.src.remote, d.dst.remote with
    | some t, _ =>
      let k := d.src.remoteLen d.read (len - d.read)
      if d.wantsRead && k != 0 then
        some (rawRequest .read d.lane sq t (d.src.at d.read) false (BitVec.ofNat 16 k) [], .read, k)
      else none
    | none, some t =>
      let k := d.dst.remoteLen d.done d.avail
      if k != 0 then
        some (rawRequest .write d.lane sq t (d.dst.at d.done) false (BitVec.ofNat 16 k)
          ((List.range k).map (fun i => d.value (d.done + i))), .write, k)
      else none
    | none, none => none
  else if s.dmaIn c n 4 && !d.ready && !(d.out.any (fun r => r.kind == .verify)) then
    d.dst.remote.map (fun t => (rawRequest .read d.lane sq t d.lastAt true 1 [], .verify, 1))
  else none

/-- One burst of an engine that has been granted the path. -/
def State.dmaBurst (s : State) (c n : Nat) : State :=
  let d := s.eng c n
  if s.dmaState c n = 4 then s.dmaVerify c n
  else if dOp d.words = 1 then
    (s.setEng c n { d with read := 1, out := d.out ++ [⟨d.tag, .hail, d.dst.base, 1, true⟩], tag := d.tag + 1 }).pushHail (d.hail c n)
  else if d.avail != 0 && d.dst.remote.isNone && (d.dst.pat != 2 || d.dst.left != 0) then s.dmaWriteRun c n
  else s.dmaReadRun c n

/-- The checks on a list entry of a side (R228, R230): ADDR a, length l; none if they pass, else cause and address. -/
def State.entryBad (s : State) (c n : Nat) (dst : Bool) (a l : Nat) : Option (Nat × Nat) :=
  let d := s.eng c n
  let side := if dst then d.dst else d.src
  let used := if dst then d.done else d.read
  if copyLen d.words < used + l then some (11, side.next)
  else
    match side.handle with
    | none => none
    | some (base, len, kind) =>
      let inRange := match side.remote, kind with
        | some _, _ => true
        | none, 0 => inSeatMem (base + a) && inSeatMem (base + a + l - 1)
        | none, _ => inStore (base + a) && inStore (base + a + l - 1)
      if decide (a + l ≤ len) && inRange then none else some (7, a)

/-- LIST_ENTRY_READ: a side that has used up its entry reads the next one (R230). -/
def State.listEntry (s : State) (c n : Nat) (dst : Bool) : State :=
  let d := s.eng c n
  let side := if dst then d.dst else d.src
  if side.next % 4 != 0 then s.dmaHaltHere c n 11 side.next
  else
    match s.ownRead c side.next 4 with
    | (s1, none) => s1.dmaHaltHere c n 11 side.next
    | (s1, some ws) =>
      let a := (recLong ws 0).toNat
      let l := (recLong ws 2).toNat
      let put := fun (x : DmaSide) => if dst then s1.setEng c n { d with dst := x } else s1.setEng c n { d with src := x }
      if l = 0 then put { side with next := side.next + 4 }
      else
        match s1.entryBad c n dst a l with
        | some (cause, fail) => s1.dmaHaltHere c n cause fail
        | none => put { side with next := side.next + 4, cur := (side.handle.map Prod.fst).getD 0 + a, left := l }

/-- LIST_ENTRY_READ. -/
def execListEntryRead (crew : Fin 96) (n : Fin 4) (dst : Bool) (s : State) : Outcome State Fault Refusal :=
  let d := s.eng crew.val n.val
  let side := if dst then d.dst else d.src
  let need := if dst then d.avail != 0 else d.wantsRead
  .next (if s.dmaIn crew.val n.val 3 && dOp d.words == 0 && side.pat == 2 && side.left == 0 && need && !d.ready && !d.last then
    s.listEntry crew.val n.val dst else s)

/-! ## Responses and timeouts (R235, R242) -/

/-- A request is no longer open; a halt that waited for it is recorded, and a LAST descriptor ends (R243, R348). -/
def State.dmaClose (s : State) (c n tag : Nat) : State :=
  let d := s.eng c n
  let s1 := (s.setEng c n { d with out := d.out.filter (fun r => r.tag != tag) }).dmaSettle c n
  if d.last && !((s1.eng c n).out.any DmaReq.remote) then
    (s1.setDmaState c n 0).setEng c n { s1.eng c n with last := false }
  else s1

/-- A request of an engine has been answered with its words (a write with none). -/
def State.dmaAnswer (s : State) (c n : Nat) (r : DmaReq) (vs : List Word) : State :=
  let s1 := s.dmaClose c n r.tag
  let d := s1.eng c n
  match r.kind with
  | .read => s1.setEng c n ({ d with since := s.time }.take ((vs ++ List.replicate (r.len - vs.length) 0).take r.len))
  | .hail => s1.setEng c n { d with ready := true }
  | .verify => s1.setEng c n { d with ready := true }
  | .write => s1

/-- The engine is at work on a descriptor: a failed request halts it, but not once its lane is killed (R251). -/
def State.dmaBusy (s : State) (c n : Nat) : Bool := decide (1 ≤ s.dmaState c n) && decide (s.dmaState c n ≤ 4) && !(s.crewKilled c)

/-- An open request of an engine has failed: it halts at the descriptor then in hand. -/
def State.dmaFail (s : State) (c n : Nat) (r : DmaReq) (cause fail : Nat) (nak : Option Nat) : State :=
  let d := s.eng c n
  let s1 := s.setEng c n { d with out := d.out.filter (fun x => x.tag != r.tag) }
  if s1.dmaBusy c n && d.halting.isNone then
    s1.dmaHaltWith c n ⟨cause, s1.dmaCur c n, copyLen d.words - d.done, fail, nak⟩
  else s1.dmaSettle c n

/-- DMA_RESPONSE: the oldest answer on the mesh for an engine of the crew. One that no open request awaits is discarded. -/
def State.dmaResponse (s : State) (c n : Nat) : State :=
  match (s.arrived c).find? (fun p => p.req == .dma c n && p.vc == 1) with
  | none => s
  | some p =>
    let s1 := s.leaveExit c p
    match (s1.eng c n).out.find? (fun r => r.tag % 256 == p.tag && !r.remote) with
    | none => s1
    | some r =>
      if p.kind == .error || p.poison then s1.dmaFail c n r (if p.cause == .memErr then 9 else 7) p.addr none
      else s1.dmaAnswer c n r (p.words.map Prod.snd)

/-- DMA_RESPONSE. -/
def execDmaResponse (crew : Fin 96) (n : Fin 4) (s : State) : Outcome State Fault Refusal :=
  .next (if s.crewUp crew.val then s.dmaResponse crew.val n.val else s)

/-- DMA_TIMEOUT: the i-th open local request of an engine has met no response in time. -/
def execDmaTimeout (crew : Fin 96) (n : Fin 4) (i : Nat) (s : State) : Outcome State Fault Refusal :=
  .next (match ((s.eng crew.val n.val).out.filter (fun r => !r.remote))[i]? with
    | some r => if s.crewUp crew.val then s.dmaFail crew.val n.val r 3 r.addr none else s
    | none => s)

/-! ## Completion (R236, R238, R240) -/

/-- Descriptors a START or RESUME may fetch (R240). -/
def State.chainMax (s : State) (c n : Nat) : Nat :=
  let m := (s.reg (R.DMA_CHAINMAX c n)).toNat
  if m = 0 then 65536 else m

/-- What follows the completion actions of a descriptor (R238, R240, R245, R250). -/
def State.dmaNext (s : State) (c n : Nat) : State :=
  let d := s.eng c n
  let next := dNext d.words
  if dBit d.words 11 then
    if d.out.any DmaReq.remote then s.setEng c n { d with ready := false, last := true, stop := false, halt := false }
    else (s.setDmaState c n 0).setEng c n { d with ready := false, stop := false, halt := false }
  else if s.chainMax c n ≤ d.chain then s.dmaHalt c n 1 next 0 0
  else if d.halt then s.dmaHalt c n 4 next 0 0
  else if d.stop then s.dmaHalt c n 5 next 0 0
  else (((s.setDmaState c n 1).setDmaCur c n next).setRemain c n 0).setEng c n { d with ready := false }

/-- The completion actions (R238). -/
def State.descComplete (s : State) (c n : Nat) : State :=
  let ws := (s.eng c n).words
  let h := wfld (recWord ws 15) 0 8
  if dBit ws 15 && !(s.hStateUse c c h) then s.dmaHaltHere c n 7 0
  else
    let s1 := if dBit ws 15 then s.setHandle c h (wfld (recWord ws 15) 8 2) else s
    let s2 := if dBit ws 14 then s1.advanceCnt c (wfld (recWord ws 3) 0 6) (wfld (recWord ws 3) 6 8) else s1
    let s3 := if dBit ws 10 then s2.orReg (R.DMA_IRQ c n) 2 else s2
    (s3.addWrap32 (R.DMA_NDESC_LO c n) 1).dmaNext c n

/-- DESCRIPTOR_COMPLETION: a descriptor whose signal has come. -/
def execDescriptorCompletion (crew : Fin 96) (n : Fin 4) (s : State) : Outcome State Fault Refusal :=
  .next (if (s.dmaIn crew.val n.val 3 || s.dmaIn crew.val n.val 4) && (s.eng crew.val n.val).ready then
    s.descComplete crew.val n.val else s)

/-! ## Commands (R245, R246) -/

/-- A fetch of a chain begins at an address. -/
def State.dmaBegin (s : State) (c n a : Nat) : State :=
  ((s.setDmaState c n 1).setDmaCur c n a).setEng c n { Dma.empty with tag := (s.eng c n).tag, since := s.time }

/-- START applies and acts; none if it does not apply. -/
def State.dmaDoStart (s : State) (c n : Nat) : Option State :=
  if s.dmaState c n = 0 ∨ s.dmaState c n = 5 then
    let head := (s.reg32 (R.DMA_HEAD_LO c n)).toNat
    some (((s.setReg32 (R.DMA_NDESC_LO c n) 0).setReg32 (R.DMA_WORDS_LO c n) 0).dmaBegin c n (head - head % 16))
  else none

/-- STOP. (log entry 32, DEDUCED) -/
def State.dmaDoStop (s : State) (c n : Nat) : Option State :=
  if s.dmaState c n = 2 then some (s.dmaHalt c n 5 (s.dmaCur c n) (copyLen (s.eng c n).words) 0)
  else if s.dmaState c n = 1 ∨ s.dmaState c n = 3 ∨ s.dmaState c n = 4 then
    some (s.setEng c n { s.eng c n with stop := true })
  else none

/-- ABORT: a halt that waits is ended too (R247). -/
def State.dmaDoAbort (s : State) (c n : Nat) : Option State :=
  if 1 ≤ s.dmaState c n ∧ s.dmaState c n ≤ 5 then
    let d := s.eng c n
    some ((s.setDmaState c n 6).setEng c n { Dma.empty with words := d.words, done := d.done, tag := d.tag, out := d.out.filter DmaReq.isWrite })
  else none

/-- RESUME. -/
def State.dmaDoResume (s : State) (c n : Nat) : Option State :=
  if s.dmaState c n = 5 then some (s.dmaBegin c n (s.dmaCur c n)) else none

/-- A write of DMA_CMD (R245): of the commands written, the lowest that applies; one that does not apply sets IGNCMD. A signal that has
come has its completion actions first (R247). -/
def State.dmaCmd (s : State) (c n : Nat) (v : Word) : State :=
  if s.crewKilled c then s
  else
    let s0 := if (s.dmaIn c n 3 || s.dmaIn c n 4) && (s.eng c n).ready then s.descComplete c n else s
    let tries := [s0.dmaDoStart c n, s0.dmaDoStop c n, s0.dmaDoAbort c n, s0.dmaDoResume c n]
    let written := (tries.zipIdx.filter (fun p => v.getLsbD p.2)).map Prod.fst
    let s1 := ((written.filterMap id).head?).getD s0
    if written.all Option.isSome then s1 else s1.orReg (R.DMA_STAT c n) 0x100

/-- DMA_START. -/
def execDmaStart (crew : Fin 96) (n : Fin 4) (s : State) : Outcome State Fault Refusal :=
  .next (if s.crewUp crew.val then s.dmaCmd crew.val n.val 1 else s)

/-- DMA_STOP. -/
def execDmaStop (crew : Fin 96) (n : Fin 4) (s : State) : Outcome State Fault Refusal :=
  .next (if s.crewUp crew.val then s.dmaCmd crew.val n.val 2 else s)

/-- DMA_ABORT. -/
def execDmaAbort (crew : Fin 96) (n : Fin 4) (s : State) : Outcome State Fault Refusal :=
  .next (if s.crewUp crew.val then s.dmaCmd crew.val n.val 4 else s)

/-- DMA_RESUME. -/
def execDmaResume (crew : Fin 96) (n : Fin 4) (s : State) : Outcome State Fault Refusal :=
  .next (if s.crewUp crew.val then s.dmaCmd crew.val n.val 8 else s)

/-- ABORT_COMPLETE: the writes an aborted engine had issued are complete. -/
def execAbortComplete (crew : Fin 96) (n : Fin 4) (s : State) : Outcome State Fault Refusal :=
  .next (if s.dmaIn crew.val n.val 6 && !((s.eng crew.val n.val).out.any DmaReq.isWrite) then
    (s.setDmaState crew.val n.val 0).orReg (R.DMA_IRQ crew.val n.val) 8 else s)

/-! ## The lane's end (R251, R252) -/

/-- A kill of the lane stops an engine: nothing is signalled, open reads are discarded. -/
def State.dmaKill (s : State) (c n : Nat) : State :=
  s.setEng c n { Dma.empty with tag := (s.eng c n).tag, out := (s.eng c n).out.filter DmaReq.isWrite }

end Sys2Proof.Machine
end

