-- ==== Sys2Proof/Machine/Flit.lean ====
section
/-! DEFINITION. The layouts of what a Gweni link carries: flit headers and CRC (spec/10 R293–R295), CTRL and SYNC payloads
(R306, R309), and transport packets (spec/11 R332, R333). -/
namespace Sys2Proof.Machine

/-! ## Bytes -/

/-- The `n` bytes of a number, least significant first (R293). -/
def leBytes (n v : Nat) : List Nat := (List.range n).map (fun i => v / 256 ^ i % 256)

/-- The number that `n` bytes from offset `o` hold. -/
def leAt (bs : List Nat) (o n : Nat) : Nat := ((bs.drop o).take n).foldr (fun b acc => b + 256 * acc) 0

/-- A list cut or filled with zeros to a length. -/
def padTo (n : Nat) (ws : List Word) : List Word := (ws ++ List.replicate (n - ws.length) 0).take n

/-- The bytes of words (R293: bits 7:0 in the lower byte). -/
def wordBytes (ws : List Word) : List Nat := ws.flatMap (fun w => [w.toNat % 256, w.toNat / 256])

/-- The words of bytes. -/
def byteWords : List Nat → List Word
  | [] => []
  | [a] => [BitVec.ofNat 16 a]
  | a :: b :: bs => BitVec.ofNat 16 (a + 256 * b) :: byteWords bs

/-! ## Headers and CRC -/

/-- FTYPE. -/
def FType.code (t : FType) : Nat := match t with | .idle => 0 | .data => 1 | .sync => 2 | .ctrl => 3

/-- The 48 bits of a header. -/
def hdrBits (t : FType) (h : FlitHdr) : Nat :=
  t.code + h.seq.toNat * 2 ^ 2 + h.ack.toNat * 2 ^ 14 + (if h.nak then 2 ^ 26 else 0) + h.fvc.val * 2 ^ 27 + h.cvc.val * 2 ^ 30
    + h.crdcum.toNat * 2 ^ 33 + h.pstart.toNat * 2 ^ 41

/-- One byte into the CRC-32 register, least significant bit first. -/
def crcByte (r : BitVec 32) (b : Nat) : BitVec 32 :=
  (List.range 8).foldl (fun (x : BitVec 32) _ => if x.getLsbD 0 then (x >>> 1) ^^^ 0xEDB88320 else x >>> 1) (r ^^^ BitVec.ofNat 32 b)

/-- The CRC of a run of bytes (R295). -/
def crc32 (bs : List Nat) : BitVec 32 := (bs.foldl crcByte 0xFFFFFFFF) ^^^ 0xFFFFFFFF

/-- The CRC of a flit: over its header and payload. -/
def flitCrc (t : FType) (h : FlitHdr) (payload : List Word) : BitVec 32 :=
  crc32 (leBytes 6 (hdrBits t h) ++ wordBytes (padTo 123 payload))

/-- A flit passes: its CRC is right, no uncorrectable codeword overlaps it, and it names no reserved channel (R295, R296). -/
def flitOk (t : FType) (f : Flit) : Bool :=
  !f.fec && f.crc == flitCrc t f.hdr f.payload && decide (f.hdr.fvc.val < 6) && decide (f.hdr.cvc.val < 6)

/-! ## CTRL payloads (R306) -/

/-- IDENT. -/
def identWords (i : Ident) : List Word :=
  byteWords ([1, i.id.toNat, i.port.val] ++ leBytes 2 i.sysid.toNat ++ leBytes 2 i.feat0.toNat
    ++ [i.locked.toNat, (if i.strict then 1 else 0) + (if i.deg4 then 2 else 0), i.cause.val])

/-- DEGRADE (2), DEGRADE_ACK (3) and DOWN (4), with their byte 1. -/
def ctrlWords (ctype arg : Nat) : List Word := byteWords [ctype, arg]

/-! ## SYNC payloads (R309) -/

/-- A parameter set in 12 bytes. -/
def StkParams.bytes (p : StkParams) : List Nat :=
  leBytes 3 p.period ++ leBytes 3 p.recov ++ leBytes 2 p.catch_ ++ leBytes 3 p.hold ++ [if p.auto then 1 else 0]

/-- The parameter set at a byte offset. -/
def paramsAt (bs : List Nat) (o : Nat) : StkParams :=
  ⟨leAt bs o 3, leAt bs (o + 3) 3, leAt bs (o + 6) 2, leAt bs (o + 8) 3, (leAt bs (o + 11) 1).testBit 0⟩

/-- A call event in 4 bytes. -/
def CallEvent.bytes (e : CallEvent) : List Nat := leBytes 4 (e.call + e.op * 2 ^ 8 + e.oseq * 2 ^ 10 + e.origin * 2 ^ 24)

/-- A flag as a bit. -/
def flag (b : Bool) (n : Nat) : Nat := if b then 2 ^ n else 0

/-- The payload of a SYNC flit. -/
def SyncMsg.words (m : SyncMsg) : List Word :=
  byteWords (leBytes 8 m.txtime ++ leBytes 8 m.echo ++ leBytes 4 m.turn ++ leBytes 8 m.stroke ++ leBytes 8 m.catchTime
    ++ m.eff.bytes ++ m.pend.bytes ++ leBytes 8 m.pendFrom ++ leBytes 8 m.announce ++ [m.master, m.electGen]
    ++ [flag m.up 0 + flag m.mvalid 1 + flag m.pinned 2 + flag m.hold 3 + flag m.pendValid 4 + flag m.holdover 5, m.hops]
    ++ [m.cand, flag m.candPin 0 + flag m.electing 1] ++ leBytes 8 m.cgArr ++ (List.range 64).map (fun g => m.cgGen.getD g 0)
    ++ leBytes 32 m.callVal ++ [m.evAck, m.evFirst, m.events.length] ++ m.events.flatMap CallEvent.bytes)

/-- The content of a SYNC payload. -/
def syncOf (ws : List Word) : SyncMsg :=
  let bs := wordBytes (padTo 123 ws)
  let fl := leAt bs 78 1
  let cf := leAt bs 81 1
  { txtime := leAt bs 0 8, echo := leAt bs 8 8, turn := leAt bs 16 4, stroke := leAt bs 20 8, catchTime := leAt bs 28 8
    eff := paramsAt bs 36, pend := paramsAt bs 48, pendFrom := leAt bs 60 8, announce := leAt bs 68 8
    master := leAt bs 76 1, electGen := leAt bs 77 1
    up := fl.testBit 0, mvalid := fl.testBit 1, pinned := fl.testBit 2, hold := fl.testBit 3, pendValid := fl.testBit 4
    holdover := fl.testBit 5, hops := leAt bs 79 1, cand := leAt bs 80 1, candPin := cf.testBit 0, electing := cf.testBit 1
    cgArr := leAt bs 82 8, cgGen := (List.range 64).map (fun g => leAt bs (90 + g) 1), callVal := leAt bs 154 32
    evAck := leAt bs 186 1, evFirst := leAt bs 187 1
    events := (List.range (min 14 (leAt bs 188 1))).map (fun i =>
      let w := leAt bs (189 + 4 * i) 4
      ⟨w % 256, w / 2 ^ 8 % 4, w / 2 ^ 10 % 2 ^ 14, w / 2 ^ 24⟩) }

/-! ## Transport packets (R332, R333) -/

/-- PTYPE. -/
def TType.code (t : TType) : Nat := match t with | .write => 1 | .read => 2 | .hail => 3 | .rdata => 4 | .ack => 5 | .nak => 6

/-- The packet is a request. -/
def TType.request (t : TType) : Bool := match t with | .write => true | .read => true | .hail => true | _ => false

/-- The words of a packet, with the HOPLEFT it carries. -/
def Tpkt.words (p : Tpkt) (hops : Nat) : List Word :=
  [BitVec.ofNat 16 (p.ptype.code + hops % 4 * 16 + p.lane * 64), BitVec.ofNat 16 (p.dst + p.src * 256),
   BitVec.ofNat 16 (p.win + flag p.syn 12 + flag p.verify 13),
   BitVec.ofNat 16 (p.sq + flag p.retx 5 + flag p.wash 6 + p.epoch * 256),
   p.seq.setWidth 16, (p.seq >>> 16).setWidth 16, p.key.setWidth 16, (p.key >>> 16).setWidth 16,
   p.offset.setWidth 16, (p.offset >>> 16).setWidth 16, p.param, p.tag] ++ p.data

/-- LEN of PARAM. -/
def paramLen (x : Word) : Nat := x.toNat % 512

/-- The words after the header, from the header's first word and PARAM; a reserved PTYPE has none. -/
def tailLen (w0 param : Word) : Nat :=
  match w0.toNat % 16 with
  | 1 => paramLen param
  | 3 => param.toNat % 4 + 1
  | 4 => paramLen param
  | _ => 0

/-- PARAM is one that R333 allows for its type. -/
def paramOk (t : TType) (x : Word) : Bool :=
  match t with
  | .write => decide (1 ≤ x.toNat) && decide (x.toNat ≤ 256)
  | .read => decide (1 ≤ x.toNat) && decide (x.toNat ≤ 256)
  | .hail => x >>> 9 == 0
  | .rdata => decide (1 ≤ x.toNat) && decide (x.toNat ≤ 256)
  | .ack => x &&& 0xFF8F == 0
  | .nak => x >>> 4 == 0

/-- The type of a PTYPE code. -/
def ptypeOf (n : Nat) : Option TType :=
  match n with | 1 => some .write | 2 => some .read | 3 => some .hail | 4 => some .rdata | 5 => some .ack | 6 => some .nak | _ => none

/-- The packet that a header and its tail spell; none for a malformed one (R333). -/
def tpktOf (ws : List Word) : Option Tpkt :=
  let w := fun n => ws.getD n 0
  match ptypeOf ((w 0).toNat % 16) with
  | none => none
  | some t =>
    if (w 2).toNat / 2 ^ 14 != 0 || (w 3).getLsbD 7 || !(paramOk t (w 10)) then none
    else some
      { ptype := t, hops := (w 0).toNat / 16 % 4, lane := (w 0).toNat / 64, dst := (w 1).toNat % 256, src := (w 1).toNat / 256
        win := (w 2).toNat % 4096, syn := (w 2).getLsbD 12, verify := (w 2).getLsbD 13, sq := (w 3).toNat % 32
        retx := (w 3).getLsbD 5, wash := (w 3).getLsbD 6, epoch := (w 3).toNat / 256, seq := w 5 ++ w 4, key := w 7 ++ w 6
        offset := w 9 ++ w 8, param := w 10, tag := w 11, data := ws.drop 12 }

/-- The channel of a packet that leaves with its HOPLEFT (R334). -/
def Tpkt.channel (p : Tpkt) : Fin 6 :=
  let hop := min 2 (3 - p.hops)
  ⟨(hop + if p.ptype.request then 0 else 3) % 6, Nat.mod_lt _ (by decide)⟩

/-- The packets that a channel's stream completes (R298): each with the words it took, or none where it is malformed; and
the words of a packet that goes on. A zero word where a packet would start is padding to the end of the flit. (log entry 36, DEDUCED) -/
def parsePackets : Nat → List Word → List (Option Tpkt) × List Word
  | 0, ws => ([], ws)
  | fuel + 1, ws =>
    match ws with
    | [] => ([], [])
    | w0 :: _ =>
      if w0 = 0 then ([], [])
      else
        let n := 12 + tailLen w0 (ws.getD 10 0)
        if ws.length < 12 ∨ ws.length < n then ([], ws)
        else
          let r := parsePackets fuel (ws.drop n)
          (tpktOf (ws.take n) :: r.1, r.2)

end Sys2Proof.Machine
end

