-- ==== Sys2Proof/Machine/Power.lean ====
section
/-! DEFINITION. Power delivery and the pace governor (spec/14): current reports, effective clocks, the fast limiter and
thermal throttle, the trajectory and its commitments, the trim, the watchdog, and the faults that step the load. -/
namespace Sys2Proof.Machine
open Host

/-! ## Effective clocks (R396, R397) -/

/-- FSET as it acts. -/
def State.fset (s : State) (c : Nat) : Nat := max 80 (min 180 (s.fld (R.PWR_CLK c) 0 8))

/-- A crew whose slot is in DRAIN or SCRUB never runs below 0.80 GHz (R397). -/
def State.clockFloor (s : State) (c : Nat) : Nat :=
  if s.crewAssigned c && (s.slotState (s.crewSlot c) == 2 || s.slotState (s.crewSlot c) == 3) then 80 else 10

/-- A cap kept above the floor of its crew. -/
def State.floored (s : State) (c cap : Nat) : Nat := max (s.clockFloor c) cap

/-- PACE_CTRL.EN. -/
def State.paceOn (s : State) : Bool := s.bit R.PACE_CTRL 0

/-- The governor's ceiling of a crew, while it holds a trajectory (R410). -/
def State.govCeil (s : State) (c : Nat) : Nat := if s.paceOn && !s.pwr.unheld then s.floored c (mapGet (fun _ => 180) s.pwr.trim c) else 180

/-- The fast limiter's cap of a crew. -/
def State.limCap (s : State) (c : Nat) : Nat :=
  s.floored c (min (min s.pwr.capPower.1 s.pwr.capAmps.1) (mapGet (fun _ => (180, 0)) s.pwr.capCrew c).1)

/-- The thermal cap of a crew. -/
def State.thermCap (s : State) (c : Nat) : Nat := s.floored c (mapGet (fun _ => (180, 0)) s.pwr.capTherm c).1

/-- The lowest of the four ceilings. -/
def State.lowCeil (s : State) (c : Nat) : Nat := min (min (s.fset c) (s.govCeil c)) (min (s.limCap c) (s.thermCap c))

/-- The clock the ceilings allow: below 0.80 GHz in steps of a sixteenth of it, by skipped cycles. -/
def State.clockGoal (s : State) (c : Nat) : Nat := if s.lowCeil c < 80 then s.lowCeil c / 5 * 5 else s.lowCeil c

/-- PWR_CLKEFF with a clock and the ceilings that bind. -/
def State.clkeffWord (s : State) (c f : Nat) : Word :=
  let g := s.lowCeil c
  let bind := fun (cap : Nat) (n : Nat) => if cap = g ∧ cap < 180 then 2 ^ n else 0
  BitVec.ofNat 16 (f + (if s.fset c = g then 256 else 0) + bind (s.govCeil c) 9 + bind (s.limCap c) 10 + bind (s.thermCap c) 11)

/-- A crew's clock follows its ceilings: a fall takes effect, a rise waits for the voltage. (log entry 8, DESIGN CHOICE) -/
def State.reclock (s : State) (c : Nat) : State :=
  let old := s.fld (R.PWR_CLKEFF c) 0 8
  let g := s.clockGoal c
  let s1 := s.setReg (R.PWR_CLKEFF c) (s.clkeffWord c (min old g))
  if g < old && s.crewOn c then s1.setReg (R.PWR_VOUT c) ((Config.fusedVout g).setWidth 16) else s1

/-- LIMIT: a limiter or thermal cap binds in some crew. -/
def State.limitCheck (s : State) : State :=
  let on := (List.range 96).any (fun c => s.reg (R.PWR_CLKEFF c) &&& 0x0C00 != 0)
  let was := s.bit R.PACE_STAT 6
  (if on && !was then s.orReg R.PACE_EVT 0x40 else s).setBit R.PACE_STAT 6 on

/-- Every crew's clock follows its ceilings. -/
def State.reclockAll (s : State) : State := ((List.range 96).foldl State.reclock s).limitCheck

/-- VOLTAGE_RISE: the voltage for a higher clock is there, and the waiting rise takes effect (R396). -/
def execVoltageRise (crew : Fin 96) (s : State) : Outcome State Fault Refusal :=
  let c := crew.val
  if s.crewOn c then
    let g := s.clockGoal c
    .next ((s.setReg (R.PWR_CLKEFF c) (s.clkeffWord c g)).setReg (R.PWR_VOUT c) ((Config.fusedVout g).setWidth 16))
  else .next s

/-- A write of PWR_CLK. -/
def State.pwrClkWrite (s : State) (c : Nat) (v : Word) : State := (s.setReg (R.PWR_CLK c) (v &&& 0x00FF)).reclock c

/-! ## Current reports (R398, R382) -/

/-- QUIET of the crew's slot binds its reports and ballast. -/
def State.crewQuiet (s : State) (c : Nat) : Bool :=
  s.crewAssigned c && s.bit (R.LANE_SLOT_CTRL (s.crewSlot c)) 0 && s.slotState (s.crewSlot c) != 0

/-- An event bit of PACE_EVT sets. -/
def State.paceEvt (s : State) (n : Nat) : State := s.orReg R.PACE_EVT (BitVec.ofNat 16 (2 ^ n))

/-- CURRENT_REPORT: the 1 ms averages are posted; a QUIET crew's report stays as it is; BANDX if the average left the band. (log entry 31, DESIGN CHOICE) -/
def execCurrentReport (vin iin : Word) (pin : BitVec 32) (dom : Vector Word 4) (aux : Word) (crews : List Word) (s : State) :
    Outcome State Fault Refusal :=
  let s1 := (((s.setReg R.PWR_VIN vin).setReg R.PWR_IIN iin).setReg32 R.PWR_PIN_LO pin).setReg R.PWR_AUXP aux
  let s2 := (List.finRange 4).foldl (fun t d => t.setReg (R.PWR_DOMCUR d.val) (dom.get d)) s1
  let s3 := (List.range 96).foldl (fun t c =>
    let v := if s.crewOn c then crews.getD c 0 else 0
    let t1 := { t with pwr := { t.pwr with current := mapSet (fun _ => 0) t.pwr.current c v } }
    if s.crewQuiet c then t1 else t1.setReg (R.PWR_CUR c) v) s2
  .next (if s.paceOn && !s.pwr.unheld && (decide (pin.toNat < s.pwr.lo) || decide (s.pwr.hi < pin.toNat)) then s3.paceEvt 9 else s3)

/-- QUIET_REPORT: each QUIET lane's crews report the lane's mean, to the nearest 1 A. -/
def execQuietReport (s : State) : Outcome State Fault Refusal :=
  .next ((List.range 16).foldl (fun t k =>
    let cs := (List.range 96).filter (fun c => s.crewQuiet c && s.crewSlot c == k)
    let sum := (cs.map (fun c => (mapGet (fun _ => (0 : Word)) s.pwr.current c).toNat)).sum
    let mean := (sum + 50 * cs.length) / (100 * max 1 cs.length) * 100
    cs.foldl (fun u c => u.setReg (R.PWR_CUR c) (BitVec.ofNat 16 mean)) t) s)

/-! ## Fast limiter and thermal throttle (R399, R400) -/

/-- A cap after a step: over the limit it falls by 50 MHz; after 100 calm steps it rises by 50 MHz. The flag says whether
it moved. -/
def capStep (x : Nat × Nat) (above calm : Bool) (wait : Nat) : (Nat × Nat) × Bool :=
  if above then ((max 10 (x.1 - 5), 0), true)
  else if calm && x.1 < 180 then (if wait ≤ x.2 + 1 then ((min 180 (x.1 + 5), 0), true) else ((x.1, x.2 + 1), false))
  else ((x.1, 0), false)

/-- PWR_PLIM in W, as it acts. -/
def State.plim (s : State) : Nat := min 1500 (s.fld R.PWR_PLIM 0 11)

/-- LIMITER_STEP: input power in mW, input current and crew currents in 10 mA units, against their limits. (log entry 31, DESIGN CHOICE) -/
def execLimiterStep (power amps : Nat) (crews : List Nat) (s : State) : Outcome State Fault Refusal :=
  let lp := s.plim * 1000
  let li := s.plim * 100 / 40
  let p := capStep s.pwr.capPower (decide (lp < power)) (decide (power * 100 < lp * 97)) 100
  let i := capStep s.pwr.capAmps (decide (li < amps)) (decide (amps * 100 < li * 97)) 100
  let cs := (List.range 96).map (fun c =>
    let lc := min 2500 (s.fld (R.PWR_ILIM c) 0 12)
    (c, capStep (mapGet (fun _ => (180, 0)) s.pwr.capCrew c) (decide (lc < crews.getD c 0)) (decide (crews.getD c 0 * 100 < lc * 97)) 100))
  let moves := fun (above calm : Bool) (cap : Nat) => above || (calm && decide (cap < 180))
  let s1 := { s with pwr := { s.pwr with
    capPower := p.1, capAmps := i.1
    limMoves := moves (decide (lp < power)) (decide (power * 100 < lp * 97)) s.pwr.capPower.1
      || moves (decide (li < amps)) (decide (amps * 100 < li * 97)) s.pwr.capAmps.1
      || (List.range 96).any (fun c =>
        let lc := min 2500 (s.fld (R.PWR_ILIM c) 0 12)
        moves (decide (lc < crews.getD c 0)) (decide (crews.getD c 0 * 100 < lc * 97)) (mapGet (fun _ => (180, 0)) s.pwr.capCrew c).1)
    capCrew := cs.foldl (fun m (x : Nat × ((Nat × Nat) × Bool)) => mapSet (fun _ => (180, 0)) m x.1 x.2.1) s.pwr.capCrew } }
  .next ((if p.2 || i.2 || cs.any (fun (x : Nat × ((Nat × Nat) × Bool)) => x.2.2) then s1.orReg R.PWR_FLT 8 else s1).reclockAll)

/-- LEVEL of a crew set, 0–100; without ballast there is no kill ballast in it. -/
def State.setLevel (s : State) (c l : Nat) : State :=
  (if l = 0 then s.clrReg (R.PWR_BAL c) 0x80 else s).setFld (R.PWR_BAL c) 0 7 (min 100 l)

/-- LEVEL of a crew. -/
def State.ballast (s : State) (c : Nat) : Nat := s.fld (R.PWR_BAL c) 0 7

/-- THERMAL_STEP: the hottest junction of each crew in 0.25 °C units; at 95 °C and above the cap falls, below 93 °C it rises;
a crew under a thermal cap carries no ballast. (log entry 31, DESIGN CHOICE) -/
def execThermalStep (temps : List Word) (s : State) : Outcome State Fault Refusal :=
  let step := fun (t : State × Bool) (c : Nat) =>
    let tj := temps.getD c 0
    let x := capStep (mapGet (fun _ => (180, 0)) t.1.pwr.capTherm c) (decide (380 ≤ tj.toInt)) (decide (tj.toInt < 372)) 10
    let t1 := { t.1.setReg (R.PWR_TJ c) tj with pwr := { t.1.pwr with capTherm := mapSet (fun _ => (180, 0)) t.1.pwr.capTherm c x.1 } }
    (if x.1.1 < 180 then t1.setLevel c 0 else t1, t.2 || x.2)
  let on := (List.range 96).filter (fun c => s.crewOn c)
  let r := on.foldl step (s, false)
  let moves := on.any (fun c => decide (380 ≤ (temps.getD c 0).toInt)
    || (decide ((temps.getD c 0).toInt < 372) && decide ((mapGet (fun _ => (180, 0)) s.pwr.capTherm c).1 < 180)))
  let s1 := { r.1 with pwr := { r.1.pwr with thermMoves := moves } }
  .next ((if r.2 then s1.orReg R.PWR_FLT 0x10 else s1).reclockAll)

/-! ## Commitments (R402) -/

/-- The shadow set, clamped, and whether a value was clamped. -/
def State.shadowSet (s : State) : PaceSet × Bool :=
  let cl := fun (lo hi v : Nat) => max lo (min hi v)
  let up := s.fld R.PACE_SLEW_UP 0 14
  let down := s.fld R.PACE_SLEW_DOWN 0 14
  let band := s.fld R.PACE_BAND 0 7
  let cap := s.fld R.PACE_SENSCAP 0 7
  let wd := s.fld R.PACE_WDOG 0 10
  let x : PaceSet :=
    { target := min 1500000 (s.reg32 R.PACE_TARGET_LO).toNat, floor := min 1500000 (s.reg32 R.PACE_FLOOR_LO).toNat
      up := cl 1 10000 up, down := cl 1 10000 down, band := cl 5 100 band, senscap := cl 10 100 cap
      mask := s.fld R.PACE_SENS 0 8, inlet := s.fld R.PACE_SENS 8 3, wdog := cl 10 1000 wd }
  (x, x.up != up || x.down != down || x.band != band || x.senscap != cap || x.wdog != wd)

/-- STATE of PACE_STAT set; STATECHG when it changes. -/
def State.setPaceState (s : State) (v : Nat) : State :=
  if s.fld R.PACE_STAT 0 3 = v then s else (s.setFld R.PACE_STAT 0 3 v).paceEvt 2

/-- STATE when no trajectory is held: WAIT while a set is pending (R402), else OFF. -/
def State.idleState (s : State) : Nat := if s.pwr.waiting.isSome then 4 else 0

/-- A pulse of PACE_CMD.APPLY. -/
def State.paceApply (s : State) : State :=
  let x := s.shadowSet
  let delay := s.fld R.PACE_STAGGER 0 8 * s.fld R.PACE_STAGGER 8 8 * 100000000
  let s1 := if x.2 then s.paceEvt 0 else s
  { s1 with pwr := { s1.pwr with waiting := some (x.1, s.time + delay) } }.setPaceState 4

/-- PACE_APPLY. -/
def execPaceApply (s : State) : Outcome State Fault Refusal := .next s.paceApply

/-! ## The trajectory and the governor (R401, R403) -/

/-- T in mW. -/
def State.traj (s : State) : Nat := s.pwr.traj10 / 10

/-- T set, in 0.1 mW; PACE_TRAJ shows it in mW. -/
def State.setTraj10 (s : State) (v : Nat) : State :=
  { s with pwr := { s.pwr with traj10 := v } }.setReg32 R.PACE_TRAJ_LO (BitVec.ofNat 32 (v / 10))

/-- T set, in mW. -/
def State.setTraj (s : State) (v : Nat) : State := s.setTraj10 (10 * v)

/-- The coolant cap for an inlet temperature in 0.01 °C, in mW (R408). -/
def coolCap (ti : Int) : Nat := max 300000 ((1500000 : Int) - 400 * max 0 (ti - 4000)).toNat

/-- The inlet temperature the governor uses: the channel's reading, or the on-die estimate once the channel is lost (R409). -/
def State.inletTemp (s : State) (est : Int) : Int :=
  if s.pwr.open_.getLsbD s.pwr.inForce.inlet then est else (s.reg (R.AIN_TEMP s.pwr.inForce.inlet)).toInt

/-- A masked sensor is lost. -/
def State.sensorLost (s : State) : Bool := s.pwr.open_.toNat &&& s.pwr.inForce.mask != 0

/-- The cap on the trajectory. -/
def State.paceCap (s : State) (est : Int) : Nat :=
  let c := min (s.plim * 1000) (coolCap (s.inletTemp est))
  if s.sensorLost then min c (s.pwr.inForce.senscap * 15000) else c

/-- What the trajectory moves toward under a cap. -/
def State.paceGoal (s : State) (cap : Nat) : Nat := min (max s.pwr.inForce.target s.pwr.inForce.floor) cap

/-- STATE for a goal: WAIT while a set is pending, else where T stands to it, or OFF. -/
def State.showPaceState (s : State) (goal : Nat) : State :=
  s.setPaceState (if s.pwr.waiting.isSome || !s.paceOn then s.idleState
    else if s.pwr.traj10 < 10 * goal then 2 else if 10 * goal < s.pwr.traj10 then 3 else 1)

/-- The pending set comes into force once its stagger delay has passed (R402). -/
def State.pendingDue (s : State) : State :=
  match s.pwr.waiting with
  | some (x, due) =>
    if due ≤ s.time then
      let s1 := (s.setReg32 R.PACE_ATARGET_LO (BitVec.ofNat 32 x.target)).paceEvt 1
      let s2 := { s1 with pwr := { s1.pwr with inForce := x, waiting := none } }
      s2.showPaceState (s2.paceGoal (s2.paceCap (s2.reg (R.AIN_TEMP x.inlet)).toInt))
    else s
  | none => s

/-- PENDING_SET_IN_FORCE: at the first governor period after its stagger delay. -/
def execPendingSetInForce (s : State) : Outcome State Fault Refusal := .next s.pendingDue

/-- A status bit with the event bit that its beginning sets. -/
def State.paceFlag (s : State) (stat evt : Nat) (on : Bool) : State :=
  (if on && !(s.bit R.PACE_STAT stat) then s.paceEvt evt else s).setBit R.PACE_STAT stat on

/-- The crew may carry ballast (R406). -/
def State.ballastOk (s : State) (c : Nat) : Bool :=
  s.crewOn c && s.bit (R.PWR_CTRL c) 0 && !(s.crewQuiet c) && (mapGet (fun _ => (180, 0)) s.pwr.capTherm c).1 == 180

/-- The outputs of the firmware half take effect (R93): lo, hi, shares, ceilings. -/
def State.govEffect (s : State) : State :=
  match s.pwr.out with
  | none => s
  | some g =>
    let s1 := { s with pwr := { s.pwr with out := none, lo := g.lo, hi := g.hi } }
    let s2 := (List.range 96).foldl (fun t c =>
      let sh := if t.ballastOk c then min 100 (g.shares.getD c 0) else 0
      let ce := max 10 (min 180 (g.ceils.getD c 180))
      let t1 := t.setReg (R.PWR_BAL c) (BitVec.ofNat 16 (sh + sh * 256))
      { t1 with pwr := { t1.pwr with
        ceil := mapSet (fun _ => 180) t1.pwr.ceil c ce
        trim := mapSet (fun _ => 180) t1.pwr.trim c (min ce (mapGet (fun _ => 180) t1.pwr.trim c)) } }) s1
    s2.reclockAll

/-- RECOVERY_ENTRY in the power block: reports are stamped, governor outputs take effect (R92, R93, R398). -/
def State.recoveryPower (s : State) : State :=
  (if s.paceOn then s.govEffect else s).setReg64 (R.PWR_RPTSTK 0) (s.reg64 (R.STK_COUNT 0))

/-- The trajectory moves one period (R401). -/
def State.moveTraj (s : State) (cap : Nat) : State :=
  let f := s.pwr.inForce
  let goal := s.paceGoal cap
  let t := s.pwr.traj10
  let t1 := if t < 10 * goal then min (10 * goal) (t + f.up) else max (10 * goal) (t - f.down)
  ((s.setTraj10 t1).paceFlag 8 8 (decide (cap < max f.target f.floor))).showPaceState goal

/-- The trajectory starts, or starts again, at the last PWR_PIN with a band around it, and the watchdog with it (R401, R410). -/
def State.startTraj (s : State) : State :=
  let t := (s.reg32 R.PWR_PIN_LO).toNat
  let b := s.pwr.inForce.band
  let s1 := s.setTraj t
  { s1 with pwr := { s1.pwr with
    lo := t * (1000 - b) / 1000, hi := t * (1000 + b) / 1000, unheld := false, kickAt := s.uptime } }

/-- A governor period of the PACE block: a pending set comes into force; outputs computed a period ago take effect if no recovery entry fell since (R93); then the trajectory
moves and the firmware half's new outputs are published (R401, R403, R409). -/
def State.governorPeriod (s : State) (g : GovInput) : State :=
  let p := s.pendingDue
  if !p.paceOn then (p.setTraj (p.reg32 R.PWR_PIN_LO).toNat).setPaceState p.idleState
  else if p.bit R.PACE_STAT 7 then p
  else
    let s0 := p.govEffect
    let lost := s0.sensorLost
    let s1 := (if !lost && s0.bit R.PACE_STAT 3 then s0.paceEvt 10 else s0).paceFlag 3 3 lost
    let s2 := s1.moveTraj (s1.paceCap g.inlet)
    let t := s2.traj
    let b := s2.pwr.inForce.band
    let s3 := ((s2.setReg32 R.PACE_DEMAND_LO (BitVec.ofNat 32 (g.est - g.ball))).setReg32 R.PACE_BALLAST_LO
      (BitVec.ofNat 32 g.ball)).setReg32 R.PACE_BALCAP_LO (BitVec.ofNat 32 g.balcap)
    { s3 with pwr := { s3.pwr with out := some ⟨t * (1000 - b) / 1000, t * (1000 + b) / 1000, g.shares, g.ceils⟩ } }

/-- A write of PACE_CTRL: EN from 0 to 1 starts the trajectory; with EN 0 nothing is held, and ballast stays as it is. (log entry 78, DESIGN CHOICE) -/
def State.paceCtrlWrite (s : State) (v : Word) : State :=
  let s1 := s.setReg R.PACE_CTRL (v &&& 1)
  if v.getLsbD 0 then
    if s.paceOn then s1
    else s1.startTraj.setPaceState (if s.pwr.waiting.isSome then 4 else 1)
  else
    let s2 := s1.setPaceState s.idleState
    { s2.clrReg R.PACE_STAT 0x01B8 with pwr := { s2.pwr with out := none, unheld := false, ceil := [], trim := [] } }.reclockAll

/-- PACE_ENABLE: a write of PACE_CTRL. -/
def execPaceEnable (ctrl : Word) (s : State) : Outcome State Fault Refusal := .next (s.paceCtrlWrite ctrl)

/-! ## The trim (R404, R407) -/

/-- A raise of ballast of up to 8 % reaches the crew: every eligible crew of a lower LEVEL takes its whole step (R404). -/
def State.raiseReaches (s : State) (bal : Nat → Nat) (c : Nat) : Bool :=
  s.ballastOk c && (List.range 96).all (fun d =>
    !(s.ballastOk d && decide (s.ballast d < s.ballast c)) || decide (min 8 (100 - s.ballast d) ≤ bal d))

/-- A fall of ballast of up to 8 % reaches the crew: every crew of a higher LEVEL takes its whole step (R404). -/
def State.fallReaches (s : State) (bal : Nat → Nat) (c : Nat) : Bool :=
  (List.range 96).all (fun d => !(decide (s.ballast c < s.ballast d)) || decide (min 8 (s.ballast d) ≤ bal d))

/-- Ballast falls by each crew's step, highest LEVEL first. -/
def State.lowerBallast (s : State) (bal : Nat → Nat) : State :=
  (List.range 96).foldl (fun t c => if s.fallReaches bal c then t.setLevel c (t.ballast c - bal c) else t) s

/-- TRIM: below lo clocks with work and then ballast rise, above hi ballast and then ceilings fall; within the band SHORT and
OVER end. Steps are taken as far as the rule allows: ballast is not raised while a limiter or thermal cap moves. Without a
trajectory to hold, ballast only falls (R410). (log entry 31, DESIGN CHOICE) -/
def execTrim (i : TrimInput) (s : State) : Outcome State Fault Refusal :=
  let clk := fun c => min 5 (i.clk.getD c 0)
  let bal := fun c => min 8 (i.bal.getD c 0)
  let trimOf := fun (t : State) c => mapGet (fun _ => 180) t.pwr.trim c
  let setTrim := fun (t : State) c v => { t with pwr := { t.pwr with trim := mapSet (fun _ => 180) t.pwr.trim c v } }
  if !(s.paceOn) then .next s
  else if s.pwr.unheld then .next (s.lowerBallast bal)
  else if i.est < s.pwr.lo then
    let s1 := (List.range 96).foldl (fun t c =>
      if i.work.getLsbD c && t.crewOn c then setTrim t c (min (mapGet (fun _ => 180) t.pwr.ceil c) (trimOf t c + clk c)) else t) s
    let s2 := if s.pwr.limMoves || s.pwr.thermMoves then s1
      else (List.range 96).foldl (fun t c => if s.raiseReaches bal c then t.setLevel c (t.ballast c + bal c) else t) s1
    .next s2.reclockAll
  else if s.pwr.hi < i.est then
    let s1 := s.lowerBallast bal
    let s2 := if (List.range 96).any (fun c => s1.ballast c != 0) then s1
      else (List.range 96).foldl (fun t c => setTrim t c (max (t.clockFloor c) (trimOf t c - clk c))) s1
    .next s2.reclockAll
  else .next (s.clrReg R.PACE_STAT 0x30)

/-- SHORT: every eligible crew is at LEVEL 100. -/
def execShort (s : State) : Outcome State Fault Refusal :=
  .next (if s.paceOn && (List.range 96).all (fun c => !(s.ballastOk c) || s.ballast c == 100) then s.paceFlag 4 4 true else s)

/-- OVER: no ballast runs, and every crew is at its lowest clock. -/
def execOver (s : State) : Outcome State Fault Refusal :=
  .next (if s.paceOn && (List.range 96).all (fun c =>
      s.ballast c == 0 && (!(s.crewOn c) || decide (s.fld (R.PWR_CLKEFF c) 0 8 ≤ s.clockFloor c))) then
    s.paceFlag 5 5 true else s)

/-! ## Firmware-half watchdog (R410) -/

/-- A pulse of PACE_CMD.KICK: the watchdog starts again; after STALE the firmware half restarts with T at the last PWR_PIN. -/
def State.paceKick (s : State) : State :=
  if s.bit R.PACE_STAT 7 then s.startTraj.setBit R.PACE_STAT 7 false
  else { s with pwr := { s.pwr with kickAt := s.uptime } }

/-- KICK. -/
def execKick (s : State) : Outcome State Fault Refusal := .next s.paceKick

/-- PACE_WDOG in force, in ns. -/
def State.paceWdog (s : State) : Nat := s.pwr.inForce.wdog * 1000000

/-- PACE_WATCHDOG_EXPIRY: no kick for PACE_WDOG ms: STALE; lo and hi stay where they are. -/
def execPaceWatchdogExpiry (s : State) : Outcome State Fault Refusal :=
  if s.paceOn && decide (s.pwr.kickAt + s.paceWdog ≤ s.uptime) then
    let s1 := s.paceFlag 7 7 true
    .next { s1 with pwr := { s1.pwr with out := none } }
  else .next s

/-- STALE_HOLD_END: a further PACE_WDOG ms on, the device stops holding a trajectory, and its ballast goes. -/
def execStaleHoldEnd (s : State) : Outcome State Fault Refusal :=
  if s.paceOn && s.bit R.PACE_STAT 7 && decide (s.pwr.kickAt + 2 * s.paceWdog ≤ s.uptime) then
    .next { s with pwr := { s.pwr with unheld := true } }.reclockAll
  else .next s

/-! ## Faults that step the load (R411) -/

/-- Every domain except VBH is off. -/
def State.domainsOff (s : State) : State :=
  { s with vcOn := 0, inRst := BitVec.allOnes 96, storeOn := 0, vmeshOn := false, vgwOn := 0, vioOn := false
           seatsZeroed := 0, storesZeroed := 0, pwr := { s.pwr with stage1 := false, ordered := false } }

/-- A step fault: every domain but VBH goes off, its bit, cause and step are recorded. -/
def State.stepFault (s : State) (flt cause dom : Nat) (mw : BitVec 32) : State :=
  let s1 := (s.orReg R.PWR_FLT (BitVec.ofNat 16 (2 ^ flt))).setReg R.PWR_CAUSE (BitVec.ofNat 16 (cause + dom * 16))
  let s2 := (s1.setReg32 R.PWR_PSTEP_LO mw).domainsOff
  { s2 with bh := { s2.bh with tripId := some (s.reg32 R.BH_COMMIT_ID_LO).toNat } }

/-- A fault of the 48 V supply acts while stage 1 is on. -/
def State.ifOn (s : State) (f : State → State) : State := if s.pwr.stage1 then f s else s

/-- UVIN. -/
def execUvin (mw : BitVec 32) (s : State) : Outcome State Fault Refusal := .next (s.ifOn (fun t => t.stepFault 0 1 0 mw))

/-- OVERPOWER. -/
def execOverpower (mw : BitVec 32) (s : State) : Outcome State Fault Refusal := .next (s.ifOn (fun t => t.stepFault 1 2 0 mw))

/-- OVERVOLT. -/
def execOvervolt (mw : BitVec 32) (s : State) : Outcome State Fault Refusal := .next (s.ifOn (fun t => t.stepFault 1 3 0 mw))

/-- STAGE. -/
def execStage (mw : BitVec 32) (s : State) : Outcome State Fault Refusal := .next (s.ifOn (fun t => t.stepFault 1 4 0 mw))

/-- REG. -/
def execReg (dom : Fin 100) (mw : BitVec 32) (s : State) : Outcome State Fault Refusal :=
  .next (s.ifOn (fun t => t.stepFault 1 5 dom.val mw))

/-- TJMAX. -/
def execTjmax (mw : BitVec 32) (s : State) : Outcome State Fault Refusal := .next (s.ifOn (fun t => t.stepFault 1 6 0 mw))

/-- A shutdown is ordered: PWR_CMD.SHUT, or a protection action. -/
def State.orderShutdown (s : State) : State := { s with pwr := { s.pwr with ordered := true } }

/-- SHUT: a pulse of PWR_CMD.SHUT. -/
def execShut (s : State) : Outcome State Fault Refusal := .next (s.ifOn State.orderShutdown)

/-- ORDER: the ordered shutdown turns the domains off. -/
def execOrder (mw : BitVec 32) (s : State) : Outcome State Fault Refusal :=
  .next (s.ifOn (fun t => if t.pwr.ordered then t.stepFault 2 7 0 mw else t))

end Sys2Proof.Machine
end

