-- ==== Sys2Proof/Machine/Sync.lean ====
section
/-! DEFINITION. The sync network (spec/09 R272–R287): catch groups and calls, and the instructions that use them. -/
namespace Sys2Proof.Machine
open Host

/-! ## Catch groups: configuration and arrivals -/

/-- SYN_CGSTATg.GEN. -/
def State.cgGen (s : State) (g : Nat) : Nat := s.fld (R.SYN_CGSTAT g) 0 8

/-- The core is a member of the group. -/
def State.cgMember (s : State) (c : CoreId) (g : Nat) : Bool := (s.cgMembers (crewNum c) g).getLsbD (cgBit c)

/-- The core has arrived in the current generation. -/
def State.cgArrived (s : State) (c : CoreId) (g : Nat) : Bool := s.bit (R.SYN_CGARR (crewNum c) g) (cgBit c)

/-- The early arrivals of a group set. -/
def State.setEarly (s : State) (g : Nat) (l : List Nat) : State := { s with early := mapSet (fun _ => []) s.early g l }

/-- An arrival is recorded, as one of the current generation or as an early one; none where the core must stall (R273). (log entry 27, DEDUCED) -/
def State.cgArrive (s : State) (c : CoreId) (g : Nat) : Option State :=
  if !(s.cgArrived c g) then some (s.setBit (R.SYN_CGARR (crewNum c) g) (cgBit c) true)
  else if (s.cgEarly g).contains (coreKey c) then none
  else some (s.setEarly g (s.cgEarly g ++ [coreKey c]))

/-! ## Completion (R274) -/

/-- The completions a core's unfinished CGW on a group still waits for. -/
def Core.cgwLeft (k : Core) (g : Nat) : Option Nat := (k.cgw.find? (fun p => p.1 == g)).map Prod.snd

/-- The core without an unfinished CGW on a group. -/
def Core.cgwDrop (k : Core) (g : Nat) : Core := { k with cgw := k.cgw.filter (fun p => p.1 != g) }

/-- A completion as one core meets it: a CGW that has waited long enough ends, and a stalled CGA records its arrival. -/
def State.cgRelease (s : State) (c : CoreId) (g : Nat) : State :=
  let k := s.core c
  let k1 := { k with cgw := k.cgw.map (fun p => if p.1 = g then (g, p.2 - 1) else p) }
  let s1 := s.setCore c k1
  if k.wait = some (.cgw g) && k1.cgwLeft g == some 0 then (s1.setCore c (k1.cgwDrop g)).complete c (cstSs k.cst)
  else if k.wait = some (.cga g) then
    match s1.cgArrive c g with
    | some s2 => (s2.setCore c ((s2.core c).cgwDrop g)).complete c (cstSs k.cst)
    | none => s1
  else s1

/-- The arrivals of a generation make way for the early ones. (log entry 18, DEDUCED) -/
def State.cgTurn (s : State) (g : Nat) : State :=
  let early := (s.cgEarly g).map coreOf
  let s1 := (List.range 96).foldl (fun t c => t.setReg (R.SYN_CGARR c g) 0) s
  (early.foldl (fun t c => t.setBit (R.SYN_CGARR (crewNum c) g) (cgBit c) true) s1).setEarly g []

/-- A generation of a group completes: GEN advances, early arrivals become arrivals, waiters are released, and the CATCH
gates of the lane's crews that name the group open. (log entry 26, DEDUCED) -/
def State.cgComplete (s : State) (g : Nat) : State :=
  let s1 := (s.setFld (R.SYN_CGSTAT g) 0 8 ((s.cgGen g + 1) % 256)).cgTurn g
  let s2 := s1.liveCores.foldl (fun t c => t.cgRelease c g) s1
  (List.range 96).foldl (fun t c => if t.crewUp c && t.laneOf c = t.cgLane g then t.gateEventAll c g else t) s2

/-- The ports whose partners take this device as their upstream. -/
def State.downPorts (s : State) : List Nat :=
  s.activePorts.filter (fun p => ((s.port p).heard.map SyncMsg.up).getD false)

/-- A partner has sent its contribution for a generation of a group. (log entry 26, DEDUCED) -/
def State.contributed (s : State) (p g gen : Nat) : Bool :=
  ((s.port p).heard.map (fun m => m.cgArr.testBit g && m.cgGen.getD g 0 == gen)).getD false

/-- The device's contribution to the current generation of a SYS group (R274): its own members, where it has any, and every
device below it. (log entry 26, DEDUCED) -/
def State.contributes (s : State) (g : Nat) : Bool :=
  (!(s.cgHas g && s.cgSys g) || s.cgLocal g) && s.downPorts.all (fun p => s.contributed p g (s.cgGen g))

/-- CATCH_GROUP_COMPLETION: a LOCAL group whose members have all arrived completes; a SYS group, at the master, once every
contribution is in. A master where the group is not enabled counts its generations. -/
def execCatchGroupCompletion (g : Fin 64) (s : State) : Outcome State Fault Refusal :=
  let below := s.downPorts.any (fun p => s.contributed p g.val (s.cgGen g.val))
  if s.cgEn g.val && !(s.cgSys g.val) then (if s.cgLocal g.val then .next (s.cgComplete g.val) else .next s)
  else if s.isMaster && s.runsPhases && s.contributes g.val && (s.cgHas g.val || below) then
    if s.cgEn g.val then .next (s.cgComplete g.val)
    else .next (s.setFld (R.SYN_CGSTAT g.val) 0 8 ((s.cgGen g.val + 1) % 256))
  else .next s

/-! ## Enabling and disabling -/

/-- A core that waits on a group that is disabled takes ACCESS. -/
def State.cgDisable (s : State) (c : CoreId) (g : Nat) : State :=
  let k := s.core c
  let s1 := s.setCore c (k.cgwDrop g)
  if k.wait = some (.cgw g) || k.wait = some (.cga g) then s1.raise c 3 false k.pc (BitVec.ofNat 32 g) else s1

/-- A write of SYN_CGCTRLg. The generation that a SYS group enabled late counts from is the system's (R277): at the master it
stands, elsewhere the next downstream slot gives it. (log entry 26, DEDUCED) -/
def State.cgCtrlWrite (s : State) (g : Nat) (v : Word) : State :=
  let a := R.SYN_CGCTRL g
  if s.cgEn g then
    if v.getLsbD 0 then s
    else
      let s1 := s.setBit a 0 false
      s1.liveCores.foldl (fun t c => t.cgDisable c g) s1
  else
    let s1 := s.setReg a (v &&& 0x0FFF)
    if v.getLsbD 0 then
      let s2 := (s1.setEarly g []).cgTurn g
      let s3 := if v.getLsbD 1 && s.isMaster && s.runsPhases then s2 else s2.setFld (R.SYN_CGSTAT g) 0 8 0
      let s4 := if v.getLsbD 1 && !(s.isMaster) then
          { s3 with stroke := { s3.stroke with fresh := s3.stroke.fresh ||| BitVec.ofNat 64 (2 ^ g) } }
        else s3
      s4.liveCores.foldl (fun t c => t.setCore c ((t.core c).cgwDrop g)) s4
    else s1

/-- CATCH_GROUP_ENABLE: a write of SYN_CGCTRLg with EN = 1. (log entry 13, DESIGN CHOICE) -/
def execCatchGroupEnable (g : Fin 64) (ctrl : Word) (s : State) : Outcome State Fault Refusal :=
  if s.meshUp then .next (s.cgCtrlWrite g.val (ctrl ||| 1)) else .next s

/-- CATCH_GROUP_DISABLE: a write of SYN_CGCTRLg with EN = 0. -/
def execCatchGroupDisable (g : Fin 64) (ctrl : Word) (s : State) : Outcome State Fault Refusal :=
  if s.meshUp then .next (s.cgCtrlWrite g.val (ctrl &&& 0xFFFE)) else .next s

/-! ## CGA and CGW -/

/-- A sync instruction may name the group: enabled, of the lane of the core's crew (R276). -/
def State.cgOpen (s : State) (c : CoreId) (g : Nat) : Bool := s.cgEn g && s.cgLane g == s.laneOf (crewNum c)

/-- CGA: arrive at a catch group. A CGW that was ended before and is not repeated leaves nothing behind (R285). -/
def execCga (c : CoreId) (g : Fin 64) (s : State) : Outcome State Fault Refusal :=
  .next (s.runInsn c { word := (Instr.cga c g).word, onBh := false } (fun t =>
    if !(t.cgOpen c g.val) then .exc (t.orReg R.SYN_ERR 1) 3 (BitVec.ofNat 32 g.val)
    else if !(t.cgMember c g.val) then .exc (t.orReg R.SYN_ERR 2) 3 (BitVec.ofNat 32 g.val)
    else
      match t.cgArrive c g.val with
      | some t1 => .done (t1.setCore c ((t1.core c).cgwDrop g.val))
      | none => .wait (t.setCore c { t.core c with wait := some (.cga g.val) })))

/-- The completions a CGW has to wait for as it issues (R275): those that pass the core's last arrival still pending, else
the next. (log entry 18, DEDUCED) -/
def State.cgwNeed (s : State) (c : CoreId) (g : Nat) : Nat :=
  if (s.cgEarly g).contains (coreKey c) then 2 else 1

/-- CGW: wait until the group's GEN passes the generation of the core's last arrival; a repeated CGW waits for the same
generation (R285). -/
def execCgw (c : CoreId) (g : Fin 64) (s : State) : Outcome State Fault Refusal :=
  .next (s.runInsn c { word := (Instr.cgw c g).word, onBh := false } (fun t =>
    let k := t.core c
    if !(t.cgOpen c g.val) then .exc (t.orReg R.SYN_ERR 1) 3 (BitVec.ofNat 32 g.val)
    else
      match k.cgwLeft g.val with
      | some 0 => .done (t.setCore c (k.cgwDrop g.val))
      | some _ => .wait (t.setCore c { k with wait := some (.cgw g.val) })
      | none => .wait (t.setCore c { k with wait := some (.cgw g.val), cgw := k.cgw ++ [(g.val, t.cgwNeed c g.val)] })))

/-! ## Calls (R278–R281, R286, R311) -/

/-- A call's value on the device. -/
def State.callVal (s : State) (n : Nat) : Bool := s.bit (R.SYN_CALLVAL (n / 16)) (n % 16)

/-- SYN_CALLCFGc.EN. -/
def State.callEn (s : State) (n : Nat) : Bool := s.bit (R.SYN_CALLCFG n) 11

/-- SYN_CALLCFGc.SPAN is SYS. -/
def State.callSys (s : State) (n : Nat) : Bool := s.bit (R.SYN_CALLCFG n) 10

/-- A call's value changes; a set releases the cores that wait for it. -/
def State.callPut (s : State) (n : Nat) (v : Bool) : State :=
  let s1 := s.setBit (R.SYN_CALLVAL (n / 16)) (n % 16) v
  if v then s1.liveCores.foldl (fun t c => if (t.core c).wait = some (.clw n) then t.complete c (cstSs (t.core c).cst) else t) s1
  else s1

/-- The next origin sequence of this device. -/
def State.nextOseq (s : State) : State := { s with stroke := { s.stroke with callSeq := (s.stroke.callSeq + 1) % 16384 } }

/-- Events that wait go to a port's queue, which holds 128 (R311). -/
def State.refillEvents (s : State) (p : Nat) : State :=
  let x := s.port p
  let n := 128 - x.evOut.length
  let s1 := s.setPort p { x with evOut := x.evOut ++ s.stroke.evHeld.take n }
  { s1 with stroke := { s1.stroke with evHeld := s1.stroke.evHeld.drop n } }

/-- An event joins the queue of the upstream port; while there is no room there, or no such port, it waits. (log entry 28, DEDUCED) -/
def State.pushEvent (s : State) (e : CallEvent) : State :=
  let s1 := { s with stroke := { s.stroke with evHeld := s.stroke.evHeld ++ [e] } }
  match s.stroke.upstream with
  | some p => s1.refillEvents p
  | none => s1

/-- A SYS call's system value changes at the master, and the value on the device with it where the call is enabled there (R279). -/
def State.sysPut (s : State) (n : Nat) (v : Bool) : State :=
  let m : BitVec 256 := BitVec.ofNat 256 (2 ^ n)
  let s1 := { s with stroke := { s.stroke with sysCalls := if v then s.stroke.sysCalls ||| m else s.stroke.sysCalls &&& ~~~ m } }
  if s.callEn n && s.callSys n then s1.callPut n v else s1

/-- The master applies a call event, once by its origin's sequence (R311). -/
def State.applyEvent (s : State) (e : CallEvent) : State :=
  let last := (s.stroke.applied.find? (fun q => q.1 == e.origin)).map Prod.snd
  let newer := match last with
    | none => true
    | some l => let d := (e.oseq + 16384 - l) % 16384; decide (0 < d) && decide (d < 8192)
  if newer then
    { s with stroke := { s.stroke with applied := (e.origin, e.oseq) :: s.stroke.applied.filter (fun q => q.1 != e.origin) } }.sysPut
      e.call (e.op == 1)
  else s

/-- A call operation that the device can send now: it applies at once for a LOCAL call and at the master, and else needs
room in the queue of the upstream port (R311); none where it must stall. (log entry 28, DEDUCED) -/
def State.callSend (s : State) (n : Nat) (set : Bool) : Option State :=
  if !(s.callSys n) then some (s.callPut n set)
  else if !(s.runsPhases) then none
  else if s.isMaster then some (s.sysPut n set)
  else
    match s.stroke.upstream with
    | none => none
    | some p =>
      if 128 ≤ (s.port p).evOut.length + s.stroke.evHeld.length then none
      else some ((s.pushEvent ⟨n, if set then 1 else 2, s.stroke.callSeq, s.devId⟩).nextOseq)

/-- Stalled call operations that can go now complete. -/
def State.callRetry (s : State) : State :=
  s.liveCores.foldl (fun t c =>
    match (t.core c).wait with
    | some (.callOp n set) =>
      match t.callSend n set with
      | some t1 => t1.complete c (cstSs (t1.core c).cst)
      | none => t
    | _ => t) s

/-- A call instruction may name the call: enabled, of the lane of the core's crew (R278). -/
def State.callOpen (s : State) (c : CoreId) (n : Nat) : Bool :=
  s.callEn n && s.fld (R.SYN_CALLCFG n) 0 10 == s.laneOf (crewNum c)

/-- CLS and CLC. -/
def State.callInsn (s : State) (c : CoreId) (i : Instr) (n : Nat) (set : Bool) : State :=
  s.runInsn c { word := i.word, onBh := false } (fun t =>
    if !(t.callOpen c n) then .exc (t.orReg R.SYN_ERR 1) 3 (BitVec.ofNat 32 n)
    else
      match t.callSend n set with
      | some t1 => .done t1
      | none => .wait (t.setCore c { t.core c with wait := some (.callOp n set) }))

/-- CLS: set a call. -/
def execCls (c : CoreId) (n : Fin 256) (s : State) : Outcome State Fault Refusal := .next (s.callInsn c (.cls c n) n.val true)

/-- CLC: clear a call. -/
def execClc (c : CoreId) (n : Fin 256) (s : State) : Outcome State Fault Refusal := .next (s.callInsn c (.clc c n) n.val false)

/-- CLT: wd = the call's value on the device. -/
def execClt (c : CoreId) (d : Fin 16) (n : Fin 256) (s : State) : Outcome State Fault Refusal :=
  .next (s.runInsn c { word := (Instr.clt c d n).word, ws := [d], onBh := false } (fun t =>
    if !(t.callOpen c n.val) then .exc (t.orReg R.SYN_ERR 1) 3 (BitVec.ofNat 32 n.val)
    else .done (t.setCore c ((t.core c).setW d (if t.callVal n.val then 1 else 0)))))

/-- CLW: wait until the call is set. -/
def execClw (c : CoreId) (n : Fin 256) (s : State) : Outcome State Fault Refusal :=
  .next (s.runInsn c { word := (Instr.clw c n).word, onBh := false } (fun t =>
    if !(t.callOpen c n.val) then .exc (t.orReg R.SYN_ERR 1) 3 (BitVec.ofNat 32 n.val)
    else if t.callVal n.val then .done t
    else .wait (t.setCore c { t.core c with wait := some (.clw n.val) })))

/-- A set or clear of one call through register space (R286): a SYS call's is discarded while no SYS traffic is carried; one
that finds no room waits for it in front of the queue. (log entry 28, DEDUCED) -/
def State.callReg (s : State) (n : Nat) (set : Bool) : State :=
  if !(s.callEn n) then s
  else if s.callSys n && !(s.runsPhases) then s.orReg R.SYN_ERR 8
  else
    match s.callSend n set with
    | some t => t
    | none => (s.pushEvent ⟨n, if set then 1 else 2, s.stroke.callSeq, s.devId⟩).nextOseq

/-- A write of SYN_CALLSETk or SYN_CALLCLRk. -/
def State.callBits (s : State) (k : Nat) (bits : Word) (set : Bool) : State :=
  (List.range 16).foldl (fun t j => if bits.getLsbD j then t.callReg (16 * k + j) set else t) s

/-- CALL_SET. -/
def execCallSet (k : Fin 16) (bits : Word) (s : State) : Outcome State Fault Refusal :=
  if s.meshUp then .next (s.callBits k.val bits true) else .next s

/-- CALL_CLEAR. -/
def execCallClear (k : Fin 16) (bits : Word) (s : State) : Outcome State Fault Refusal :=
  if s.meshUp then .next (s.callBits k.val bits false) else .next s

/-- A write of SYN_CALLCFGc: EN from 1 to 0 clears the value on this device; a SYS call enabled at the master has the system's
value there (R279). -/
def State.callCfgWrite (s : State) (n : Nat) (v : Word) : State :=
  let s1 := s.setReg (R.SYN_CALLCFG n) (v &&& 0x0FFF)
  if s.callEn n && !(v.getLsbD 11) then s1.callPut n false
  else if !(s.callEn n) && v.getLsbD 11 && v.getLsbD 10 && s.isMaster && s.runsPhases then s1.callPut n (s.stroke.sysCalls.getLsbD n)
  else s1

/-- CALL_DISABLE: a write of SYN_CALLCFGc with EN = 0. -/
def execCallDisable (n : Fin 256) (cfg : Word) (s : State) : Outcome State Fault Refusal :=
  if s.meshUp then .next (s.callCfgWrite n.val (cfg &&& 0xF7FF)) else .next s

end Sys2Proof.Machine
end

