-- ==== Sys2Proof/Machine/Stroke.lean ====
section
/-! DEFINITION. The stroke (spec/03): parameters, phases, the overrun test and its policies, the stroke master and elections. -/
namespace Sys2Proof.Machine
open Host

/-- A number kept within bounds. -/
def clampNat (lo hi v : Nat) : Nat := max lo (min hi v)

/-! ## Parameters (R68–R72) -/

/-- The parameters that this device's own registers give, clamped, and whether any was clamped. -/
def State.ownParams (s : State) : StkParams × Bool :=
  let p0 := (s.reg32 R.STK_PERIOD_LO).toNat
  let c0 := (s.reg R.STK_CATCH).toNat
  let r0 := (s.reg32 R.STK_RECOV_LO).toNat
  let h0 := (s.reg32 R.STK_HOLDMAX_LO).toNat
  let auto := s.bit R.STK_CTRL 1
  let p := clampNat 2000 2000000 p0
  let c := clampNat 50 (min 1000 (p / 4)) c0
  let r := if auto then max 200 (p / 10) else clampNat 200 (p / 2) r0
  let h := min p h0
  (⟨p, r, c, h, auto⟩, p != p0 || c != c0 || (!auto && r != r0) || h != h0)

/-- The stroke logic with its pending set; STK_STAT.PENDING shows it. -/
def State.setPend (s : State) (x : Option (StkParams × Nat)) : State :=
  { s.setBit R.STK_STAT 7 x.isSome with stroke := { s.stroke with pend := x } }

/-- A pulse of STK_CMD.APPLY (R72). -/
def State.stkApply (s : State) : State :=
  if !(s.isMaster) then s.orReg R.STK_EVT 0x40
  else
    let p := s.ownParams
    let s1 := if p.2 then s.orReg R.STK_EVT 0x20 else s
    s1.setPend (some (p.1, match s.stroke.pend with | some x => x.2 | none => s.stkCount + 2))

/-- STK_APPLY. -/
def execStkApply (s : State) : Outcome State Fault Refusal := .next (if !s.warm then s.stkApply else s)

/-! ## The master and elections (R81–R91, R314) -/

/-- The candidate with PIN `p` and ID `a` prevails over another (R82, R89). -/
def prevails (a : Nat × Bool) (b : Nat × Bool) : Bool := (a.2 && !b.2) || (a.2 == b.2 && decide (a.1 < b.1))

/-- This device may become master (R81). -/
def State.candidate (s : State) : Bool :=
  s.bit R.STK_CTRL 0 && !(s.bit R.STK_CTRL 3) && s.bit R.BH_CLK 0 && decide (1 ≤ s.stkState)

/-- This device as a candidate. -/
def State.self (s : State) : Option (Nat × Bool) := if s.candidate then some (s.devId, s.bit R.STK_CTRL 2) else none

/-- A change of the best candidate known: the slots that have advertised it are counted anew. -/
def State.setCand (s : State) (x : Option (Nat × Bool)) : State :=
  { s with stroke := { s.stroke with cand := x }
           ports := (s.ports.map (fun p => (p.1, { p.2 with candTx := 0, candRx := 0 }))).filter (fun p => p.2 != Port.empty) }

/-- An election begins with a generation; the device advertises itself if it is a candidate. -/
def State.startElection (s : State) (gen : Nat) : State :=
  let s1 := { s with stroke := { s.stroke with electing := true, gen := gen % 256 } }
  s1.setCand s1.self

/-- STK_MASTER: ID and VALID. -/
def State.setMaster (s : State) (id : Nat) (valid : Bool) : State :=
  s.setReg R.STK_MASTER (BitVec.ofNat 16 (id % 256 + if valid then 256 else 0))

/-- The master this device follows now, or itself: during a handover still the old one (R85). -/
def State.following (s : State) : Option Nat :=
  match s.stroke.old with
  | some id => some id
  | none => if s.bit R.STK_MASTER 8 then some (s.fld R.STK_MASTER 0 8) else none

/-- The time without a message that counts as loss, in ns: STK_LOSSTO, at least 20 µs (R86, R91). -/
def State.lossTime (s : State) : Nat := max 20 (s.fld R.STK_LOSSTO 0 10) * 1000

/-- The device has heard no master for that time. -/
def State.silent (s : State) : Bool := decide (s.stroke.mark + s.lossTime ≤ s.time)

/-- The upstream port is no longer one: its events wait for the next (R304, R311). -/
def State.leaveUpstream (s : State) : State :=
  match s.stroke.upstream with
  | some p =>
    let x := s.port p
    let s1 := (s.setPort p { x with evOut := [], evBase := (x.evBase + x.evOut.length) % 256 }).setBit (R.GW_STAT p) 15 false
    { s1 with stroke := { s1.stroke with upstream := none, evHeld := x.evOut ++ s1.stroke.evHeld } }
  | none => s

/-- This device is the master from now on; call events it had not yet sent on it applies itself. Its PINNED flag is
STK_CTRL.PIN as it becomes master, and no later write changes it: the spec does not say (log entry 29, DEDUCED). -/
def State.becomeMaster (s : State) : State :=
  let s1 := (s.leaveUpstream.setBit R.STK_STAT 3 true).setMaster s.devId true
  let s2 := { s1 with stroke := { s1.stroke with pinned := s.bit R.STK_CTRL 2, winner := none, old := none, evHeld := []
                                                 retired := s.following.filter (fun id => id != s.devId) } }
  s1.stroke.evHeld.foldl State.applyEvent s2

/-- The HOPS of a port's last message, if it names the master this device follows (R313). -/
def State.hopsBy (s : State) (p : Nat) : Option Nat :=
  match s.following, (s.port p).heard with
  | some id, some m => if m.mvalid && m.master == id then some m.hops else none
  | _, _ => none

/-- The hop distance of this device (R313). -/
def State.hops (s : State) : Nat :=
  if s.isMaster then 0 else s.activePorts.foldl (fun h p => min h ((s.hopsBy p).getD 255 + 1)) 255

/-- The port on a shortest path to the master (R76, R313). -/
def State.bestUpstream (s : State) : Option Nat :=
  if s.isMaster then none
  else
    (s.activePorts.foldl (fun best p =>
      match s.hopsBy p with
      | some h =>
        if 255 ≤ h then best
        else
          match best with
          | some (b : Nat × Nat) => if h < b.2 then some (p, h) else best
          | none => some (p, h)
      | none => best) none).map Prod.fst

/-- The upstream port chosen anew: call events not acknowledged on the old one go to the new one (R304, R311). -/
def State.chooseUpstream (s : State) : State :=
  if s.stroke.upstream = s.bestUpstream then s
  else
    let s1 := s.leaveUpstream
    match s.bestUpstream with
    | some p => ({ s1 with stroke := { s1.stroke with upstream := some p } }.setBit (R.GW_STAT p) 15 true).refillEvents p
    | none => s1

/-- UPSTREAM_SWITCH. -/
def execUpstreamSwitch (s : State) : Outcome State Fault Refusal := .next s.chooseUpstream

/-- The device leaves the phases: a catch deferred or announced no longer stands, and a handover is off. -/
def State.stopPhases (s : State) (st : Nat) : State :=
  let s0 := match s.stroke.old with | some id => s.setMaster id true | none => s
  let s1 := ((s0.setStk st).setFld R.STK_STAT 4 2 0).clrReg R.STK_STAT 0x0048
  { s1 with stroke := { s1.stroke with announce := none, first := none, winner := none, old := none, mark := s.time } }

/-- The device re-enters SYNC; from RUN it sets REJOIN (R73, R89). -/
def State.rejoin (s : State) : State :=
  (if s.stkState == 2 then s.orReg R.STK_EVT 4 else s).stopPhases 1

/-- The device begins to run: held call operations go (R286). -/
def State.enterRun (s : State) : State :=
  { s.setStk 2 with stroke := { s.stroke with fresh := if s.isMaster then 0 else BitVec.allOnes 64 } }.callRetry

/-- An election completes with a winner (R84–R87, R91): ELECTED, and STK_MASTER. On a running schedule another winner than the
master takes over at a catch; the master of a device in HOLDOVER, or of a system that starts, from now on. A winner that is no
candidate any more (R81) starts another election. -/
def State.finishElection (s : State) (w : Nat × Bool) : State :=
  let s1 := { s.orReg R.STK_EVT 2 with stroke := { s.stroke with electing := false } }
  if w.1 = s1.devId && s1.self.isNone then s1.startElection (s1.stroke.gen + 1)
  else if s1.stkState != 3 && s1.following.isSome then
    if s1.following = some w.1 then { s1.setMaster w.1 true with stroke := { s1.stroke with winner := none, old := none } }
    else { s1.setMaster w.1 false with stroke := { s1.stroke with winner := some w.1, old := s1.following } }
  else if w.1 = s1.devId then
    let s2 := s1.becomeMaster
    if s1.stkState = 1 then
      let s3 := s2.enterRun
      { s3 with stroke := { s3.stroke with first := some (roundUp10 (s.time + 20000)), pend := none } }
    else s2.setStk 2
  else s1.setMaster w.1 false

/-- An election completes once the candidate has been advertised by this device and every ACTIVE partner for 8 slots (R314). -/
def State.electionCheck (s : State) : State :=
  match s.stroke.electing, s.stroke.cand with
  | true, some w =>
    if s.activePorts.all (fun p => decide (8 ≤ (s.port p).candRx) && decide (8 ≤ (s.port p).candTx)) && !(s.activePorts.isEmpty) then
      s.finishElection w
    else s
  | _, _ => s

/-- An election under way on a device with no ACTIVE port is over as soon as it knows a candidate: itself (R91). -/
def State.aloneWins (s : State) : State :=
  match s.activePorts, s.stroke.electing, s.stroke.cand with
  | [], true, some w => s.finishElection w
  | _, _, _ => s

/-- An election that this device starts. -/
def State.callElection (s : State) : State := (s.startElection (s.stroke.gen + 1)).aloneWins

/-- What this device offers in an election under way has changed (R81): the candidate it no longer is starts it anew, and a
better one it has become joins it. -/
def State.reoffer (s : State) : State :=
  if !s.stroke.electing then s
  else
    let t := match s.stroke.cand, s.self with
      | none, some w => s.setCand (some w)
      | none, none => s
      | some x, none => if x.1 = s.devId then s.startElection (s.stroke.gen + 1) else s
      | some x, some w =>
        if x.1 = s.devId ∧ x ≠ w then s.startElection (s.stroke.gen + 1) else if prevails w x then s.setCand (some w) else s
    t.aloneWins

/-- A pulse of STK_CMD.ELECT (R83, R85). -/
def State.stkElect (s : State) : State := if s.stkState = 0 then s else s.callElection

/-- ELECT. -/
def execElect (s : State) : Outcome State Fault Refusal := .next (if !s.warm then s.stkElect else s)

/-- A write of STK_CTRL: EN starts the stroke logic in SYNC, or stops it (R73). -/
def State.stkCtrlWrite (s : State) (v : Word) : State :=
  let s1 := s.setReg R.STK_CTRL (v &&& 0x000F)
  if v.getLsbD 0 then
    (if s.stkState = 0 then { s1.setStk 1 with stroke := { s1.stroke with mark := s.time } } else s1.reoffer)
  else
    let s2 := (s1.stopPhases 0).setBit R.STK_MASTER 8 false
    let s3 := { s2.leaveUpstream with stroke := { s2.leaveUpstream.stroke with electing := false, cand := none, fresh := 0 } }
    s3.setPend none

/-- STROKE_ENABLE: a write of STK_CTRL. -/
def execStrokeEnable (ctrl : Word) (s : State) : Outcome State Fault Refusal :=
  .next (if !s.warm then s.stkCtrlWrite ctrl else s)

/-- The device follows no master any more: call events not yet accepted upstream are discarded and counted (R311). -/
def State.dropMaster (s : State) : State :=
  let s1 := s.leaveUpstream
  let s2 := (s1.addSat R.GW_CALLDISC s1.stroke.evHeld.length).setBit R.STK_MASTER 8 false
  { s2 with stroke := { s2.stroke with evHeld := [], winner := none, old := none } }

/-- SYNC_LISTEN_TIMEOUT: in SYNC with no master heard for STK_LOSSTO, an election; alone, the device wins it (R73, R91). -/
def execSyncListenTimeout (s : State) : Outcome State Fault Refusal :=
  .next (if s.stkState = 1 && s.silent && !s.stroke.electing then s.dropMaster.callElection else s)

/-- MASTER_LOSS (R86, R98): no message of the master for STK_LOSSTO: holdover, an election, and a catch already deferred stands
until its limit. (log entry 28, DEDUCED) -/
def execMasterLoss (s : State) : Outcome State Fault Refusal :=
  if s.stkState = 2 && !(s.isMaster) && s.silent then
    let s1 := (s.orReg R.STK_EVT 1).setStk 3
    let s2 := if s.held then
        let t := (List.range 96).foldl (fun u c => if s.holding.getLsbD c then u.orReg (R.COX_STROKE_STAT c) 4 else u) s1
        { t with holding := 0, stroke := { t.stroke with announce := some s.holdLimit } }
      else s1
    let s3 := s2.dropMaster
    .next { s3 with stroke := { s3.stroke with mark := s.time } }.callElection
  else .next s

/-- HOLDOVER_EXPIRY: after 50 ms ISOLATED, its own master (R88). -/
def execHoldoverExpiry (s : State) : Outcome State Fault Refusal :=
  if s.stkState = 3 && decide (s.stroke.mark + 50000000 ≤ s.time) then
    let s1 := ((s.orReg R.STK_EVT 0x80).setStk 4).becomeMaster
    .next { s1 with stroke := { s1.stroke with electing := false } }
  else .next s

/-! ## Phases (R65, R92) -/

/-- An event in every crew that is up. -/
def State.eachCrew (s : State) (f : State → Nat → State) : State :=
  (List.range 96).foldl (fun t c => if t.crewUp c then f t c else t) s

/-- A stroke boundary passes while the device is in SYNC (R74). -/
def State.missed (s : State) : State := s.eachCrew (fun t c => t.orReg (R.COX_STROKE_STAT c) 8)

/-- A stroke interrupt source of a crew sets if enabled (R221). -/
def State.strokeIrq (s : State) (c n : Nat) : State :=
  if s.bit (R.COX_STROKE_CTRL c) (4 + n) then s.orReg (R.COX_STROKE_IRQ c) (BitVec.ofNat 16 (2 ^ n)) else s

/-- The records and tasks that the catch releases belong to its stroke (R220). -/
def State.releaseStroke (s : State) (c k : Nat) : State :=
  let s1 := (crewSeats (crewOf c)).foldl (fun t id =>
    t.setCore id { t.core id with task := (t.core id).task.map (fun x => if x.stroke.isNone then { x with stroke := some k } else x) }) s
  let q := s1.schedOf c
  s1.setSched c { q with heads := q.heads.map (fun p =>
    (p.1, if p.2.ready.isSome && p.2.stroke.isNone then { p.2 with stroke := some k } else p.2)) }

/-- The catch instant in a crew. -/
def State.crewCatch (s : State) (c : Nat) : State :=
  let s1 := (s.strokeIrq c 0).releaseStroke c s.stkCount
  let s2 := if s.bit (R.COX_STROKE_STAT c) 8 then s1 else { s1 with noDispatch := s1.noDispatch &&& ~~~ BitVec.ofNat 96 (2 ^ c) }
  s2.gateEventAll c 64

/-- The winner of an election takes over at a catch, if it is this device (R85) and still a candidate (R81); any other does when
its first message comes. -/
def State.takeOver (s : State) : State :=
  if s.stroke.winner = some s.devId then
    if s.self.isSome then s.becomeMaster
    else
      let s1 := match s.stroke.old with | some id => s.setMaster id true | none => s
      { s1 with stroke := { s1.stroke with winner := none, old := none } }.startElection (s.stroke.gen + 1)
  else s

/-- A catch instant with its time and its stroke count: a pending set that applies from it comes into force, an elected master
takes over. -/
def State.doCatch (s : State) (at_ count : Nat) : State :=
  let s1 := (s.setReg64 (R.STK_COUNT 0) (BitVec.ofNat 64 count)).setReg64 (R.STK_CATCHTIME 0) (BitVec.ofNat 64 at_)
  let s2 := (s1.setFld R.STK_STAT 4 2 0).clrReg R.STK_STAT 0x0040
  let s3 := { s2 with stroke := { s2.stroke with announce := none, first := none, retired := none } }
  let s4 := match s3.stroke.pend with
    | some (p, from_) => if from_ ≤ count then (s3.setEff p).setPend none else s3
    | none => s3
  s4.takeOver.eachCrew State.crewCatch

/-- The master's next catch instant and its stroke count, as the upstream port's last message gives them (R91); none while a hold
defers it. -/
def SyncMsg.joinPoint (m : SyncMsg) : Option (Nat × Nat) :=
  if m.txtime < 8 * m.catchTime then some (m.catchTime, m.stroke)
  else if m.announce != 0 then some (m.announce, m.stroke + 1)
  else if m.hold then none
  else some (m.catchTime + 10 * m.eff.period, m.stroke + 1)

/-- What the upstream port last heard, on a device that follows a master. -/
def State.heardUp (s : State) : Option SyncMsg :=
  if s.following.isSome then s.stroke.upstream.bind (fun p => (s.port p).heard) else none

/-- CATCH_INSTANT: in SYNC a device that has locked to a master enters RUN; a catch that a hold defers waits for its
announced instant (R66, R73, R98). -/
def execCatchInstant (s : State) : Outcome State Fault Refusal :=
  match s.stkState with
  | 0 => .next s
  | 1 =>
    match s.heardUp with
    | none => .next s.missed
    | some m =>
      match m.joinPoint with
      | some (t, n) => if s.time < t then .next s else .next (s.enterRun.doCatch t n)
      | none => .next s
  | _ =>
    if s.stroke.first.isSome || s.stkPhase != 3 then .next s
    else
      match s.nextCatch with
      | some t => if s.time < t then .next s else .next (s.doCatch t (s.stkCount + 1))
      | none => .next s

/-- FIRST_STROKE_START: the winner of a start-up election begins stroke 0 with its own parameters, 20 µs after it (R91). -/
def execFirstStrokeStart (s : State) : Outcome State Fault Refusal :=
  match s.stroke.first with
  | some t =>
    if s.stkState = 2 && s.isMaster && decide (t ≤ s.time) then
      let p := s.ownParams
      .next (((if p.2 then s.orReg R.STK_EVT 0x20 else s).setEff p.1).doCatch t 0)
    else .next s
  | none => .next s

/-- A phase entry other than the catch: in SYNC it is missed; else, from the phase before and once its instant has come, its
gates open (R65). -/
def State.phaseEntry (s : State) (ph due : Nat) (f : State → State) : State :=
  match s.stkState with
  | 0 => s
  | 1 => s.missed
  | _ =>
    if s.stroke.first.isSome || s.stkPhase + 1 != ph || decide (s.time < due) then s
    else f ((s.setFld R.STK_STAT 4 2 ph).eachCrew (fun t c => t.gateEventAll c (64 + ph)))

/-- DRIVE_ENTRY. -/
def execDriveEntry (s : State) : Outcome State Fault Refusal := .next (s.phaseEntry 1 s.driveTime id)

/-- RECOVERY_ENTRY: recovery gates open, current reports are stamped, and governor outputs take effect (R92, R93). -/
def execRecoveryEntry (s : State) : Outcome State Fault Refusal :=
  .next (s.phaseEntry 3 s.recoveryTime (fun t => (t.eachCrew (fun u c => u.strokeIrq c 2)).recoveryPower))

/-! ## Overrun (R95–R98) -/

/-- Stroke-bounded work of stroke k or earlier. -/
def lateAt (k : Nat) (sb late : Bool) (stroke : Option Nat) : Bool :=
  sb && (late || (stroke.map (fun n => decide (n ≤ k))).getD false)

/-- The crew's overrunning tasks and records are late from now on. -/
def State.markLate (s : State) (c k : Nat) : State :=
  let s1 := (crewSeats (crewOf c)).foldl (fun t id =>
    t.setCore id { t.core id with task := (t.core id).task.map (fun x => { x with late := lateAt k (recSb x.words) x.late x.stroke }) }) s
  let q := s1.schedOf c
  s1.setSched c { q with heads := q.heads.map (fun p => (p.1, { p.2 with late := lateAt k (recSb p.2.words) p.2.late p.2.stroke })) }

/-- HALT: dispatch stops, late seats stop at their next boundary, engines halt after their descriptors. -/
def State.haltCrew (s : State) (c : Nat) : State :=
  let s1 := (crewSeats (crewOf c)).foldl (fun t id =>
    let k := t.core id
    if k.mode == .running && (k.task.map Task.late).getD false && !k.stopReq then t.setCore id { k with stopReq := true, halted := true } else t) s
  let s2 := { s1 with noDispatch := s1.noDispatch ||| BitVec.ofNat 96 (2 ^ c) }.orReg (R.COX_STROKE_STAT c) 0x0100
  (List.range 4).foldl (fun t n => t.dmaStrokeHalt c n) s2

/-- The overrun test of a crew at a finish instant, and its policy. -/
def State.overrun (s : State) (c : Nat) : State :=
  let s1 := s.markLate c s.stkCount
  if s1.lateWork c then
    let s2 := ((s1.orReg (R.COX_STROKE_STAT c) 0x0201).addSat (R.COX_OVR_COUNT c) 1).strokeIrq c 3
    match s2.fld (R.COX_STROKE_CTRL c) 0 2 with
    | 1 =>
      if s2.stkState != 2 || s2.effParams.hold == 0 then s2.orReg (R.COX_STROKE_STAT c) 4
      else { s2 with holding := s2.holding ||| BitVec.ofNat 96 (2 ^ c) }
    | 2 => s2.haltCrew c
    | _ => s2
  else s1

/-- The hold, once seen before the catch, defers it: HELD (R98). -/
def State.seeHold (s : State) : State :=
  if s.stkState == 2 && s.holdRaised && s.effParams.hold != 0 then s.orReg R.STK_STAT 0x0040 else s

/-- FINISH_INSTANT. -/
def execFinishInstant (s : State) : Outcome State Fault Refusal :=
  .next (s.phaseEntry 2 s.finishTime (fun t => (t.eachCrew (fun u c => (u.strokeIrq c 1).overrun c)).seeHold))

/-- The hold limit has been announced: HOLDEXP here and in the crews still holding, which carry on as under SLIP. -/
def State.holdExpire (s : State) : State :=
  let s1 := (s.orReg R.STK_EVT 0x10).eachCrew (fun t c => if s.holding.getLsbD c then t.orReg (R.COX_STROKE_STAT c) 2 else t)
  { s1 with holding := 0 }

/-- HOLD_LIMIT: the hold has not cleared 3 µs before the limit, and the master announces the limit (R98). -/
def execHoldLimit (s : State) : Outcome State Fault Refusal :=
  if s.held && s.isMaster && s.stkState == 2 && s.stroke.announce.isNone && decide (s.holdLimit ≤ s.time + 3000) then
    .next { s.holdExpire with stroke := { s.stroke with announce := some s.holdLimit } }
  else .next s

/-- A pulse of COX_STROKE_CTRL.RESUME (R98). -/
def State.strokeResume (s : State) (c : Nat) : State :=
  if s.bit (R.COX_STROKE_STAT c) 8 then
    (List.range 8).foldl (fun t n =>
      let id : CoreId := .seat (crewOf c) (seatOf n)
      let k := t.core id
      if !k.halted then t
      else if k.mode == .stopped then t.seatResume c n
      else if k.mode == .running then t.setCore id { k with stopReq := false, halted := false, stopping := none }
      else t) (s.clrReg (R.COX_STROKE_STAT c) 0x0100)
  else s

/-- STROKE_RESUME. -/
def execStrokeResume (crew : Fin 96) (s : State) : Outcome State Fault Refusal :=
  .next (if s.crewUp crew.val then s.strokeResume crew.val else s)

/-! ## Time messages (R75–R77, R87–R91, R309) -/

/-- This device's offset from the time a message gives, the link's delay added (R77), in ns. -/
def State.offsetFrom (s : State) (p : Nat) (m : SyncMsg) : Int :=
  (s.time : Int) - ((m.txtime + (s.reg (R.GW_RTT p)).toNat) / 8 : Nat)

/-- STK_OFFSET: two's complement, saturating. -/
def State.setOffset (s : State) (d : Int) : State :=
  s.setReg R.STK_OFFSET (BitVec.ofInt 16 (max (-32767) (min 32767 d)))

/-- The master's generation of a group as a downstream slot gives it: of a SYS group enabled here it completes the current one,
or is taken as it is by a device that has yet to take one (R274, R277, R286); of one that is not enabled here it is kept to be
passed on. -/
def State.followGroup (s : State) (g gen : Nat) : State :=
  let ahead := (gen + 256 - s.cgGen g) % 256
  if s.cgEn g && !(s.cgSys g) then s
  else if !(s.cgEn g) || s.stroke.fresh.getLsbD g then s.setFld (R.SYN_CGSTAT g) 0 8 gen
  else if 0 < ahead ∧ ahead < 128 then (s.cgComplete g).setFld (R.SYN_CGSTAT g) 0 8 gen
  else s

/-- The master's value of a call as a downstream slot gives it (R279, R281). -/
def State.followCall (s : State) (n : Nat) (v : Bool) : State :=
  if s.callEn n && s.callSys n && s.callVal n != v then s.callPut n v else s

/-- The stroke content of a message from the upstream port of a device in RUN (R75, R98, R274, R281, R286). An announcement of
the hold's limit says that the hold has expired. (log entry 28, DEDUCED) -/
def State.followMsg (s : State) (m : SyncMsg) : State :=
  let s1 := s.setPend (if m.pendValid then some (m.pend, m.pendFrom) else none)
  let s2 := if m.stroke = s1.stkCount then s1.setEff m.eff else s1
  -- a deferred catch that this device has already released (R98)
  if m.announce != 0 && s2.stkCount == m.stroke + 1 then s2.rejoin
  else
    let s3 := if m.hold && s2.stkCount == m.stroke && s2.effParams.hold != 0 then s2.orReg R.STK_STAT 0x0040 else s2
    let s4 := if m.announce != 0 && s3.stroke.announce.isNone && s3.stkCount == m.stroke then
        let t := { s3.orReg R.STK_STAT 0x0040 with stroke := { s3.stroke with announce := some m.announce } }
        if m.announce == s3.holdLimit then t.holdExpire else t
      else s3
    let s5 := (List.range 64).foldl (fun t g => t.followGroup g (m.cgGen.getD g 0)) s4
    let s6 := { s5 with stroke := { s5.stroke with fresh := 0, sysCalls := BitVec.ofNat 256 m.callVal } }
    (List.range 256).foldl (fun t n => t.followCall n (m.callVal.testBit n)) s6

/-- The device follows the sender's master; a handover to it, if one was pending, is done. -/
def State.adopt (s : State) (m : SyncMsg) : State :=
  let s1 := (s.setMaster m.master true).setBit R.STK_STAT 3 false
  { s1 with stroke := { s1.stroke with pinned := m.pinned, winner := none, old := none
                                       retired := if s.stroke.winner = some m.master then s.following else none } }.chooseUpstream

/-- System time corrected to a master's (R77): slewed by 1 µs or less; beyond, SKEW, SYNC, and a step. (log entry 29, DEDUCED) -/
def State.correct (s : State) (p : Nat) (m : SyncMsg) : State :=
  let d := s.offsetFrom p m
  let s1 := s.setOffset d
  if 1000 < d.natAbs then
    let t := s1.orReg R.STK_EVT 8
    let u := if s.stkState = 1 then t else t.rejoin
    { u with time := (((s.time : Int) - d).toNat + 5) / 10 * 10, stroke := { u.stroke with slew := 0 } }
  else { s1 with stroke := { s1.stroke with slew := -d } }

/-- The master has been heard now. -/
def State.noteHeard (s : State) : State := { s with stroke := { s.stroke with mark := s.time } }

/-- The master's stroke count and schedule prevail on a device that leaves HOLDOVER (R87); a catch that one side has passed and
the other is about to is no difference. -/
def State.takeSchedule (s : State) (m : SyncMsg) : State :=
  let k := s.stkCount
  let P := 10 * m.eff.period
  let (n, t) :=
    if m.stroke = k + 1 then (k, m.catchTime - P) else if m.stroke + 1 = k then (k, m.catchTime + P) else (m.stroke, m.catchTime)
  (s.setReg64 (R.STK_COUNT 0) (BitVec.ofNat 64 n)).setReg64 (R.STK_CATCHTIME 0) (BitVec.ofNat 64 t)

/-- The device locks to a master it has begun to follow (R87, R91): from HOLDOVER into RUN, unless its offset is above 1 µs. -/
def State.lock (s : State) (p : Nat) (m : SyncMsg) : State :=
  let s1 := ((s.adopt m).correct p m).setEff m.eff
  (if s1.stkState = 3 then (s1.setStk 2).takeSchedule m else s1).noteHeard

/-- A time message as a device that is not OFF hears it: it follows a master, locks to one, or meets a second one (R85,
R87–R91). -/
def State.hearTime (s : State) (p : Nat) (m : SyncMsg) : State :=
  if s.stroke.retired = some m.master then s
  else
    match s.following with
    | none => s.lock p m
    | some id =>
      if m.master = id then
        let s0 := s.chooseUpstream
        if s0.isMaster then s0
        else
          let s1 : State := { s0.noteHeard with stroke := { s0.noteHeard.stroke with pinned := m.pinned } }
          if s1.stroke.upstream = some p then
            let s2 := s1.correct p m
            (if s2.stkState = 2 && s1.stkState = 2 then s2.followMsg m else s2.setEff m.eff).noteHeard
          else s1
      else if s.stroke.winner = some m.master && s.stkState != 4 then ((s.adopt m).correct p m).noteHeard
      else if prevails (m.master, m.pinned) (id, s.stroke.pinned) then (s.orReg R.STK_EVT 0x100).rejoin.lock p m
      else s.orReg R.STK_EVT 0x100

/-- The election content of a message (R314). A candidate that is this device stands only while this device is one (R81). (log entry 29, DEDUCED) -/
def State.hearElection (s : State) (p : Nat) (m : SyncMsg) : State :=
  let newer := let d := (m.electGen + 256 - s.stroke.gen) % 256; decide (0 < d) && decide (d < 128)
  let s1 := if m.electing && newer then s.startElection m.electGen else s
  let theirs := (m.cand, m.candPin)
  let counts := m.electGen == s1.stroke.gen && (m.cand != s1.devId || s1.self == some theirs)
  let s2 := if s1.stroke.electing && counts then
      match s1.stroke.cand with
      | none => s1.setCand (some theirs)
      | some mine => if prevails theirs mine then s1.setCand (some theirs) else s1
    else s1
  if s2.stroke.electing then
    let x := s2.port p
    (s2.setPort p { x with candRx := if s2.stroke.cand == some theirs && m.electGen == s2.stroke.gen then x.candRx + 1 else 0 }).electionCheck
  else s2

/-- What a partner below this device asks: the hold it requests, and its contributions (R98, R274, R284). (log entry 27, DEDUCED) -/
def State.hearBelow (s : State) (old : Option SyncMsg) (m : SyncMsg) : State :=
  let s1 := s.seeHold.holdSettle
  let again := fun g => (old.map (fun o => o.up && o.cgArr.testBit g && o.cgGen.getD g 0 == m.cgGen.getD g 0)).getD false
  let stale := (List.range 64).any (fun g =>
    let behind := (s1.cgGen g + 256 - m.cgGen.getD g 0) % 256
    !(s1.cgEn g && !(s1.cgSys g)) && m.cgArr.testBit g && decide (0 < behind) && decide (behind < 128) && !(again g))
  if s1.isMaster && stale then s1.orReg R.SYN_ERR 4 else s1

/-- The device can take a call event from below (R311): as master, with room on the way up, or, following no master, to discard
it. -/
def State.takesCallEvent (s : State) : Bool :=
  s.isMaster || s.following.isNone ||
    (match s.stroke.upstream with
     | some p => decide ((s.port p).evOut.length + s.stroke.evHeld.length < 128)
     | none => false)

/-- A call event reaches this device from below (R311): the master applies it once; another device passes it on. -/
def State.hearEvent (s : State) (e : CallEvent) : State :=
  if s.isMaster then s.applyEvent e else if s.following.isNone then s.addSat R.GW_CALLDISC 1 else s.pushEvent e

/-- The events of a message from a partner below, in sequence, repeats dropped; one for which there is no room is not accepted,
and comes again. (log entry 28, DEDUCED) -/
def State.hearEvents (s : State) (p n : Nat) : List CallEvent → State
  | [] => s
  | e :: es =>
    let x := s.port p
    if n % 256 = (x.evIn + 1) % 256 && s.takesCallEvent then ((s.setPort p { x with evIn := n % 256 }).hearEvent e).hearEvents p (n + 1) es
    else s.hearEvents p (n + 1) es

/-- EVACK: the events that the partner has accepted leave the queue, and waiting events and stalled call operations find room. -/
def State.ackEvents (s : State) (p ack : Nat) : State :=
  let x := s.port p
  let k := (ack + 257 - x.evBase) % 256
  if 0 < k ∧ k ≤ x.evOut.length then
    let s1 : State := s.setPort p { x with evOut := x.evOut.drop k, evBase := (x.evBase + k) % 256 }
    (if s.stroke.upstream = some p then s1.refillEvents p else s1).callRetry
  else s

/-- A SYNC flit's content, as the stroke and the sync network take it. -/
def State.hearSync (s : State) (p : Nat) (m : SyncMsg) : State :=
  let old := (s.port p).heard
  let s1 := (s.setPort p { s.port p with heard := some m }).ackEvents p m.evAck
  let s2 := if m.up then (s1.hearEvents p m.evFirst m.events).hearBelow old m else s1
  if s2.stkState = 0 then s2
  else
    let s3 := if m.mvalid && !m.up then s2.hearTime p m else s2
    s3.hearElection p m

/-! ## What this device sends (R75, R309, R314) -/

/-- The content of a SYNC flit sent by a port. -/
def State.syncOut (s : State) (p : Nat) : SyncMsg :=
  let x := s.port p
  let up := s.stroke.upstream == some p
  let on := decide (1 ≤ s.stkState)
  let down := on && !up
  let time := s.time * 8
  let zero : StkParams := ⟨0, 0, 0, 0, false⟩
  { txtime := time, echo := (x.echo.map Prod.fst).getD 0, turn := (x.echo.map (fun e => time - e.2 * 8)).getD 0
    stroke := if down && s.stroke.first.isNone then s.stkCount else 0
    catchTime := if down then s.stroke.first.getD s.catchTime else 0
    eff := if !down then zero else if s.stroke.first.isSome then s.ownParams.1 else s.effParams
    pend := if down then (s.stroke.pend.map Prod.fst).getD zero else zero
    pendFrom := if down then (s.stroke.pend.map Prod.snd).getD 0 else 0
    announce := if down then s.stroke.announce.getD 0 else 0
    master := s.following.getD (s.fld R.STK_MASTER 0 8), electGen := s.stroke.gen, up := up
    mvalid := on && s.following.isSome
    pinned := s.stroke.pinned, hold := on && (if up then s.holdRaised else s.held)
    pendValid := down && s.stroke.pend.isSome, holdover := s.stkState == 3 || s.stkState == 4, hops := s.hops
    cand := (s.stroke.cand.map Prod.fst).getD 255, candPin := (s.stroke.cand.map Prod.snd).getD false, electing := s.stroke.electing
    cgArr := if up && s.runsPhases then
        (List.range 64).foldl (fun a g => a + flag' (s.contributes g && !(s.stroke.fresh.getLsbD g)) g) 0 else 0
    cgGen := (List.range 64).map (fun g => s.cgGen g)
    callVal := if down then s.stroke.sysCalls.toNat else 0
    evAck := x.evIn, evFirst := if up then x.evBase else 0, events := if up then x.evOut.take 14 else [] }
where
  /-- A flag as a bit. -/
  flag' (b : Bool) (n : Nat) : Nat := if b then 2 ^ n else 0

end Sys2Proof.Machine
end

