-- ==== Sys2Proof/Machine/Route.lean ====
section
/-! DEFINITION. Routing (spec/10 R318–R323): the table, its default content, and how a transport packet leaves this device. -/
namespace Sys2Proof.Machine
open Host

/-- The flow of a packet: source device, source queue and lane. -/
def Tpkt.flow (p : Tpkt) : Nat := p.src + p.sq + p.lane

/-- A packet is placed in the queue of a port. -/
def State.enqueue (s : State) (p : Nat) (q : TQueued) : State :=
  let x := s.port p
  let c := q.pkt.channel
  s.setPort p { x with queues := x.queues.set c (x.queues.get c ++ [q]) }

/-- The type of the mesh packet that carries a transport packet (R254). -/
def TType.mesh (t : TType) : PktKind :=
  match t with | .write => .write | .read => .read | .hail => .hail | .rdata => .readData | .ack => .writeAck | .nak => .error

/-- The channel of the mesh it crosses on. -/
def TType.meshVc (t : TType) : Nat := if t.request then 0 else 1

/-- A transport packet crosses the mesh to the router of a port (R256, R319). -/
def State.toPort (s : State) (src : MeshReq) (p : Nat) (q : TQueued) : State :=
  s.inject src.router src.input q.pkt.ptype.meshVc
    { kind := q.pkt.ptype.mesh, dst := portCrew p, exit := .port, src := src.router, req := src, prio := s.meshPrio src, born := s.time
      addr := q.pkt.offset.toNat, len := max 1 (min 512 (12 + q.pkt.data.length)), lane := q.pkt.lane, tag := q.pkt.tag.toNat % 256
      poison := false, cause := .none, words := [], load := some { q with flits := 0 } }

/-- A packet leaves by the port its entry selects, or is discarded where there is none (R319, R320). One with no hop left is
discarded and counted where it came from. -/
def State.sendOut (s : State) (src : MeshReq) (q : TQueued) : State :=
  if q.pkt.hops = 0 then
    (match q.ingress with | some p => s.addSat (R.GW_HOPDROP p) 1 | none => s.addSat R.GW_NOROUTE 1)
  else
    match s.routePort q.pkt.dst q.pkt.flow with
    | none => (s.addSat R.GW_NOROUTE 1).orReg R.GW_FEVT 1
    | some p =>
      let w := s.rtWord q.pkt.dst
      let s1 := match rtPrimary w with
        | some pp => if !(s.portActive pp) then s.orReg (R.GW_EVT pp) 0x40 else s
        | none => s
      s1.toPort src p q

/-- A transport packet has crossed the mesh to a port: it joins the port's queue; where the port has gone down meanwhile it is routed
again (R304). -/
def State.atPort (s : State) (p : Nat) (q : TQueued) : State := if s.portActive p then s.enqueue p q else s.sendOut (.port p) q

/-- The mesh flits of the packets that wait in a port's queues, of a class. -/
def State.egressFlits (s : State) (p vc : Nat) : Nat :=
  (((s.port p).queues.toList.zipIdx.filter (fun x => x.2 / 3 == vc)).map (fun x =>
    (x.1.map (fun q => (12 + q.pkt.data.length + 127) / 128)).sum)).sum

/-- A packet of this device's own remote-access logic goes on its way: to itself without a port (R327), or out. -/
def State.sendPacket (s : State) (src : MeshReq) (k : Tpkt) : State :=
  let q : TQueued := ⟨k, s.time, none, 0, 0⟩
  if k.dst = s.devId then { s with ownIn := s.ownIn ++ [q] } else s.sendOut src q

/-- A write of a routing entry (R323). -/
def State.rtWrite (s : State) (d : Nat) (v : Word) : State := s.setReg (R.RT_W0 d) (v &&& 0x1FFF)

/-- ROUTING_ENTRY_WRITE. -/
def execRoutingEntryWrite (d : Fin 256) (v : Word) (s : State) : Outcome State Fault Refusal :=
  .next (if s.gwAny then s.rtWrite d.val v else s)

/-- A write of GW_DEVID or GW_SYSID: while every port is DISABLED, DOWN or TEST (R308). -/
def State.idWrite (s : State) (a : Nat) (v mask : Word) : State :=
  if (List.range 32).all (fun p => s.portState p == 0 || s.portState p == 7 || s.portState p == 8) then s.setReg a (v &&& mask)
  else s.orReg R.GW_FEVT 2

/-- DEVID_WRITE. -/
def execDevidWrite (sysid : Bool) (v : Word) (s : State) : Outcome State Fault Refusal :=
  .next (if !s.gwAny then s else if sysid then s.idWrite R.GW_SYSID v 0xFFFF else s.idWrite R.GW_DEVID v 0x80FF)

/-! ## The default table (R322) -/

/-- The port to member m2 of the own group. -/
def intraPort (own m2 : Nat) : Nat := (m2 + 16 - own % 16 - 1 + 16) % 16

/-- The port to the own member of group g2. -/
def interPort (own g2 : Nat) : Nat := 15 + (g2 + 16 - own / 16 - 1 + 16) % 16

/-- Of the numbers after n, modulo 16, the first that passes. -/
def firstAfter (n : Nat) (ok : Nat → Bool) : Option Nat := ((List.range 15).map (fun i => (n + 1 + i) % 16)).find? ok

/-- Word 0 of the default entry of a destination. -/
def State.defaultEntry (s : State) (d : Nat) : Word :=
  let own := s.devId
  let g := own / 16
  let m := own % 16
  let g2 := d / 16
  let m2 := d % 16
  let put := fun (p : Nat) (a : Option Nat) =>
    BitVec.ofNat 16 (p + 32 + match a with | some x => x * 64 + 2048 | none => 0)
  if d = own then 0
  else if g2 = g then
    put (intraPort own m2) ((firstAfter m2 (fun x => x != m && x != m2 && s.portActive (intraPort own x))).map (intraPort own))
  else if m2 = m then
    put (interPort own g2)
      (match firstAfter g2 (fun h => h != g && h != g2 && s.portActive (interPort own h)) with
       | some h => some (interPort own h)
       | none => (firstAfter m (fun x => x != m && s.portActive (intraPort own x))).map (intraPort own))
  else put (interPort own g2) (some (intraPort own m2))

/-- ROUTING_TABLE_BUILD: boathouse firmware writes the default table. -/
def execRoutingTableBuild (s : State) : Outcome State Fault Refusal :=
  .next (if s.gwAny then (List.range 256).foldl (fun t d => t.rtWrite d (s.defaultEntry d)) s else s)

end Sys2Proof.Machine
end

