-- ==== Sys2Proof/Machine/Link.lean ====
section
/-! DEFINITION. Gweni links (spec/10): flits in and out, retry, degrade, port down, training and identity. -/
namespace Sys2Proof.Machine
open Host

/-! ## States of a port -/

/-- WIDTH of a port: 0 none, 1 lanes 0–3, 2 lanes 4–7, 3 all. -/
def State.portWidth (s : State) (p : Nat) : Nat := s.fld (R.GW_STAT p) 4 2

/-- STATE set. -/
def State.setPortState (s : State) (p v : Nat) : State := s.setFld (R.GW_STAT p) 0 4 v

/-- WIDTH set. -/
def State.setWidth (s : State) (p v : Nat) : State := s.setFld (R.GW_STAT p) 4 2 v

/-- The link is up: it exchanges flits. -/
def State.linkUp (s : State) (p : Nat) : Bool :=
  s.gwUp p && (s.portState p == 4 || s.portState p == 5 || s.portState p == 6 || s.portState p == 9)

/-- A CTRL payload waits to be sent. -/
def State.pushCtrl (s : State) (p : Nat) (ws : List Word) : State :=
  s.setPort p { s.port p with ctrl := (s.port p).ctrl ++ [ws] }

/-- What this port says of itself (R306). -/
def State.ident (s : State) (p : Nat) : Ident where
  id := BitVec.ofNat 8 s.devId
  port := ⟨p % 32, Nat.mod_lt _ (by decide)⟩
  sysid := s.reg R.GW_SYSID
  feat0 := featWord 0
  locked := BitVec.ofNat 8 (s.fld (R.GW_STAT p) 6 8)
  strict := s.bit (R.GW_CTRL p) 2
  deg4 := s.bit (R.GW_CTRL p) 3
  cause := if s.portState p == 6 then ⟨s.fld (R.GW_CAUSE p) 0 4 % 16, Nat.mod_lt _ (by decide)⟩ else 0

/-! ## Port down (R303, R304) -/

/-- Packets waiting in a port's queues. -/
def Port.queued (x : Port) : List TQueued := x.queues.toList.flatten

/-- Packets lost with a port's replay buffer: those that end in it, and those begun and not ended. -/
def Port.lost (x : Port) : Nat := (x.replay.map TxFlit.ends).sum + (x.rest.toList.filter (fun r => !r.isEmpty)).length

/-- The port leaves its link, whatever its state becomes: packets not yet in flits are routed again, the rest is lost, call
events move with the upstream. -/
def State.dropLink (s : State) (p st : Nat) : State :=
  let x := s.port p
  let y : Port := { Port.empty with inbox := x.inbox.map (fun q => { q with flits := 0 }), evOut := x.evOut, evBase := x.evBase
                                    lastNbr := x.lastNbr, last := x.last, redo := x.redo }
  let s1 := ((s.setReg (R.GW_STAT p) (insertField (s.reg (R.GW_STAT p) &&& 0x8000) 0 4 st)).addSat (R.GW_LOST p) x.lost).setPort p y
  x.queued.foldl (fun t q => t.sendOut (.port p) q) s1.chooseUpstream.aloneWins

/-- The SEQ of the next DATA flit (R294): of a flit to be sent again, or the next new one. -/
def Port.nextSeq (x : Port) : Nat :=
  if x.resend = 0 then x.txNext else ((x.replay[x.replay.length - x.resend]?).map TxFlit.seq).getD x.txNext

/-- A header of this port's next flit. -/
def Port.header (x : Port) (seq fvc pstart : Nat) : FlitHdr where
  seq := BitVec.ofNat 12 seq
  ack := BitVec.ofNat 12 ((x.rxNext + 4095) % 4096)
  nak := x.nak
  fvc := ⟨fvc % 8, Nat.mod_lt _ (by decide)⟩
  cvc := ⟨x.cvc % 8, Nat.mod_lt _ (by decide)⟩
  crdcum := BitVec.ofNat 8 (x.freed.get ⟨x.cvc % 6, Nat.mod_lt _ (by decide)⟩)
  pstart := BitVec.ofNat 7 pstart

/-- A flit goes out: NAK has been said, the next channel's credits come next. -/
def Port.send (x : Port) (t : FType) (seq fvc pstart : Nat) (ws : List Word) : Port :=
  let h := x.header seq fvc pstart
  { x with last := some (t, ⟨h, padTo 123 ws, flitCrc t h ws, false, [], []⟩), nak := false, cvc := (x.cvc + 1) % 6, pos := x.pos + 1 }

/-- The port goes down with a cause, and, where it still exchanges flits, sends a CTRL DOWN (R303). -/
def State.portDown (s : State) (p cause : Nat) : State :=
  let up := s.linkUp p
  let x := s.port p
  let last := if up then (x.send .ctrl x.nextSeq 0 127 (ctrlWords 4 cause)).last else x.last
  let s1 := (s.orReg (R.GW_EVT p) 2).setReg (R.GW_CAUSE p) (BitVec.ofNat 16 cause)
  let s2 := s1.dropLink p 7
  s2.setPort p { s2.port p with last := last }

/-! ## Degrade (R302) -/

/-- Both sides of a degrade: the port moves to a half, and no DATA flows until it is done. -/
def State.startDegrade (s : State) (p : Nat) (upper asked : Bool) : State :=
  let s1 := ((s.orReg (R.GW_EVT p) 4).setPortState p 9).setWidth p (if upper then 2 else 1)
  let x := s1.port p
  (s1.setPort p { x with degrade := some (upper, s.time, asked), episode := none, nak := false, epLow := (0, 0), epHigh := (0, 0)
                         ctrl := x.ctrl ++ [ctrlWords (if asked then 2 else 3) (if upper then 1 else 0)] }).setBit (R.GW_STAT p) 14 false

/-- The degrade is done: flits flow again, from the partner's last ACK. -/
def State.endDegrade (s : State) (p : Nat) : State :=
  let x := s.port p
  (s.setPortState p 5).setPort p { x with degrade := none, resend := x.replay.length }

/-- A degrade, or the port goes down where it is not allowed. -/
def State.degradeOrDown (s : State) (p : Nat) (upper : Bool) : State :=
  if s.portWidth p = 3 && s.bit (R.GW_CTRL p) 3 then s.startDegrade p upper true else s.portDown p 6

/-- The half of the lanes that a degrade keeps is 4–7: it had fewer uncorrectable codewords, or as many and fewer corrected symbols,
than lanes 0–3 (R302); between equal halves the rules leave the choice, `tie`. (log entry 37, DESIGN CHOICE) -/
def Port.upperBetter (x : Port) (tie : Bool) : Bool :=
  if x.epHigh = x.epLow then tie else decide (x.epHigh.1 < x.epLow.1) || (x.epHigh.1 == x.epLow.1 && decide (x.epHigh.2 < x.epLow.2))

/-- The retry budget is used up (R301): a ninth NAK would be needed, or 2 µs have passed since the first. -/
def State.exhaust (s : State) (p : Nat) (tie : Bool) : State := (s.orReg (R.GW_EVT p) 0x20).degradeOrDown p ((s.port p).upperBetter tie)

/-- RETRY_EXHAUSTION: 2 µs have passed since the first NAK of an episode, or its eighth NAK has brought nothing (R301). `upper` is
the half that the receiver takes of two equal ones. -/
def execRetryExhaustion (p : Fin 32) (upper : Bool) (s : State) : Outcome State Fault Refusal :=
  .next (match (s.port p.val).episode with
    | some (t, n) => if s.gwUp p.val && s.portActive p.val && (decide (8 ≤ n) || decide (t + 2000 ≤ s.time)) then s.exhaust p.val upper else s
    | none => s)

/-- DEGRADE_TIMEOUT: no DEGRADE_ACK within 8 µs. -/
def execDegradeTimeout (p : Fin 32) (s : State) : Outcome State Fault Refusal :=
  match (s.port p.val).degrade with
  | some (_, _, true) => if s.gwUp p.val && s.portState p.val == 9 then .next (s.portDown p.val 6) else .next s
  | _ => .next s

/-- DEGRADE_REPEAT: DEGRADE, or DEGRADE_ACK, is sent again. -/
def execDegradeRepeat (p : Fin 32) (s : State) : Outcome State Fault Refusal :=
  match (s.port p.val).degrade with
  | some (u, _, asked) =>
    if s.gwUp p.val && s.portState p.val == 9 then .next (s.pushCtrl p.val (ctrlWords (if asked then 2 else 3) (if u then 1 else 0))) else .next s
  | none => .next s

/-- LOS: light lost on lanes (R302, R303). -/
def execLos (p : Fin 32) (lanes : BitVec 8) (s : State) : Outcome State Fault Refusal :=
  let w := s.portWidth p.val
  let low := lanes &&& 0x0F != 0 && w != 2
  let high := lanes &&& 0xF0 != 0 && w != 1
  if !(s.linkUp p.val) || !(low || high) then .next s
  else
    let s1 := s.orReg (R.GW_EVT p.val) 0x80
    if w != 3 || (low && high) then .next (s1.portDown p.val 5)
    else if s.portActive p.val then .next (s1.degradeOrDown p.val low)
    else .next (s1.portDown p.val 5)

/-! ## Headers, retry and credits (R294–R301) -/

/-- The receiver sees a gap: the first of an episode sets NAK in the next flit out. -/
def State.seeGap (s : State) (p : Nat) : State :=
  let x := s.port p
  if x.episode.isSome then s
  else ((s.setPort p { x with episode := some (s.time, 1), nak := true, epLow := (0, 0), epHigh := (0, 0) }).addSat (R.GW_REPLAY p) 1).setBit (R.GW_STAT p) 14 true

/-- Sums of corrected symbols on partner lanes. -/
def lanesSum (fixed : List Nat) (lo : Nat) : Nat := ((fixed.drop lo).take 4).sum

/-- What the FEC found with a flit (R289, R302): counted by lane and by port, and in a retry episode by half. -/
def State.noteFec (s : State) (p : Nat) (f : Flit) : State :=
  let s1 := (f.fixed.zipIdx.take 8).foldl (fun (t : State) x => if x.1 = 0 then t else t.addSat (R.GW_LANECE p x.2) x.1) s
  let s2 := if f.unc.isEmpty then s1 else s1.addSat (R.GW_FECUNC p) f.unc.length
  let x := s2.port p
  if x.episode.isSome then
    s2.setPort p { x with epLow := (x.epLow.1 + (f.unc.filter Prod.fst).length, x.epLow.2 + lanesSum f.fixed 0)
                          epHigh := (x.epHigh.1 + (f.unc.filter Prod.snd).length, x.epHigh.2 + lanesSum f.fixed 4) }
  else s2

/-- A flit that fails (R295, R296, R299) is counted and treated as a gap. -/
def State.badFlit (s : State) (p : Nat) : State :=
  let s1 := s.addSat (R.GW_CRCERR p) 1
  if s.portActive p then s1.seeGap p else s1

/-- A CTRL flit that names a reserved channel fails as if by its CRC (R296). -/
def ctrlOk (h : FlitHdr) : Bool := decide (h.fvc.val < 6) && decide (h.cvc.val < 6)

/-- How far SEQ a lies ahead of b. -/
def seqAhead (a b : Nat) : Nat := (a + 4096 - b % 4096) % 4096

/-- What every good flit's header tells (R294, R296, R300): ACK frees replay entries, NAK asks for the rest again, CRDCUM
gives credit. A flit on the four lanes ends a degrade that this side was asked for. (log entry 36, DEDUCED) -/
def State.takeHeader (s : State) (p : Nat) (h : FlitHdr) (data : Bool) : State :=
  let s0 := match (s.port p).degrade with
    | some (_, _, false) => s.endDegrade p
    | _ => s
  let x := s0.port p
  let keep := x.replay.filter (fun f => decide (0 < seqAhead f.seq h.ack.toNat) && decide (seqAhead f.seq h.ack.toNat ≤ 2048))
  let v : Fin 6 := ⟨h.cvc.val % 6, Nat.mod_lt _ (by decide)⟩
  let y := { x with replay := keep, resend := if h.nak then keep.length else min x.resend keep.length
                    credit := x.credit.set v h.crdcum.toNat }
  let s1 := s0.setPort p y
  let ahead := seqAhead h.seq.toNat y.rxNext
  if !data && decide (0 < ahead) && decide (ahead ≤ 2048) then s1.seeGap p else s1

/-- Flits of a channel of a port are freed. -/
def State.freeFlits (s : State) (p : Nat) (c : Fin 6) (n : Nat) : State :=
  let x := s.port p
  s.setPort p { x with freed := x.freed.set c ((x.freed.get c + n) % 256) }

/-- The packets that a flit completes join the inbox; a malformed one is dropped and counted (R333). The flit's buffer goes
with the last packet in it, or is free at once. (log entry 36, DEDUCED) -/
def State.takePackets (s : State) (p : Nat) (c : Fin 6) (held : Nat) (more : Bool) : List (Option Tpkt) → State
  | [] => s
  | k :: ks =>
    let n := held + if ks.isEmpty && !more then 1 else 0
    let s1 := match k with
      | none => (s.addSat R.RMA_BADPKT 1).freeFlits p c n
      | some t => s.setPort p { s.port p with inbox := (s.port p).inbox ++ [(⟨t, s.time, some p, c.val, n⟩ : TQueued)] }
    s1.takePackets p c 0 more ks

/-- The payload of an accepted DATA flit joins the stream of its channel (R298). -/
def State.takePayload (s : State) (p : Nat) (c : Fin 6) (ws : List Word) : State :=
  let x := s.port p
  let r := x.rxRest.get c
  let parsed := parsePackets 64 (r.1 ++ padTo 123 ws)
  let more := !parsed.2.isEmpty
  let held := if parsed.1.isEmpty && more then r.2 + 1 else if more then 1 else 0
  let s1 := s.setPort p { x with rxRest := x.rxRest.set c (parsed.2, held) }
  let s2 := s1.takePackets p c r.2 more parsed.1
  if parsed.1.isEmpty && !more then s2.freeFlits p c (r.2 + 1) else s2

/-- DATA_FLIT: accepted in sequence, a duplicate, or a gap (R299). -/
def execDataFlit (p : Fin 32) (f : Flit) (s : State) : Outcome State Fault Refusal :=
  if !(s.linkUp p.val) then .next s
  else if !(flitOk .data f) then .next ((s.noteFec p.val f).badFlit p.val)
  else
    let s1 := (s.noteFec p.val f).takeHeader p.val f.hdr true
    let x := s1.port p.val
    let ahead := seqAhead f.hdr.seq.toNat x.rxNext
    if s1.portState p.val != 5 then .next s1
    else if ahead = 0 then
      let y := { x with rxNext := (x.rxNext + 1) % 4096, episode := none, nak := false, epLow := (0, 0), epHigh := (0, 0) }
      .next (((s1.setPort p.val y).setBit (R.GW_STAT p.val) 14 false).takePayload p.val ⟨f.hdr.fvc.val % 6, Nat.mod_lt _ (by decide)⟩ f.payload)
    else if ahead < 2048 then .next (s1.seeGap p.val)
    else .next s1

/-- The port checks PRBS31Q (R289): it is in TEST with CHK set. -/
def State.checksPrbs (s : State) (p : Nat) : Bool := s.gwUp p && s.portState p == 8 && s.bit (R.GW_TEST p) 1

/-- IDLE_FLIT: its header counts, and nothing else. In TEST with CHK what comes is a stretch of the test pattern, and `fixed` its bit
errors on lanes 0–7 (R289). (log entry 37, DESIGN CHOICE) -/
def execIdleFlit (p : Fin 32) (f : Flit) (s : State) : Outcome State Fault Refusal :=
  if s.checksPrbs p.val then
    .next ((f.fixed.zipIdx.take 8).foldl (fun (t : State) x => if x.1 = 0 then t else t.addSat (R.GW_LANECE p.val x.2) x.1) s)
  else if !(s.linkUp p.val) then .next s
  else if !(flitOk .idle f) then .next ((s.noteFec p.val f).badFlit p.val)
  else .next ((s.noteFec p.val f).takeHeader p.val f.hdr false)

/-- NAK_REPEAT: the expected flit has not come, and the NAK is sent again, up to the eighth; a ninth uses up the budget (R301), of two equal
halves of the lanes taking 0–3. (log entry 37, DESIGN CHOICE) -/
def execNakRepeat (p : Fin 32) (s : State) : Outcome State Fault Refusal :=
  let x := s.port p.val
  match x.episode with
  | some (t, n) =>
    if !(s.gwUp p.val && s.portActive p.val) then .next s
    else if n < 8 then .next ((s.setPort p.val { x with episode := some (t, n + 1), nak := true }).addSat (R.GW_REPLAY p.val) 1)
    else .next (s.exhaust p.val false)
  | none => .next s

/-- DEGRADE received (R302): the port moves to the half named and answers; where both sides asked, the half of the side with
the lower device ID holds. (log entry 37, DEDUCED) -/
def execDegrade (p : Fin 32) (h : FlitHdr) (upper : Bool) (s : State) : Outcome State Fault Refusal :=
  if !(s.linkUp p.val) then .next s
  else if !(ctrlOk h) then .next (s.badFlit p.val)
  else if s.portState p.val == 5 then
    let s1 := s.takeHeader p.val h false
    if s1.portWidth p.val = 3 && s1.bit (R.GW_CTRL p.val) 3 then .next (s1.startDegrade p.val upper false)
    else .next (s1.portDown p.val 6)
  else if s.portState p.val == 9 then
    match (s.port p.val).degrade with
    | some (_, _, true) =>
      if s.devId < s.fld (R.GW_NBR p.val) 0 8 then .next s else .next (s.startDegrade p.val upper false)
    | _ => .next s
  else .next s

/-- DEGRADE_ACK received: it names the half this side chose, and the transmitter moves there. -/
def execDegradeAck (p : Fin 32) (h : FlitHdr) (upper : Bool) (s : State) : Outcome State Fault Refusal :=
  if !(s.linkUp p.val) then .next s
  else if !(ctrlOk h) then .next (s.badFlit p.val)
  else
    match (s.port p.val).degrade with
    | some (u, _, true) =>
      if s.portState p.val == 9 && u == upper then .next ((s.endDegrade p.val).takeHeader p.val h false) else .next s
    | _ => .next s

/-- CTRL_DOWN received. -/
def execCtrlDown (p : Fin 32) (h : FlitHdr) (cause : Fin 16) (s : State) : Outcome State Fault Refusal :=
  let _ := cause
  if !(s.linkUp p.val) then .next s
  else if !(ctrlOk h) then .next (s.badFlit p.val)
  else .next ((s.takeHeader p.val h false).portDown p.val 8)

/-- Credits held for a channel (R296). -/
def Port.credits (x : Port) (c : Fin 6) : Nat := 128 - (x.sent.get c + 256 - x.credit.get c % 256) % 256

/-- A channel has something to send. -/
def Port.waiting (x : Port) (c : Fin 6) : Bool := !(x.rest.get c).isEmpty || !(x.queues.get c).isEmpty

/-- CREDIT_TIMEOUT: a channel with flits waiting has had no credit for 1 ms. -/
def execCreditTimeout (p : Fin 32) (vc : Fin 6) (s : State) : Outcome State Fault Refusal :=
  let x := s.port p.val
  if s.gwUp p.val && s.portActive p.val && x.waiting vc && x.credits vc == 0 then .next (s.portDown p.val 9) else .next s

/-! ## Sending (R297, R298, R300) -/

/-- Packets from a queue go into a payload until it is full: words so far, where the first packet starts, packets that end
in it, and the queue left. -/
def fillFlit : List TQueued → List Word → Nat → Nat → List Word × Nat × Nat × List TQueued
  | [], ws, st, ends => (ws, st, ends, [])
  | q :: qs, ws, st, ends =>
    if 123 ≤ ws.length then (ws, st, ends, q :: qs)
    else
      let ws1 := ws ++ q.pkt.words (q.pkt.hops - 1)
      fillFlit qs ws1 (if st = 127 then ws.length else st) (if ws1.length ≤ 123 then ends + 1 else ends)

/-- The channel of the next new DATA flit: response channels first, highest hop first, of those with credit. -/
def Port.nextChannel (x : Port) : Option (Fin 6) :=
  [5, 4, 3, 2, 1, 0].find? (fun (c : Fin 6) => x.waiting c && decide (0 < x.credits c))

/-- Packets older than 100 µs leave a port's queues (R368). -/
def State.purgeOld (s : State) (p : Nat) : State :=
  let x := s.port p
  let old := fun (q : TQueued) => decide (100000 < s.time - q.arrived)
  let n := (x.queued.filter old).length
  if n = 0 then s
  else (s.setPort p { x with queues := x.queues.map (fun l => l.filter (fun q => !(old q))) }).addSat R.RMA_AGEDROP n

/-- A new DATA flit of a channel. -/
def State.sendData (s : State) (p : Nat) (c : Fin 6) : State :=
  let x := s.port p
  let old := x.rest.get c
  let r := fillFlit (x.queues.get c) old 127 (if !old.isEmpty && decide (old.length ≤ 123) then 1 else 0)
  let f : TxFlit := ⟨x.txNext, c.val, r.2.1, r.1.take 123, r.2.2.1⟩
  let y := { x with queues := x.queues.set c r.2.2.2, rest := x.rest.set c (r.1.drop 123), replay := x.replay ++ [f]
                    txNext := (x.txNext + 1) % 4096, sent := x.sent.set c ((x.sent.get c + 1) % 256) }
  s.setPort p (y.send .data f.seq f.vc f.pstart f.words)

/-- What a flit position sends (R297). -/
def State.sendFlit (s : State) (p : Nat) : State :=
  let x := s.port p
  let active := s.portActive p
  if active && x.pos % 64 == 0 then
    let m := s.syncOut p
    let y := { x with candTx := x.candTx + 1 }
    (s.setPort p (y.send .sync x.nextSeq 0 127 m.words)).electionCheck
  else
    match x.ctrl with
    | w :: ws => s.setPort p ({ x with ctrl := ws }.send .ctrl x.nextSeq 0 127 w)
    | [] =>
      match if active && decide (0 < x.resend) then x.replay[x.replay.length - x.resend]? else none with
      | some f => s.setPort p ({ x with resend := x.resend - 1 }.send .data f.seq f.vc f.pstart f.words)
      | none =>
        if active && decide (x.replay.length < 2048) then
          let t := s.purgeOld p
          match (t.port p).nextChannel with
          | some c => t.sendData p c
          | none => t.setPort p ((t.port p).send .idle x.nextSeq 0 127 [])
        else s.setPort p (x.send .idle x.nextSeq 0 127 [])

/-- FLIT_SLOT. -/
def execFlitSlot (p : Fin 32) (s : State) : Outcome State Fault Refusal :=
  .next (if s.linkUp p.val then s.sendFlit p.val else s)

/-! ## SYNC flits (R309–R312) -/

/-- The round trip of a SYNC message, in 0.125 ns: its receipt minus ECHO minus TURN; the one-way delay is half the mean of
the last 64. -/
def State.takeRtt (s : State) (p : Nat) (m : SyncMsg) : State :=
  let x := s.port p
  let y := { x with echo := some (m.txtime, s.time) }
  if m.echo = 0 then s.setPort p y
  else
    let rtts := ((s.time * 8 - m.echo - m.turn) :: x.rtts).take 64
    (s.setPort p { y with rtts := rtts }).setReg (R.GW_RTT p) (BitVec.ofNat 16 (min 0xFFFF (rtts.sum / (2 * rtts.length))))

/-- SYNC_FLIT. -/
def execSyncFlit (p : Fin 32) (f : Flit) (s : State) : Outcome State Fault Refusal :=
  if !(s.linkUp p.val) then .next s
  else if !(flitOk .sync f) then .next (((s.noteFec p.val f).badFlit p.val).addSat (R.GW_SYNCLOST p.val) 1)
  else
    let s1 := (s.noteFec p.val f).takeHeader p.val f.hdr false
    if s1.portActive p.val then
      let m := syncOf f.payload
      .next ((s1.takeRtt p.val m).hearSync p.val m)
    else .next s1

/-! ## Forwarding (R319) and age (R368) -/

/-- A packet leaves the inbox of a port and frees its receive buffers. -/
def State.takeInbox (s : State) (p : Nat) (f : TQueued → Bool) : State × Option TQueued :=
  let x := s.port p
  match x.inbox.find? f with
  | none => (s, none)
  | some q => ((s.setPort p { x with inbox := x.inbox.erase q }).freeFlits p ⟨q.vc % 6, Nat.mod_lt _ (by decide)⟩ q.flits, some q)

/-- PACKET_FORWARD: the oldest received packet that is not for this device goes on over the mesh to the port its entry selects. It keeps
its receive buffers while the mesh has no room for it (R266). -/
def execPacketForward (p : Fin 32) (s : State) : Outcome State Fault Refusal :=
  if s.gwUp p.val then
    match s.takeInbox p.val (fun q => q.pkt.dst != s.devId) with
    | (s1, some q) => .next (if s.clogged q.pkt.ptype.meshVc (.port p.val) then s else s1.sendOut (.port p.val) q)
    | (_, none) => .next s
  else .next s

/-- AGE_DISCARD: the packets of a port's queues (`egress`), of its inbox, or of this device to itself (no port), that came
more than 100 µs ago are discarded. -/
def execAgeDiscard (p : Option (Fin 32)) (egress : Bool) (s : State) : Outcome State Fault Refusal :=
  let old := fun (q : TQueued) => decide (100000 < s.time - q.arrived)
  match p with
  | none => .next ({ s with ownIn := s.ownIn.filter (fun q => !(old q)) }.addSat R.RMA_AGEDROP (s.ownIn.filter old).length)
  | some p =>
    let x := s.port p.val
    if egress then .next (s.purgeOld p.val)
    else
      let gone := x.inbox.filter old
      let s1 := s.setPort p.val { x with inbox := x.inbox.filter (fun q => !(old q)) }
      .next ((gone.foldl (fun t q => t.freeFlits p.val ⟨q.vc % 6, Nat.mod_lt _ (by decide)⟩ q.flits) s1).addSat R.RMA_AGEDROP gone.length)

/-! ## Training and identity (R305–R308) -/

/-- The partner that R315 puts on a fixed port. -/
def expectedPartner (own p : Nat) : Nat × Nat :=
  let g := own / 16
  let m := own % 16
  if p < 15 then (g * 16 + (m + p + 1) % 16, 14 - p) else ((g + p - 14) % 16 * 16 + m, 44 - p)

/-- The cause an IDENT fails with (R307); 0 where it passes. -/
def State.identCheck (s : State) (p : Nat) (i : Ident) : Nat :=
  if i.sysid != s.reg R.GW_SYSID then 1
  else if i.id.toNat = s.devId then 2
  else if p < 30 && s.bit (R.GW_CTRL p) 2 && expectedPartner s.devId p != (i.id.toNat, i.port.val) then 3
  else 0

/-- The port enters ACTIVE with a partner. -/
def State.enterActive (s : State) (p : Nat) (i : Ident) : State :=
  let x := s.port p
  let nbr := (i.id.toNat, i.port.val)
  let s1 := (s.orReg (R.GW_EVT p) (if x.lastNbr.isSome && x.lastNbr != some nbr then 0x11 else 0x01)).setPortState p 5
  (s1.setPort p { Port.empty with lastNbr := some nbr, inbox := x.inbox, ctrl := x.ctrl }).chooseUpstream

/-- IDENT received in IDENT or HELD: the partner is recorded and checked (R307). -/
def execIdent (p : Fin 32) (h : FlitHdr) (id : Ident) (s : State) : Outcome State Fault Refusal :=
  if s.linkUp p.val && !(ctrlOk h) then .next (s.badFlit p.val)
  else if s.gwUp p.val && (s.portState p.val == 4 || s.portState p.val == 6) then
    let s1 := s.setReg (R.GW_NBR p.val) (BitVec.ofNat 16 (id.id.toNat + id.port.val * 256 + 0x8000))
    match s1.identCheck p.val id with
    | 0 => .next (s1.enterActive p.val id)
    | n => .next (((s1.setPortState p.val 6).setReg (R.GW_CAUSE p.val) (BitVec.ofNat 16 n)).orReg (R.GW_EVT p.val) 8)
  else if s.gwUp p.val && s.portState p.val == 5 then .next (s.takeHeader p.val h false)
  else .next s

/-- LIGHT_DETECT: light on at least four lanes. -/
def execLightDetect (p : Fin 32) (lanes : BitVec 8) (s : State) : Outcome State Fault Refusal :=
  if s.gwUp p.val && s.portState p.val == 1 && decide (4 ≤ ((List.range 8).filter lanes.getLsbD).length) then
    .next ((s.setPortState p.val 2).setPort p.val { s.port p.val with lit := lanes })
  else .next s

/-- LOCK_COMPLETE: every lit lane is locked. -/
def execLockComplete (p : Fin 32) (lanes : BitVec 8) (s : State) : Outcome State Fault Refusal :=
  if s.gwUp p.val && s.portState p.val == 2 && ((s.port p.val).lit &&& ~~~ lanes) == 0 then
    .next ((s.setPortState p.val 3).setFld (R.GW_STAT p.val) 6 8 lanes.toNat)
  else .next s

/-- ALIGN_COMPLETE: codewords are locked on eight lanes, or four; without a device ID the port waits, cause NOID. -/
def execAlignComplete (p : Fin 32) (s : State) : Outcome State Fault Refusal :=
  if s.gwUp p.val && s.portState p.val == 3 then
    let l : BitVec 8 := BitVec.ofNat 8 (s.fld (R.GW_STAT p.val) 6 8)
    let w := if l = 0xFF then 3 else if l &&& 0x0F = 0x0F then 1 else if l &&& 0xF0 = 0xF0 then 2 else 0
    if !(s.bit R.GW_DEVID 15) then .next (s.setReg (R.GW_CAUSE p.val) 4)
    else if w = 0 then .next s
    else
      let s1 := (s.setPortState p.val 4).setWidth p.val w
      .next (s1.pushCtrl p.val (identWords (s1.ident p.val)))
  else .next s

/-- TRAINING_TIMEOUT: a training step exceeded its limit; ALIGN has none while the device has no ID. -/
def execTrainingTimeout (p : Fin 32) (s : State) : Outcome State Fault Refusal :=
  let st := s.portState p.val
  if s.gwUp p.val && (st == 2 || st == 4 || (st == 3 && s.bit R.GW_DEVID 15)) then .next (s.portDown p.val 10) else .next s

/-- DOWN_END: after its dark time a port trains again if AUTO is 1 or a RETRAIN asked for it. -/
def execDownEnd (p : Fin 32) (s : State) : Outcome State Fault Refusal :=
  let x := s.port p.val
  if s.gwUp p.val && s.portState p.val == 7 && (s.bit (R.GW_CTRL p.val) 1 || x.redo) then
    .next ((s.setPortState p.val 1).setPort p.val { x with redo := false })
  else .next s

/-- HELD_IDENT: a HELD port sends IDENT. -/
def execHeldIdent (p : Fin 32) (s : State) : Outcome State Fault Refusal :=
  if s.gwUp p.val && s.portState p.val == 6 then .next (s.pushCtrl p.val (identWords (s.ident p.val))) else .next s

/-- TEST or DISABLED, by GW_TEST. -/
def State.restState (s : State) (p : Nat) : Nat := if s.reg (R.GW_TEST p) = 0 then 0 else 8

/-- A write of GW_CTRL: EN starts training, or disables the port (R305). -/
def State.gwCtrlWrite (s : State) (p : Nat) (v : Word) : State :=
  let was := s.bit (R.GW_CTRL p) 0
  let s1 := s.setReg (R.GW_CTRL p) (v &&& 0x001F)
  if v.getLsbD 0 && !was then
    ((s1.setPortState p 1).setReg (R.GW_NBR p) (s.reg (R.GW_NBR p) &&& 0x7FFF)).setPort p { s.port p with redo := false }
  else if !(v.getLsbD 0) && was then
    (if s.linkUp p then s1.portDown p 7 else s1).dropLink p (s.restState p)
  else s1

/-- PORT_ENABLE: a write of GW_CTRL. -/
def execPortEnable (p : Fin 32) (ctrl : Word) (s : State) : Outcome State Fault Refusal :=
  .next (if s.gwUp p.val then s.gwCtrlWrite p.val ctrl else s)

/-- A write of GW_TEST: ignored while EN is 1. -/
def State.gwTestWrite (s : State) (p : Nat) (v : Word) : State :=
  if s.bit (R.GW_CTRL p) 0 then s
  else
    let s1 := s.setReg (R.GW_TEST p) (v &&& 7)
    if s.portState p == 0 || s.portState p == 8 then s1.setPortState p (s1.restState p) else s1

/-- A pulse of GW_CMD.RETRAIN: from DOWN, HELD or ACTIVE. -/
def State.gwRetrain (s : State) (p : Nat) : State :=
  let st := s.portState p
  if st == 5 || st == 6 || st == 9 then
    let s1 := s.portDown p 7
    s1.setPort p { s1.port p with redo := true }
  else if st == 7 then s.setPort p { s.port p with redo := true }
  else s

/-- RETRAIN. -/
def execRetrain (p : Fin 32) (s : State) : Outcome State Fault Refusal := .next (if s.gwUp p.val then s.gwRetrain p.val else s)

/-- A pulse of GW_CMD.DOWN (R303): in any state but DISABLED, DOWN and TEST. -/
def State.gwDown (s : State) (p : Nat) : State :=
  if s.portState p == 0 || s.portState p == 7 || s.portState p == 8 then s else s.portDown p 7

/-- GW_CMD_DOWN. -/
def execGwCmdDown (p : Fin 32) (s : State) : Outcome State Fault Refusal := .next (if s.gwUp p.val then s.gwDown p.val else s)

end Sys2Proof.Machine
end

