-- ==== Sys2Proof/Machine/Rma.lean ====
section
/-! DEFINITION. Remote memory access (spec/11, and spec/12 R368–R370): the window table, the sequencing of requests in
streams, the checks of the target, responses, retransmission, failure, and the rate limiter. -/
namespace Sys2Proof.Machine
open Host

/-! ## Windows (R328–R330) -/

/-- An entry may open (R329, R380). -/
def State.winOk (s : State) (w : Nat) : Bool :=
  let base := (s.reg32 (R.WIN_BASE_LO w)).toNat
  let len := (s.reg32 (R.WIN_LEN_LO w)).toNat
  let lane := s.fld (R.WIN_LANE w) 0 10
  let hcrew := s.fld (R.WIN_HCREW w) 0 7
  let last := base + len - 1
  let crews := (List.range 96).filter (fun c => decide (memCrew base ≤ c) && decide (c ≤ memCrew last))
  let store := inStore base && inStore last
  base % 4096 == 0 && len % 4096 == 0 && len != 0 && ((inSeatMem base && inSeatMem last) || store) &&
    decide (hcrew < 96) && s.laneOf hcrew == lane && crews.all (fun c => s.laneOf c == lane) &&
    !(store && crews.any (fun c => s.ccOn c && decide (storeBase c + 0x7C0000 ≤ last))) &&
    !(store && crews.any (fun c => decide (max base (storeBase c) < storeBase c + s.fld (R.LANE_CREW c) 8 4 * 0x10000))) &&
    !(s.bit (R.WIN_CTRL w) 10)

/-- The receive contexts of a lane are discarded (R344). -/
def State.dropRx (s : State) (lane : Nat) : State := { s with rxc := s.rxc.filter (fun p => p.1 % 1024 != lane) }

/-- A write of word 4 of a window entry (R329, R330). -/
def State.winCtrlWrite (s : State) (w : Nat) (v : Word) : State :=
  let a := R.WIN_CTRL w
  let old := s.reg a
  if v.getLsbD 0 && !(old.getLsbD 0) then
    if s.winOk w then s.setReg a (v &&& 0x03FF)
    else (s.setReg a ((v &&& 0x03FE) ||| (old &&& 0x0400) ||| 0x0800)).orReg R.RMA_EVT 1
  else
    let s1 := s.setReg a ((v &&& 0x03FF) ||| (old &&& 0x0C00))
    if old.getLsbD 0 && !(v.getLsbD 0) then s1.dropRx (s.fld (R.WIN_LANE w) 0 10) else s1

/-- A write of another word of a window entry: ignored while the window is open (R330). -/
def State.winWordWrite (s : State) (w a : Nat) (v : Word) : State :=
  if s.bit (R.WIN_CTRL w) 0 then s.orReg R.RMA_EVT 2 else s.setReg a v

/-- WINDOW_OPEN: a write of word 4 with OPEN = 1. -/
def execWindowOpen (w : Fin 4096) (ctrl : Word) (s : State) : Outcome State Fault Refusal :=
  .next (if s.meshUp then s.winCtrlWrite w.val (ctrl ||| 1) else s)

/-- WINDOW_CLOSE: a write of word 4 with OPEN = 0. -/
def execWindowClose (w : Fin 4096) (ctrl : Word) (s : State) : Outcome State Fault Refusal :=
  .next (if s.meshUp then s.winCtrlWrite w.val (ctrl &&& 0xFFFE) else s)

/-! ## The timeout register (R345) -/

/-- A write of RMA_TIMEOUT. -/
def State.rmaTimeoutWrite (s : State) (v : Word) : State :=
  let us := v.toNat % 1024
  let s1 := (s.setReg R.RMA_TIMEOUT (BitVec.ofNat 16 us)).setReg R.RMA_TMOEFF (BitVec.ofNat 16 (max us 12))
  if us < 12 then s1.orReg R.RMA_EVT 8 else s1

/-- RMA_TIMEOUT_WRITE. -/
def execRmaTimeoutWrite (v : Word) (s : State) : Outcome State Fault Refusal :=
  .next (if s.meshUp then s.rmaTimeoutWrite v else s)

/-! ## The rate limiter (R350) -/

/-- A limiter that has never acted: a full bucket. -/
def Limiter.empty : Limiter := ⟨none, 0, none, 0, 0⟩

/-- The limiter of a destination. -/
def State.limiter (s : State) (d : Nat) : Limiter := mapGet (fun _ => Limiter.empty) s.limits d

/-- The limiter of a destination set. -/
def State.setLimiter (s : State) (d : Nat) (l : Limiter) : State := { s with limits := mapSet (fun _ => Limiter.empty) s.limits d l }

/-- What the bucket of a destination lacks now: it fills at rate/1024 of 189.93 bytes per ns. -/
def State.bucketDebt (s : State) (d : Nat) : Nat :=
  let l := s.limiter d
  l.debt - 18993 * (s.reg (R.RMA_RATE d)).toNat * (s.time - l.at_)

/-- The size of a bucket, in 1/102400 bytes. -/
def State.bucketSize (s : State) : Nat := max 1 (s.fld R.RMA_BURST 0 8) * 256 * 102400

/-- A request to a destination may leave the sequencer. -/
def State.mayLeave (s : State) (d : Nat) : Bool :=
  !(s.bit R.RMA_CTRL 0) || d == s.devId || decide (s.bucketDebt d < s.bucketSize)

/-- The bytes of a request: its packet's, or for a READ those of the answer it asks for. -/
def Tpkt.cost (k : Tpkt) : Nat := match k.ptype with | .read => 24 + 2 * k.param.toNat | _ => 24 + 2 * k.data.length

/-- A request takes its bytes. -/
def State.takeTokens (s : State) (k : Tpkt) : State :=
  if k.dst = s.devId then s
  else s.setLimiter k.dst { s.limiter k.dst with debt := s.bucketDebt k.dst + k.cost * 102400, at_ := s.time }

/-- The rate of a destination set, its bucket brought up to now first. -/
def State.setRate (s : State) (d r : Nat) : State :=
  (s.setLimiter d { s.limiter d with debt := s.bucketDebt d, at_ := s.time }).setReg (R.RMA_RATE d) (BitVec.ofNat 16 r)

/-- A WASH response for a request sent at a time (none: no longer outstanding). -/
def State.washed (s : State) (d : Nat) (sentAt : Option Nat) : State :=
  let l := s.limiter d
  let after := match sentAt, l.cutAt with
    | some t, some c => decide (c < t)
    | some _, none => true
    | none, _ => false
  let rate := (s.reg (R.RMA_RATE d)).toNat
  let s1 := if after then s.setRate d (max (rate - rate / 8) (max 1 (s.fld R.RMA_RATEMIN 0 11))) else s
  s1.setLimiter d { s1.limiter d with washAt := some s.time, cutAt := if after then some s.time else l.cutAt }

/-- The interval of R350 has passed since the last cut or rise, and no WASH response has come within it. -/
def State.rateDue (s : State) (l : Limiter) : Bool :=
  let i := 1000 * max 1 (s.fld R.RMA_INC 0 8)
  let base := max (l.cutAt.getD 0) l.incAt
  decide (base + i ≤ s.time) &&
    (match l.washAt with
     | some w => decide (w ≤ base) || decide (w + i ≤ s.time)
     | none => true)

/-- RATE_INCREASE: RMA_INC.INTERVAL has passed; with no WASH since, the rate rises. -/
def execRateIncrease (dev : Fin 256) (s : State) : Outcome State Fault Refusal :=
  let d := dev.val
  if s.meshUp && s.rateDue (s.limiter d) then
    let s1 := s.setRate d (min 1024 ((s.reg (R.RMA_RATE d)).toNat + s.fld R.RMA_INC 8 8))
    .next (s1.setLimiter d { s1.limiter d with incAt := s.time })
  else .next s

/-! ## Sequencing (R339, R340, R346, R369) -/

/-- The key of an initiator context. -/
def iniKey (sq lane dev : Nat) : Nat := (sq * 1024 + lane) * 256 + dev

/-- An initiator context. -/
def State.iniCtx (s : State) (k : Nat) : IniCtx := mapGet (fun _ => IniCtx.empty) s.ini k

/-- An initiator context set. -/
def State.setIni (s : State) (k : Nat) (c : IniCtx) : State := { s with ini := mapSet (fun _ => IniCtx.empty) s.ini k c }

/-- The context stands in the quarantine of R369. -/
def State.quarantined (s : State) (c : IniCtx) : Bool :=
  !c.live && (match c.lastAt with | some t => decide (s.time < t + 500000) | none => false)

/-- The context of a request's stream has no room: 4,096 are in use. -/
def State.ctxFull (s : State) (k : Tpkt) : Bool :=
  !(s.iniCtx (iniKey k.sq k.lane k.dst)).live && decide (4096 ≤ (s.ini.filter (fun p => p.2.live)).length)

/-- A request may be sequenced: its context has room, the quarantine is over, and the limiter lets it go. -/
def State.maySequence (s : State) (k : Tpkt) : Bool :=
  !(s.ctxFull k) && !(s.quarantined (s.iniCtx (iniKey k.sq k.lane k.dst))) && s.mayLeave k.dst

/-- Who sends a request's packets into the mesh (R258). -/
def RmaOrigin.source (o : RmaOrigin) (t : TType) : MeshReq :=
  match o with
  | .hail c => .hail c
  | .posted c _ _ => .hail c
  | .engine c n _ => if t = .hail then .hail c else .dma c n
  | .nobody => .own

/-- A request is sequenced; none while it stalls for a context, the quarantine or tokens. `k` has no number yet. (log entry 33, DEDUCED) -/
def State.sequence (s : State) (k : Tpkt) (origin : RmaOrigin) : Option State :=
  let key := iniKey k.sq k.lane k.dst
  let c := s.iniCtx key
  if s.maySequence k then
    let seq : BitVec 32 := if c.live then c.next else 0
    let p := { k with hops := 3, src := s.devId, syn := !c.live, epoch := c.epoch, seq := seq, tag := seq.setWidth 16 }
    let s1 := (s.takeTokens p).setIni key
      { live := true, epoch := c.epoch, next := seq + 1, out := c.out ++ [⟨p, 0, s.time, origin⟩], lastAt := some s.time }
    some (s1.sendPacket (origin.source k.ptype) p)
  else none

/-- A request that stalls because 4,096 contexts are in use sets CTXFULL. -/
def State.stalled (s : State) (k : Tpkt) : State :=
  if s.ctxFull k then s.orReg R.RMA_EVT 4 else s

/-- The request of a hail. -/
def Hail.request (h : Hail) : Tpkt :=
  rawRequest .hail h.lane h.sq (h.dev, h.win, h.key) h.off.toNat false
    (BitVec.ofNat 16 ((h.data.length - 1) % 4 + h.cnt * 4 + if h.event then 256 else 0)) h.data

/-- The oldest hail of a crew's port is sequenced and leaves it, not while the last waits for room (R266); a POSTED HAIL descriptor then signals (R236). -/
def State.seqHail (s : State) (c : Nat) : State :=
  if s.clogged 0 (.hail c) then s
  else match (s.schedOf c).hails with
  | [] => s
  | h :: rest =>
    let origin : RmaOrigin := match h.engine with
      | none => .hail c
      | some (n, tag, true) => .engine c n tag
      | some (n, tag, false) => .posted c n tag
    match s.sequence h.request origin with
    | none => s.stalled h.request
    | some s1 =>
      let s2 := s1.setSched c { s1.schedOf c with hails := rest }
      match h.engine with
      | some (n, tag, false) =>
        let d := s2.eng c n
        if s2.dmaIn c n 3 && d.out.any (fun r => r.tag == tag) then s2.setEng c n { d with ready := true } else s2
      | _ => s2

/-- An engine's request is sequenced (R233, R339). -/
def State.seqEngine (s : State) (c n : Nat) : State :=
  match s.engineRequest c n with
  | none => s
  | some (k, kind, len) =>
    let d := s.eng c n
    match s.sequence k (.engine c n d.tag) with
    | none => s.stalled k
    | some s1 =>
      let s2 := s1.setEng c n { d with out := d.out ++ [⟨d.tag, kind, k.offset.toNat, len, true⟩], tag := d.tag + 1 }
      if kind = .write then s2.dmaLeft c n len else s2

/-! ## The DMA path of a crew (R248) -/

/-- The engine asks for the path for a remote request, which may be sequenced and has room. -/
def State.dmaAsksOut (s : State) (c n : Nat) : Bool :=
  match s.engineRequest c n with
  | some (k, _, _) => s.maySequence k && !(s.clogged 0 (.dma c n))
  | none => false

/-- The engine the arbiter grants: the highest PRIO, then the longest wait, then the lower number. -/
def State.dmaWinner (s : State) (c : Nat) : Option Nat :=
  ((List.range 4).filter (fun n => s.dmaAsks c n || s.dmaAsksOut c n)).foldl (fun best n =>
    match best with
    | none => some n
    | some b =>
      if s.fld (R.DMA_CTRL c b) 0 3 < s.fld (R.DMA_CTRL c n) 0 3 ∨
          (s.fld (R.DMA_CTRL c b) 0 3 = s.fld (R.DMA_CTRL c n) 0 3 ∧ (s.eng c n).since < (s.eng c b).since) then some n
      else some b) none

/-- DMA_BURST_GRANT: the crew's DMA arbiter grants one burst, for a remote side one request. -/
def execDmaBurstGrant (crew : Fin 96) (s : State) : Outcome State Fault Refusal :=
  .next (match s.dmaWinner crew.val with
    | some n => if s.dmaAsks crew.val n then s.dmaBurst crew.val n else s.seqEngine crew.val n
    | none => s)

/-- The request an engine waits to have sequenced. -/
def State.engineStalls (s : State) (c n : Nat) : State :=
  match s.engineRequest c n with
  | some (k, _, _) => s.stalled k
  | none => s

/-- REQUEST_SEQUENCED: the oldest hail of a crew's port, or an engine's request once the engine has the DMA path (R248). -/
def execRequestSequenced (src : RmaSource) (s : State) : Outcome State Fault Refusal :=
  .next (match src with
    | .hailPort crew => if s.meshUp && s.dmaLive crew.val then s.seqHail crew.val else s
    | .engine crew n =>
      if !(s.meshUp && s.dmaLive crew.val) then s
      else if s.dmaWinner crew.val == some n.val then s.seqEngine crew.val n.val
      else s.engineStalls crew.val n.val)

/-! ## Responses of a target (R332, R349) -/

/-- A response to a request, sent by who handled it. -/
def State.respond (s : State) (who : MeshReq) (k : Tpkt) (wash : Bool) (t : TType) (seq : BitVec 32) (param : Word) (data : List Word) :
    State :=
  s.sendPacket who
    { ptype := t, hops := 3, lane := k.lane, dst := k.src, src := s.devId, win := k.win, syn := false, verify := false, sq := k.sq
      retx := false, wash := wash, epoch := k.epoch, seq := seq, key := 0, offset := k.offset, param := param, tag := k.tag, data := data }

/-- An acknowledgement with its PARAM. -/
def State.ackTo (s : State) (who : MeshReq) (k : Tpkt) (wash : Bool) (param : Word) : State := s.respond who k wash .ack k.seq param []

/-- A refusal (R335): counted at the window, by code, and as an event. -/
def State.refuse (s : State) (who : MeshReq) (k : Tpkt) (wash : Bool) (code : Nat) : State :=
  (((s.addSat (R.WIN_NAKS k.win) 1).addSat (R.RMA_NAKTX (code - 1)) 1).orReg R.RMA_EVT 0x20).respond who k wash .nak k.seq
    (BitVec.ofNat 16 code) []

/-! ## Receive contexts (R339, R341, R342) -/

/-- No receive context: an epoch that no packet carries. -/
def RxCtx.none : RxCtx := ⟨256, 0, Option.none, 0, []⟩

/-- The key of a receive context. -/
def rxKey (src sq lane : Nat) : Nat := (src * 32 + sq) * 1024 + lane

/-- A receive context. -/
def State.rxCtx (s : State) (k : Nat) : RxCtx := mapGet (fun _ => RxCtx.none) s.rxc k

/-- A receive context set. -/
def State.setRx (s : State) (k : Nat) (c : RxCtx) : State := { s with rxc := mapSet (fun _ => RxCtx.none) s.rxc k c }

/-- Room for a new receive context: of those without a packet for 1 ms, the oldest is evicted if need be (R341). -/
def State.rxRoom (s : State) : Option State :=
  if s.rxc.length < 4096 then some s
  else
    match (s.rxc.filter (fun p => decide (p.2.lastAt + 1000000 ≤ s.time))).foldl (fun best p =>
        match best with
        | Option.none => some p
        | some b => if p.2.lastAt < b.2.lastAt then some p else some b) Option.none with
    | some p => some (s.setRx p.1 RxCtx.none)
    | Option.none => Option.none

/-- What steps 1 and 2 of R335 decide. -/
inductive Arrival where
  | nak (s : State) (code : Nat)
  | dup (s : State)
  | gap (s : State)
  | fresh (s : State)

/-- Steps 1 and 2 of R335 (R342). -/
def State.arrive (s : State) (k : Tpkt) : Arrival :=
  let key := rxKey k.src k.sq k.lane
  let c := s.rxCtx key
  if k.syn && k.seq == 0 && c.epoch != k.epoch then
    match (if c.epoch = 256 then s.rxRoom else some s) with
    | some s1 => .fresh (s1.setRx key ⟨k.epoch, 1, Option.none, s.time, []⟩)
    | Option.none => .nak s 10
  else if c.epoch != k.epoch then .nak s 7
  else
    let s1 := s.setRx key { c with lastAt := s.time }
    let ahead := (k.seq - c.next).toNat
    if k.syn && k.seq == 0 && c.next != 0 then .dup s1
    else if ahead = 0 then .fresh (s1.setRx key { c with next := c.next + 1, lastAt := s.time })
    else if 2 ^ 31 ≤ ahead then .dup s1
    else .gap s1

/-! ## The target's checks (R335) -/

/-- Words a request concerns. -/
def Tpkt.span (k : Tpkt) : Nat :=
  match k.ptype with | .read => if k.verify then 1 else k.param.toNat | _ => k.data.length

/-- Steps 3 and 4a of R335 (R380): the code of the refusal, 0 for none. -/
def State.windowCheck (s : State) (k : Tpkt) : Nat :=
  let w := k.win
  let ctrl := s.reg (R.WIN_CTRL w)
  let lane := s.fld (R.WIN_LANE w) 0 10
  let allowed := match k.ptype with
    | .write => ctrl.getLsbD 2
    | .read => ctrl.getLsbD 1 || (k.verify && ctrl.getLsbD 2)
    | _ => ctrl.getLsbD 3
  let base := (s.reg32 (R.WIN_BASE_LO w)).toNat + k.offset.toNat
  let words := (List.range k.span).map (fun i => base + i)
  if ctrl.getLsbD 10 then 6
  else if !(ctrl.getLsbD 0) then 5
  else if k.lane != lane then 1
  else if k.key != s.reg32 (R.WIN_KEY_LO w) then 2
  else if !allowed then 3
  else if (s.reg32 (R.WIN_LEN_LO w)).toNat < k.offset.toNat + k.span then 4
  else if k.ptype == .hail && s.laneOf (s.fld (R.WIN_HCREW w) 0 7) != lane then 6
  else if lane != 0 && words.any s.inCoxRegion then 1
  else if words.all (fun a => s.globalPlace a == .mem a && s.crewMem (memCrew a)) then 0
  else 9

/-- The words of memory a request names. -/
def State.windowWords (s : State) (k : Tpkt) : List Nat :=
  (List.range k.span).map (fun i => (s.reg32 (R.WIN_BASE_LO k.win)).toNat + k.offset.toNat + i)

/-- The event record of a hail (R338). -/
def State.hailRecord (s : State) (k : Tpkt) : List Word :=
  let n := k.data.length
  let cnt := wfld k.param 2 6
  [BitVec.ofNat 16 (1 + (n - 1) * 16 + cnt * 64), BitVec.ofNat 16 (k.src + k.sq * 256), BitVec.ofNat 16 k.lane,
    k.seq.setWidth 16, (k.seq >>> 16).setWidth 16, k.offset.setWidth 16, (k.offset >>> 16).setWidth 16, BitVec.ofNat 16 k.win]
    ++ (List.range 4).map (fun i => k.data.getD i 0)
    ++ [BitVec.ofNat 16 s.time, BitVec.ofNat 16 (s.time / 65536), 0, 0]

/-- A queue takes an event record: RUN, EVENT mode, a free slot that is mapped (R206, R209). -/
def State.takesEvent (s : State) (c q : Nat) : Bool :=
  s.qState c q == 1 && s.qEvent c q && decide (s.qCount c q < 2 ^ s.qSize c q) && (s.slotWords c q (s.qTail c q)).isSome

/-- Steps 3 to 5 of a hail at its target (R337). -/
def State.hailArrives (s : State) (who : MeshReq) (k : Tpkt) (wash : Bool) : State :=
  let hc := s.fld (R.WIN_HCREW k.win) 0 7
  let eq := s.fld (R.WIN_CTRL k.win) 4 5
  let s1 := if s.crewUp hc then s.advanceCnt hc (wfld k.param 2 6) 1 else s
  if k.param.getLsbD 8 then
    let ok := s1.bit (R.WIN_CTRL k.win) 9 && s1.crewUp hc && s1.takesEvent hc eq
    let s2 := if s1.bit (R.WIN_CTRL k.win) 9 && s1.crewUp hc then s1.postEvent hc eq (s1.hailRecord k) else s1
    if ok then s2.ackTo who k wash 0 else (s2.addSat R.RMA_EVDROP 1).ackTo who k wash 0x40
  else s1.ackTo who k wash 0

/-- A request that has passed its checks goes into this device's mesh (R336, R337). -/
def State.serve (s : State) (who : MeshReq) (k : Tpkt) (wash : Bool) : State :=
  let ws := s.windowWords k
  let write := k.ptype != .read
  (s.startOp who k.lane (.remote k wash) write (if write then ws.zip k.data else ws.map (fun w => (w, 0)))).getD s

/-- A refused request is remembered, for its duplicates (R342). -/
def State.noteNak (s : State) (k : Tpkt) (code : Nat) : State :=
  let key := rxKey k.src k.sq k.lane
  let c := s.rxCtx key
  if c.epoch = k.epoch then s.setRx key { c with naks := c.naks ++ [(k.seq.toNat, code)] } else s

/-- Every answer to the accesses of a request is there (R336, R337): it is answered. One that met an error, or poison (R363), is refused.
(log entry 74, DEDUCED) -/
def State.remoteDone (s : State) (who : MeshReq) (k : Tpkt) (wash : Bool) (got : List (Nat × Word)) (bad : Option PktCause) : State :=
  match bad with
  | some cause =>
    let code := match cause with | .unpowered => 9 | .unmapped => 9 | .memErr => 8 | .poisoned => 8 | .none => 8
    (s.noteNak k code).refuse who k wash code
  | none =>
    match k.ptype with
    | .read =>
      let vs := (s.windowWords k).map (fun w => ((got.find? (fun p => p.1 == w)).map Prod.snd).getD 0)
      s.respond who k wash .rdata k.seq (BitVec.ofNat 16 vs.length) vs
    | .hail => s.hailArrives who k wash
    | _ => s.ackTo who k wash 0

/-- A request that reaches the target's remote-access logic (R335), beside the port it came by. -/
def State.target (s : State) (who : MeshReq) (k : Tpkt) (wash : Bool) : State :=
  let key := rxKey k.src k.sq k.lane
  match s.arrive k with
  | .nak s1 code => s1.refuse who k wash code
  | .dup s1 =>
    let s2 := s1.addSat R.RMA_DUP 1
    match (s2.rxCtx key).naks.find? (fun p => p.1 == k.seq.toNat) with
    | some p => s2.respond who k wash .nak k.seq (BitVec.ofNat 16 p.2) []
    | Option.none => s2.ackTo who k wash 0x10
  | .gap s1 =>
    let c := s1.rxCtx key
    if (match c.gapAt with | some t => decide (s.time < t + 2000) | Option.none => false) then s1
    else ((s1.setRx key { c with gapAt := some s.time }).addSat R.RMA_GAP 1).respond who k wash .ack c.next 0x20 []
  | .fresh s1 =>
    match s1.windowCheck k with
    | 0 => s1.serve who k wash
    | code => (s1.noteNak k code).refuse who k wash code

/-! ## Packets for this device (R327, R349, R368) -/

/-- Flits that the request channels of a port hold. -/
def Port.requestFlits (x : Port) : Nat :=
  ((x.inbox.filter (fun q => decide (q.vc < 3))).map TQueued.flits).sum + ((x.rxRest.toList.take 3).map Prod.snd).sum

/-- The oldest packet for this device of a class, from a port or from this device itself, if it is of a type; with its wash
mark. -/
def State.takeOwn (s : State) (p : Option (Fin 32)) (t : TType) : State × Option (TQueued × Bool) :=
  let mine := fun (q : TQueued) => q.pkt.dst == s.devId && q.pkt.ptype.request == t.request
  match p with
  | Option.none =>
    match s.ownIn.find? mine with
    | some q => if q.pkt.ptype = t then ({ s with ownIn := s.ownIn.erase q }, some (q, false)) else (s, Option.none)
    | Option.none => (s, Option.none)
  | some p =>
    match (s.port p.val).inbox.find? mine with
    | some q =>
      if q.pkt.ptype = t then
        let wash := decide (s.fld R.RMA_WASHTHR 0 10 < (s.port p.val).requestFlits)
        ((s.takeInbox p.val (fun x => x == q)).1, some (q, wash))
      else (s, Option.none)
    | Option.none => (s, Option.none)

/-- The packet came more than 100 µs ago (R368). -/
def State.aged (s : State) (q : TQueued) : Bool := decide (100000 < s.time - q.arrived)

/-- Who handles a packet of a port, or of this device itself (R253). -/
def rmaLogic (p : Option (Fin 32)) : MeshReq := match p with | some p => .port p.val | Option.none => .own

/-- The remote-access logic can take a request: it has a tag for the accesses, and none of its packets waits for room (R254, R266). -/
def State.rmaFree (s : State) (who : MeshReq) : Bool := (s.opTag who).isSome && !(s.clogged 0 who)

/-- A request for this device is handled, or discarded for its age. -/
def State.handleRequest (s : State) (p : Option (Fin 32)) (t : TType) : State :=
  if s.meshUp && s.rmaFree (rmaLogic p) then
    match s.takeOwn p t with
    | (s1, some (q, wash)) => if s1.aged q then s1.addSat R.RMA_AGEDROP 1 else s1.target (rmaLogic p) q.pkt wash
    | (s1, Option.none) => s1
  else s

/-- WRITE_PACKET. -/
def execWritePacket (p : Option (Fin 32)) (s : State) : Outcome State Fault Refusal := .next (s.handleRequest p .write)

/-- READ_PACKET. -/
def execReadPacket (p : Option (Fin 32)) (s : State) : Outcome State Fault Refusal := .next (s.handleRequest p .read)

/-- HAIL_PACKET. -/
def execHailPacket (p : Option (Fin 32)) (s : State) : Outcome State Fault Refusal := .next (s.handleRequest p .hail)

/-! ## Ends of requests at the initiator (R343, R344, R347, R348) -/

/-- The failure of a hail, recorded for its crew (R348). -/
def State.hailFailed (s : State) (c code sq : Nat) : State :=
  let a := R.RMA_HAILST c
  if s.bit a 15 then s.orReg a 0x4000
  else s.setReg a (BitVec.ofNat 16 (code + sq * 16 + 0x8000) ||| (s.reg a &&& 0x4000))

/-- The request of an engine that a number names. -/
def State.engReq (s : State) (c n tag : Nat) : Option DmaReq := (s.eng c n).out.find? (fun r => r.tag == tag)

/-- A request has failed: `none` a timeout, else the code of its refusal (R348). (log entry 34, DEDUCED) -/
def State.requestFailed (s : State) (r : RmaReq) (code : Option Nat) : State :=
  let s1 := s.orReg R.RMA_EVT 0x10
  match r.origin with
  | .hail c => s1.hailFailed c (code.getD 15) r.pkt.sq
  | .posted c n tag => (s1.hailFailed c (code.getD 15) r.pkt.sq).dmaClose c n tag
  | .engine c n tag =>
    match s1.engReq c n tag with
    | some q => s1.dmaFail c n q (if code.isSome then 10 else 3) r.pkt.offset.toNat code
    | Option.none => s1
  | .nobody => s1

/-- A request is complete, with its words. -/
def State.requestDone (s : State) (r : RmaReq) (vs : List Word) : State :=
  match r.origin with
  | .engine c n tag =>
    match s.engReq c n tag with
    | some q => s.dmaAnswer c n q vs
    | Option.none => s
  | .posted c n tag => s.dmaClose c n tag
  | .hail _ => s
  | .nobody => s

/-- A request leaves the outstanding ones of its context. -/
def State.unqueue (s : State) (key : Nat) (r : RmaReq) : State :=
  let c := s.iniCtx key
  s.setIni key { c with out := c.out.filter (fun x => x.pkt.seq != r.pkt.seq), idleAt := s.time }

/-- The context is closed: the next request opens one with the next epoch. -/
def IniCtx.closed (c : IniCtx) (lastAt : Option Nat) : IniCtx :=
  { live := false, epoch := (c.epoch + 1) % 256, next := 0, out := [], lastAt := lastAt }

/-- A sequence reset at the initiator (R344): every outstanding request fails. (log entry 34, DEDUCED) -/
def State.iniReset (s : State) (key : Nat) (code : Option Nat) : State :=
  let c := s.iniCtx key
  let s1 := (s.setIni key (c.closed c.lastAt)).addSat R.RMA_SEQRST 1
  c.out.foldl (fun t r => t.requestFailed r code) s1

/-- The requests from a number on are sent again (R343, R347). (log entry 33, DEDUCED) -/
def State.resendFrom (s : State) (key : Nat) (seq : BitVec 32) : State :=
  let c := s.iniCtx key
  let late := fun (r : RmaReq) => decide ((r.pkt.seq - seq).toNat < 2 ^ 31)
  let again := (c.out.filter late).map (fun r => (r.origin.source r.pkt.ptype, { r.pkt with retx := true }))
  let s1 := s.setIni key
    { c with out := c.out.map (fun r => if late r then { r with sentAt := s.time } else r)
             lastAt := if again.isEmpty then c.lastAt else some s.time }
  again.foldl (fun t k => (t.addSat R.RMA_RETX 1).sendPacket k.1 k.2) s1

/-- The attempt timer of a request has expired: RMA_TMOEFF since the attempt (R346). -/
def State.attemptOver (s : State) (r : RmaReq) : Bool := decide (r.sentAt + 1000 * s.fld R.RMA_TMOEFF 0 10 ≤ s.time)

/-- The attempt in hand is the last of a request (R347). -/
def State.lastAttempt (s : State) (r : RmaReq) : Bool := decide (s.fld R.RMA_CTRL 1 3 < r.tries + 1)

/-- A request fails after its last attempt, and with it its context (R344, R347). (log entry 34, DEDUCED) -/
def State.attemptsUp (s : State) (key : Nat) : State :=
  (s.addSat R.RMA_FAILED (s.iniCtx key).out.length).iniReset key Option.none

/-- NOCTX is a timeout of the attempt: the last one fails the request, another is sent again RMA_TMOEFF later (R341). -/
def State.noCtx (s : State) (key : Nat) (r : RmaReq) : State :=
  let c := s.iniCtx key
  if s.lastAttempt r then s.attemptsUp key
  else s.setIni key { c with out := c.out.map (fun x => if x.pkt.seq == r.pkt.seq then { x with sentAt := s.time } else x) }

/-- ATTEMPT_TIMEOUT: the attempt timer of an outstanding request has expired. -/
def execAttemptTimeout (sq : Fin 32) (lane : Fin 1024) (dev : Fin 256) (seq : BitVec 32) (s : State) : Outcome State Fault Refusal :=
  let key := iniKey sq.val lane.val dev.val
  let c := s.iniCtx key
  match c.out.find? (fun r => r.pkt.seq == seq) with
  | Option.none => .next s
  | some r =>
    if !(s.meshUp && s.attemptOver r) then .next s
    else if s.lastAttempt r then .next (s.attemptsUp key)
    else
      let s1 := s.setIni key { c with out := c.out.map (fun x => if x.pkt.seq == seq then { x with tries := x.tries + 1 } else x) }
      .next (s1.resendFrom key seq)

/-- CONTEXT_CLOSE: a context has had nothing outstanding for 500 µs (R340). -/
def execContextClose (sq : Fin 32) (lane : Fin 1024) (dev : Fin 256) (s : State) : Outcome State Fault Refusal :=
  let key := iniKey sq.val lane.val dev.val
  let c := s.iniCtx key
  .next (if s.meshUp && c.live && c.out.isEmpty && decide (c.idleAt + 500000 ≤ s.time) then s.setIni key (c.closed Option.none) else s)

/-- QUARANTINE_END: 500 µs have passed since the last packet of the previous epoch (R369). -/
def execQuarantineEnd (sq : Fin 32) (lane : Fin 1024) (dev : Fin 256) (s : State) : Outcome State Fault Refusal :=
  let key := iniKey sq.val lane.val dev.val
  let c := s.iniCtx key
  .next (if s.meshUp && !c.live && !(s.quarantined c) then s.setIni key { c with lastAt := Option.none } else s)

/-! ## Responses (R343) -/

/-- A response that matches nothing. -/
def State.stale (s : State) : State := s.addSat R.RMA_STALE 1

/-- A response reaches its initiator (R343). (log entry 33, DEDUCED) -/
def State.response (s : State) (k : Tpkt) : State :=
  let key := iniKey k.sq k.lane k.src
  let c := s.iniCtx key
  let here := c.live && c.epoch == k.epoch
  let s1 := if k.wash then s.washed k.src (if here then (c.out.find? (fun r => r.pkt.tag == k.tag)).map RmaReq.sentAt else Option.none) else s
  if !here then s1.stale
  else
    match k.ptype with
    | .ack =>
      if k.param.getLsbD 5 then s1.resendFrom key k.seq
      else
        match c.out.find? (fun r => r.pkt.seq == k.seq && r.pkt.tag == k.tag) with
        | some r => if r.pkt.ptype = .read then s1 else (s1.unqueue key r).requestDone r []
        | Option.none => s1.stale
    | .nak =>
      if k.param = 7 then s1.iniReset key (some 7)
      else
        match c.out.find? (fun r => r.pkt.seq == k.seq && r.pkt.tag == k.tag) with
        | some r => if k.param = 10 then s1.noCtx key r else (s1.unqueue key r).requestFailed r (some (k.param.toNat % 16))
        | Option.none => s1.stale
    | _ =>
      match c.out.find? (fun r => r.pkt.seq == k.seq && r.pkt.tag == k.tag) with
      | some r => if r.pkt.ptype = .read then (s1.unqueue key r).requestDone r k.data else s1.stale
      | Option.none => s1.stale

/-- A response for this device is handled, or discarded for its age. -/
def State.handleResponse (s : State) (p : Option (Fin 32)) (t : TType) : State :=
  if s.meshUp then
    match s.takeOwn p t with
    | (s1, some (q, _)) => if s1.aged q then s1.addSat R.RMA_AGEDROP 1 else s1.response q.pkt
    | (s1, Option.none) => s1
  else s

/-- RDATA. -/
def execRdata (p : Option (Fin 32)) (s : State) : Outcome State Fault Refusal := .next (s.handleResponse p .rdata)

/-- ACK. -/
def execAck (p : Option (Fin 32)) (s : State) : Outcome State Fault Refusal := .next (s.handleResponse p .ack)

/-- NAK. -/
def execNak (p : Option (Fin 32)) (s : State) : Outcome State Fault Refusal := .next (s.handleResponse p .nak)

/-! ## The end of a lane (R344, R384) -/

/-- The windows of a lane. -/
def State.laneWindows (s : State) (lane : Nat) : List Nat :=
  (s.regs.filter (fun p => decide (0xF1000000 ≤ p.1) && decide (p.1 < 0xF1010000) && p.1 % 16 == 5 && p.2.toNat % 1024 == lane)).map
    (fun p => (p.1 - 0xF1000000) / 16)

/-- The contexts of a lane are discarded on both sides with no report, and its windows refuse every packet. -/
def State.rmaKill (s : State) (lane : Nat) : State :=
  let s1 := (s.laneWindows lane).foldl (fun t w => t.setReg (R.WIN_CTRL w) ((t.reg (R.WIN_CTRL w) &&& 0xFFFE) ||| 0x0400)) s
  let of_ := fun (key : Nat) => key / 256 % 1024 == lane
  let s2 := (s1.ini.filter (fun p => of_ p.1 && p.2.live)).foldl (fun t p =>
    (t.setIni p.1 (p.2.closed p.2.lastAt)).addSat R.RMA_SEQRST 1) s1
  s2.dropRx lane

end Sys2Proof.Machine
end

