-- ==== Sys2Proof/Machine/System.lean ====
section
/-! DEFINITION. System, cache and loop-save instructions (spec/04 R104–R106, R114, R116–R120). -/
namespace Sys2Proof.Machine
open Host

/-! ## Special registers (R105, R106) -/

/-- CORE_ID: SEAT 2:0, KIND 4:3, CREW 11:5. -/
def coreIdWord (c : CoreId) : Word :=
  match c with
  | .seat crew s => BitVec.ofNat 16 (s.val + crew.val * 32)
  | .cox crew => BitVec.ofNat 16 (8 + crew.val * 32)
  | .boathouse => 16

/-- Tenths of cycles a core's clock has run (R106): its crew's (R397), or the boathouse core's own (R415). -/
def State.tenths (s : State) (c : CoreId) : Nat := mapGet (fun _ => 0) s.clock ((coreCrew c).getD 96)

/-- CYCLE: core cycles since the core's last reset, modulo 2³² (R106). -/
def State.cycle (s : State) (c : CoreId) : BitVec 32 := BitVec.ofNat 32 (s.tenths c / 10 - (s.core c).cycle0)

/-- A half of a 32-bit pair: LO for an even number, HI for an odd one. -/
def half (v : BitVec 32) (n : Nat) : Word := if n % 2 = 0 then v.setWidth 16 else (v >>> 16).setWidth 16

/-- A 32-bit pair with one half replaced. -/
def setHalf (v : BitVec 32) (n : Nat) (x : Word) : BitVec 32 :=
  if n % 2 = 0 then (v &&& 0xFFFF0000) ||| x.setWidth 32 else (v &&& 0x0000FFFF) ||| (x.setWidth 32 <<< 16)

/-- The number is listed (R105). -/
def srListed (n : Nat) : Bool :=
  decide (n < 8) || n == 0x10 || n == 0x11 || n == 0x12 || (decide (0x14 ≤ n) && decide (n ≤ 0x1C)) ||
    (decide (0x20 ≤ n) && decide (n < 0x38))

/-- Not readable at seat level: ECST, ECAUSE, EPC, EVAL, IVB (R104). -/
def srPrivRead (n : Nat) : Bool := n == 0x11 || n == 0x12 || (decide (0x14 ≤ n) && decide (n ≤ 0x19))

/-- The value of a special register. -/
def State.srRead (s : State) (c : CoreId) (n : Nat) : Word :=
  let k := s.core c
  if n < 8 then featWord n
  else if n = 0x10 then k.cst
  else if n = 0x11 then k.ecst
  else if n = 0x12 then k.ecause
  else if n < 0x16 then half k.epc n
  else if n < 0x18 then half k.eval n
  else if n < 0x1A then half k.ivb n
  else if n = 0x1A then half (s.cycle c) 0
  else if n = 0x1B then k.cycleHi.getD (half (s.cycle c) 1)
  else if n = 0x1C then coreIdWord c
  else if n < 0x28 then half (k.ls.get (level ((n - 0x20) / 2))) n
  else if n < 0x30 then half (k.le.get (level ((n - 0x28) / 2))) n
  else half (k.lc.get (level ((n - 0x30) / 2))) n

/-- The core with a special register written at crew level; RO registers ignore writes. -/
def Core.srWrite (k : Core) (n : Nat) (v : Word) : Core :=
  if n = 0x10 then { k with cst := cstStore k.cst v }
  else if n = 0x11 then { k with ecst := cstStore k.ecst v }
  else if n = 0x12 then { k with ecause := v &&& 0xC03F }
  else if n = 0x14 ∨ n = 0x15 then { k with epc := setHalf k.epc n v }
  else if n = 0x16 ∨ n = 0x17 then { k with eval := setHalf k.eval n v }
  else if n = 0x18 then { k with ivb := setHalf k.ivb n (v &&& 0xFF00) }
  else if n = 0x19 then { k with ivb := setHalf k.ivb n v }
  else if 0x20 ≤ n ∧ n < 0x28 then { k with ls := k.ls.set (level ((n - 0x20) / 2)) (setHalf (k.ls.get (level ((n - 0x20) / 2))) n v) }
  else if 0x28 ≤ n ∧ n < 0x30 then { k with le := k.le.set (level ((n - 0x28) / 2)) (setHalf (k.le.get (level ((n - 0x28) / 2))) n v) }
  else if 0x30 ≤ n ∧ n < 0x38 then { k with lc := k.lc.set (level ((n - 0x30) / 2)) (setHalf (k.lc.get (level ((n - 0x30) / 2))) n v) }
  else k

/-- A seat's MTS to CST changes a field other than Z, N, C or V (R104). -/
def cstSeatDenied (old v : Word) : Bool := cstStore old v &&& 0xFFF0 != old &&& 0xFFF0

/-- The latch of CYCLE_HI after a read (R105): set by CYCLE_LO, used up by CYCLE_HI. -/
def State.srLatch (s : State) (c : CoreId) (n : Nat) : Option Word :=
  if n = 0x1A then some (half (s.cycle c) 1) else if n = 0x1B then none else (s.core c).cycleHi

/-! ## OP 0x06 -/

/-- NOP. -/
def execNop (c : CoreId) (s : State) : Outcome State Fault Refusal :=
  .next (s.runInsn c { word := (Instr.nop c).word } (fun t => .done t))

/-- MFS: wd = special register AUX. -/
def execMfs (c : CoreId) (d : Fin 16) (sr : BitVec 8) (s : State) : Outcome State Fault Refusal :=
  .next (s.runInsn c { word := (Instr.mfs c d sr).word, ws := [d] } (fun t =>
    if !(srListed sr.toNat) then .exc t 1 (Instr.mfs c d sr).word
    else if isSeat c && srPrivRead sr.toNat then .exc t 2 (Instr.mfs c d sr).word
    else .done (t.setCore c { (t.core c).setW d (t.srRead c sr.toNat) with cycleHi := t.srLatch c sr.toNat })))

/-- MTS: special register AUX = ws. -/
def execMts (c : CoreId) (sr : BitVec 8) (x : Fin 16) (s : State) : Outcome State Fault Refusal :=
  .next (s.runInsn c { word := (Instr.mts c sr x).word, ws := [x] } (fun t =>
    let k := t.core c
    if !(srListed sr.toNat) then .exc t 1 (Instr.mts c sr x).word
    else if isSeat c && (sr.toNat != 0x10 || cstSeatDenied k.cst (k.rw x)) then .exc t 2 (Instr.mts c sr x).word
    else .done (t.setCore c (k.srWrite sr.toNat (k.rw x)))))

/-- RETI: CST = ECST; PC = EPC; PRIV at seat level. -/
def execReti (c : CoreId) (s : State) : Outcome State Fault Refusal :=
  .next (s.runInsn c { word := (Instr.reti c).word, transfer := true } (fun t =>
    let k := t.core c
    if isSeat c then .exc t 2 (Instr.reti c).word
    else .jump (t.setCore c { k with cst := k.ecst }) k.epc))

/-- Sources of a core that are asserted and enabled (R114, R221, R418), lowest bit first. -/
def State.enabledSources (s : State) (c : CoreId) : List Nat :=
  match c with
  | .seat _ _ => []
  | .cox crew =>
    (List.range 13).filter (fun n => s.bit (R.COX_IE crew) n && (s.coxIp crew.val).getLsbD n)
  | .boathouse =>
    (List.range 18).filter (fun n =>
      (s.reg32 R.BH_IE_LO).getLsbD n && s.bhIp.getLsbD n)

/-- WFI: wait until a source is asserted and enabled; PRIV at seat level. -/
def execWfi (c : CoreId) (s : State) : Outcome State Fault Refusal :=
  .next (s.runInsn c { word := (Instr.wfi c).word } (fun t =>
    if isSeat c then .exc t 2 (Instr.wfi c).word
    else if t.enabledSources c = [] then .wait (t.setCore c { t.core c with wait := some .wfi })
    else .done t))

/-- BRK: the BRK exception, EVAL = AUX. -/
def execBrk (c : CoreId) (imm : BitVec 8) (s : State) : Outcome State Fault Refusal :=
  .next (s.runInsn c { word := (Instr.brk c imm).word, transfer := true } (fun t => .exc t 7 (imm.setWidth 32)))

/-- TRAP: the TRAP exception, EVAL = AUX, resuming at the next instruction. -/
def execTrap (c : CoreId) (imm : BitVec 8) (s : State) : Outcome State Fault Refusal :=
  .next (s.runInsn c { word := (Instr.trap c imm).word, transfer := true } (fun t => .excNext t 8 (imm.setWidth 32)))

/-- CSYNC: wait until every earlier load, store and write-back of the core is complete at its target. -/
def execCsync (c : CoreId) (s : State) : Outcome State Fault Refusal :=
  .next (s.runInsn c { word := (Instr.csync c).word } (fun t =>
    if t.memIdle c then .done (t.refetch c) else .wait (t.setCore c { t.core c with wait := some .csync })))

/-- CFLUSH: a dirty L1D line holding as is written back and left clean, once earlier accesses have reached it. -/
def execCflush (c : CoreId) (r : Fin 8) (s : State) : Outcome State Fault Refusal :=
  .next (s.runInsn c { word := (Instr.cflush c r).word, as := [r] } (fun t =>
    let b := lineBlock c ((t.core c).ra r).toNat
    if t.lineBusy c b || t.coreClogged c then .stall else .done (t.flushLine c b)))

/-- CINV: the L1D line holding as is invalidated, dirty data discarded. -/
def execCinv (c : CoreId) (r : Fin 8) (s : State) : Outcome State Fault Refusal :=
  .next (s.runInsn c { word := (Instr.cinv c r).word, as := [r] } (fun t =>
    let b := lineBlock c ((t.core c).ra r).toNat
    if t.lineBusy c b then .stall else .done (t.setCore c ((t.core c).dropLine b))))

/-- CFLUSH.A: CFLUSH of every L1D line. -/
def execCflushA (c : CoreId) (s : State) : Outcome State Fault Refusal :=
  .next (s.runInsn c { word := (Instr.cflushA c).word } (fun t =>
    if t.cacheBusy c || t.coreClogged c then .stall else .done ((t.core c).dirtyBlocks.foldl (fun u b => u.flushLine c b) t)))

/-- CINV.A: the whole L1D is invalidated, dirty data discarded. -/
def execCinvA (c : CoreId) (s : State) : Outcome State Fault Refusal :=
  .next (s.runInsn c { word := (Instr.cinvA c).word } (fun t =>
    if t.cacheBusy c then .stall else .done (t.setCore c { t.core c with l1d := [] })))

/-- CINV.I: the whole L1 instruction cache is invalidated. -/
def execCinvI (c : CoreId) (s : State) : Outcome State Fault Refusal :=
  .next (s.regInsn c { word := (Instr.cinvI c).word } (fun k => { k with l1i := [] }))

/-! ## Hardware loops (R116–R120) -/

/-- A level's registers after a shift of the other levels by one, down (LSAVE) or up (LREST). -/
def shiftDown (v : Vector Addr 4) : Vector Addr 4 := #v[v.get 1, v.get 2, v.get 3, 0]

/-- Levels 0–2 moved up to 1–3, level 0 given. -/
def shiftUp (v : Vector Addr 4) (x : Addr) : Vector Addr 4 := #v[x, v.get 0, v.get 1, v.get 2]

/-- LSAVE: push LC0, LE0 and LS0, move levels 1–3 down, LD − 1; ILLEGAL with LD = 0. -/
def execLsave (c : CoreId) (s : State) : Outcome State Fault Refusal :=
  .next (s.runInsn c { word := (Instr.lsave c).word, as := [7] } (fun t =>
    let k := t.core c
    let sp := k.ra 7
    if cstLd k.cst = 0 then .exc t 1 (Instr.lsave c).word
    else
      match t.storeAt c (sp - 2) true (k.lc.get 0) with
      | .stall => .stall
      | .fault code a => .exc t code a
      | .ok t1 =>
        match t1.storeAt c (sp - 4) true (k.le.get 0) with
        | .stall => .stall
        | .fault code a => .exc t code a
        | .ok t2 =>
          match t2.storeAt c (sp - 6) true (k.ls.get 0) with
          | .stall => .stall
          | .fault code a => .exc t code a
          | .ok t3 =>
            .done (t3.setCore c ({ t3.core c with ls := shiftDown k.ls, le := shiftDown k.le, lc := shiftDown k.lc,
                                                   cst := withLd k.cst (cstLd k.cst - 1) }.setA 7 (sp - 6)))))

/-- LREST: move levels 0–2 up, pop LS0, LE0 and LC0, LD + 1; LOOP_DEPTH with LD = 4. -/
def execLrest (c : CoreId) (s : State) : Outcome State Fault Refusal :=
  .next (s.runInsn c { word := (Instr.lrest c).word, as := [7] } (fun t =>
    let k := t.core c
    let sp := k.ra 7
    if 4 ≤ cstLd k.cst then .exc t 6 0
    else
      match t.loadNow c sp true with
      | .ok t1 ls =>
        match t1.loadNow c (sp + 2) true with
        | .ok t2 le =>
          match t2.loadNow c (sp + 4) true with
          | .ok t3 lc =>
            .done (t3.setCore c ({ t3.core c with ls := shiftUp k.ls ls, le := shiftUp k.le le, lc := shiftUp k.lc lc,
                                                   cst := withLd k.cst (cstLd k.cst + 1) }.setA 7 (sp + 6)))
          | r => r.fails c
        | r => r.fails c
      | r => r.fails c))

/-- LPOP: the innermost level ends; ILLEGAL with LD = 0. -/
def execLpop (c : CoreId) (s : State) : Outcome State Fault Refusal :=
  .next (s.runInsn c { word := (Instr.lpop c).word } (fun t =>
    let k := t.core c
    if cstLd k.cst = 0 then .exc t 1 (Instr.lpop c).word
    else .done (t.setCore c { k with cst := withLd k.cst (cstLd k.cst - 1) })))

/-- The count of LOOP (R116). -/
def Core.loopCount (k : Core) (n : LoopCount) : BitVec 32 :=
  match n with
  | .imm v => v.setWidth 32
  | .w r => (k.rw r).setWidth 32
  | .a r => k.ra r

/-- LOOP: opens a level over the `len` instructions that follow, or skips them when the count is 0. (log entry 68, DEDUCED) -/
def execLoop (c : CoreId) (count : LoopCount) (len : BitVec 12) (s : State) : Outcome State Fault Refusal :=
  .next (s.runInsn c
    { word := (Instr.loop c count len).word, transfer := true
      ws := match count with | .w r => [r] | _ => []
      as := match count with | .a r => [r] | _ => [] } (fun t =>
    let k := t.core c
    let n := cstLd k.cst
    let last := k.pc + BitVec.ofNat 32 (2 * len.toNat)
    if len = 0 then .exc t 1 (Instr.loop c count len).word
    else if k.loopCount count = 0 then .jump t (last + 2)
    else if 4 ≤ n then .exc t 6 0
    else .done (t.setCore c { k with ls := k.ls.set (level n) (k.pc + 2), le := k.le.set (level n) last,
                                     lc := k.lc.set (level n) (k.loopCount count), cst := withLd k.cst (n + 1) })))

/-! ## Interrupts (R127, R128) -/

/-- A wait an interrupt ends, the instruction having no effect (R128, R285). -/
def waitYields (w : Option Wait) : Bool :=
  match w with
  | some .csync => false
  | some .tend => false
  | _ => true

/-- INTERRUPT: at a boundary with IE = 1 the lowest enabled pending vector is taken; a held error report goes first
(R126). With IE = 0, an asserted enabled source ends a WFI, which then completes (R114). -/
def execInterrupt (c : CoreId) (s : State) : Outcome State Fault Refusal :=
  let k := s.core c
  match s.enabledSources c with
  | [] => .next s
  | n :: _ =>
    if k.mode != .running || k.lockup then .next s
    else if cstIe k.cst then
      if waitYields k.wait then
        if !(k.held.isEmpty) && !(cstExl k.cst) then .next (s.takeHeld c)
        else .next ((s.dropReads c .insn).setCore c (k.enter (16 + n) (BitVec.ofNat 16 (0x8000 + 16 + n)) k.pc 0))
      else .next s
    else if k.wait == some .wfi then .next (s.complete c (cstSs k.cst))
    else .next s

end Sys2Proof.Machine
end

