-- ==== Sys2Proof/Machine/Reset.lean ====
section
/-! DEFINITION. Resets of blocks (spec/17 R463, R464; spec/02 R64): spans of registers with their snapshots, seats, control cores,
and a crew. -/
namespace Sys2Proof.Machine

/-- Registers of a span at their Reset values, and the snapshots of four-word quantities in it discarded (R64). -/
def State.clearSpan (s : State) (lo hi : Nat) : State :=
  { s.resetSpan lo hi with snaps := s.snaps.filter (fun p => !(decide (lo ≤ p.1 / 98) && decide (p.1 / 98 < hi))) }

/-- What a core still had on its way to other blocks no longer concerns it. -/
def State.forgetCore (s : State) (c : CoreId) : State :=
  { s with ctl := s.ctl.filter (fun t => isSeat c || !(t.who == coreRequester c && t.readsReg))
           outWrites := mapSet (fun _ => []) s.outWrites (coreKey c) ((s.writesOf c).map (fun w => (w.1, false)))
           outReads := mapSet (fun _ => []) s.outReads (coreKey c) ((s.readsOf c).map (fun r => { r with use := .nothing }))
           early := (s.early.map (fun p => (p.1, p.2.filter (fun k => k != coreKey c)))).filter (fun p => !p.2.isEmpty) }

/-- A core after its reset (R132, R160): CYCLE restarts at 0, dirty lines are discarded, nothing is drained. -/
def State.resetCore (s : State) (c : CoreId) (mode : CoreMode) : State :=
  (s.forgetCore c).setCore c { Core.reset (!(isSeat c)) mode with cycle0 := s.tenths c / 10 }

/-- Every seat of a crew reset: IDLE, no task, no completion action (R222). -/
def State.resetSeats (s : State) (c : Nat) : State := (crewSeats (crewOf c)).foldl (fun t k => t.resetCore k .idle) s

/-- The control core of a crew reset, and held (R467). -/
def State.resetCox (s : State) (c : Nat) : State :=
  (s.resetCore (.cox (crewOf c)) .reset).setReg (R.COX_RSTSTAT c) ((s.reg (R.COX_RSTSTAT c) ||| 1))

/-- First word of a crew's block of register space. -/
def crewBase (c : Nat) : Nat := 0xF0000000 + c * 0x10000

/-- The crew no longer holds a stroke, and its dispatch is not barred (R391). -/
def State.strokeForget (s : State) (c : Nat) : State :=
  { s with holding := s.holding &&& ~~~ BitVec.ofNat 96 (2 ^ c), noDispatch := s.noDispatch &&& ~~~ BitVec.ofNat 96 (2 ^ c) }.holdSettle

/-- The blocks that answer to a crew reset take their Reset values (R464): scheduler, counters, queues, handle table, crew
cache, engines, seats, catch-group words of the crew, and the control core, held. -/
def State.resetCrew (s : State) (c : Nat) : State :=
  let b := crewBase c
  let s1 := ((s.resetSeats c).resetCore (.cox (crewOf c)) .reset).strokeForget c
  let s2 := ((s1.clearSpan b (b + 0x6000)).clearSpan (b + 0x7000) (b + 0x8000)).setSched c Sched.empty
  let s3 := (List.range 4).foldl (fun t n => t.setEng c n { Dma.empty with tag := (t.eng c n).tag }) s2
  { s3.setCache c ⟨[], none⟩ with
    banks := s3.banks.filter (fun p => p.1 / 16 != c)
    hcasRes := s3.hcasRes.filter (fun p => p.1 / 98 != c) }

end Sys2Proof.Machine
end

