-- ==== Sys2Proof/Machine/Sha.lean ====
section
/-! DEFINITION. SHA-256, the digest of an image's payload (spec/15 R424), over bytes as numbers. -/
namespace Sys2Proof.Machine

/-- The first `n` primes, rising, found from a start by trial division within `fuel` trials. -/
def primesFrom : Nat → Nat → Nat → List Nat
  | 0, _, _ => []
  | _, 0, _ => []
  | fuel + 1, n + 1, p =>
    if (List.range p).all (fun d => decide (d < 2) || p % d != 0) then p :: primesFrom fuel n (p + 1)
    else primesFrom fuel (n + 1) (p + 1)

/-- The largest number below `2 ^ bits`, added to `acc`, whose k-th power does not exceed `x`, bit by bit from the top. -/
def rootBits (k x : Nat) : Nat → Nat → Nat
  | 0, acc => acc
  | bits + 1, acc => rootBits k x bits (if (acc + 2 ^ bits) ^ k ≤ x then acc + 2 ^ bits else acc)

/-- The first 32 bits of the fraction of the k-th root of a number: SHA-256 takes its constants from the primes so. -/
def rootFraction (k p : Nat) : BitVec 32 := BitVec.ofNat 32 (rootBits k (p * 2 ^ (32 * k)) 37 0)

/-- The round constants: cube roots of the first 64 primes. -/
def shaK : List (BitVec 32) := (primesFrom 400 64 2).map (rootFraction 3)

/-- The initial hash value: square roots of the first eight primes. -/
def shaInit : List (BitVec 32) := (primesFrom 400 8 2).map (rootFraction 2)

/-- Big-endian words of a run of bytes. -/
def shaWords : List Nat → List (BitVec 32)
  | a :: b :: c :: d :: rest => BitVec.ofNat 32 (((a * 256 + b) * 256 + c) * 256 + d) :: shaWords rest
  | _ => []

/-- The padded message. -/
def shaPad (bs : List Nat) : List Nat :=
  let n := bs.length
  bs ++ [0x80] ++ List.replicate ((119 - n % 64) % 64) 0 ++ (List.range 8).map (fun i => (n * 8) / 256 ^ (7 - i) % 256)

/-- The message schedule, newest word first, grown by `n` words from sixteen. -/
def shaSchedule : Nat → List (BitVec 32) → List (BitVec 32)
  | 0, w => w
  | n + 1, w =>
    let x := w.getD 14 0
    let y := w.getD 1 0
    let s0 := x.rotateRight 7 ^^^ x.rotateRight 18 ^^^ (x >>> 3)
    let s1 := y.rotateRight 17 ^^^ y.rotateRight 19 ^^^ (y >>> 10)
    shaSchedule n ((w.getD 15 0 + s0 + w.getD 6 0 + s1) :: w)

/-- One round on the eight working words. -/
def shaRound (v : List (BitVec 32)) (kw : BitVec 32 × BitVec 32) : List (BitVec 32) :=
  match v with
  | [a, b, c, d, e, f, g, h] =>
    let t1 := h + (e.rotateRight 6 ^^^ e.rotateRight 11 ^^^ e.rotateRight 25) + ((e &&& f) ^^^ (~~~ e &&& g)) + kw.1 + kw.2
    let t2 := (a.rotateRight 2 ^^^ a.rotateRight 13 ^^^ a.rotateRight 22) + ((a &&& b) ^^^ (a &&& c) ^^^ (b &&& c))
    [t1 + t2, a, b, c, d + t1, e, f, g]
  | _ => v

/-- One block of sixteen words. -/
def shaBlock (h w : List (BitVec 32)) : List (BitVec 32) :=
  let ws := (shaSchedule 48 w.reverse).reverse
  List.zipWith (· + ·) h ((shaK.zip ws).foldl shaRound h)

/-- The blocks of a message, `n` of them. -/
def shaBlocks : Nat → List (BitVec 32) → List (BitVec 32) → List (BitVec 32)
  | 0, h, _ => h
  | n + 1, h, w => shaBlocks n (shaBlock h (w.take 16)) (w.drop 16)

/-- The 32 bytes of the digest. -/
def sha256 (bs : List Nat) : List Nat :=
  let p := shaPad bs
  (shaBlocks (p.length / 64) shaInit (shaWords p)).flatMap (fun x => (List.range 4).map (fun i => x.toNat / 256 ^ (3 - i) % 256))

end Sys2Proof.Machine
end

