-- ==== Sys2Proof/Machine/Boathouse.lean ====
section
/-! DEFINITION. The boathouse (spec/15): core resets and the watchdog, the timebase, flash and boot, management ports and power
commitments, UARTs and SPI, pumps, pins, analog inputs, protection, and JTAG. -/
namespace Sys2Proof.Machine
open Host

/-- The boathouse core. -/
def State.bhCore (s : State) : Core := s.core .boathouse

/-- The state with the boathouse beside its registers set. -/
def State.setBh (s : State) (b : Boathouse) : State := { s with bh := b }

/-- First word of the boot ROM. -/
def romBase : Nat := 0x0A000000

/-- The core executes the boot ROM. -/
def State.inRom (s : State) : Bool :=
  decide (romBase ≤ s.bhCore.pc.toNat) && decide (s.bhCore.pc.toNat < romBase + 0x4000) && s.bhCore.mode == .running

/-- Boathouse firmware runs: the core executes, out of the boot ROM. -/
def State.firmware (s : State) : Bool := s.bhCore.mode == .running && !s.bhCore.lockup && !s.inRom

/-! ## Core resets and watchdog (R419, R420) -/

/-- The core starts at the boot ROM. -/
def State.bhStart (s : State) : State :=
  let s1 := s.resetCore .boathouse .running
  s1.setCore .boathouse { s1.core .boathouse with pc := BitVec.ofNat 32 romBase }

/-- A core reset with its cause: BH_IE clears, BH_RSTCAUSE records, the watchdog starts again. -/
def State.bhReset (s : State) (cause : Nat) : State :=
  let n := min 15 (s.fld R.BH_RSTCAUSE 4 4 + 1)
  let s1 := (s.bhStart.setReg32 R.BH_IE_LO 0).setReg R.BH_RSTCAUSE (BitVec.ofNat 16 (cause + n * 16))
  s1.setBh { s1.bh with kicked := s1.uptime, step := false }

/-- BH_CORERST. -/
def execBhCorerst (s : State) : Outcome State Fault Refusal := .next (s.bhReset 2)

/-- A pulse of BH_CMD.WDKICK. -/
def State.wdKick (s : State) : State := s.setBh { s.bh with kicked := s.uptime }

/-- WDKICK. -/
def execWdkick (s : State) : Outcome State Fault Refusal := .next s.wdKick

/-- The watchdog's timeout, in ns. -/
def State.wdTimeout (s : State) : Nat := max 1 (s.fld R.BH_WDOG 0 10) * 10000000

/-- BH_WATCHDOG_EXPIRY: EN is 1, and no kick has come for the timeout. -/
def execBhWatchdogExpiry (s : State) : Outcome State Fault Refusal :=
  .next (if s.bit R.BH_WDOG 15 && decide (s.bh.kicked + s.wdTimeout ≤ s.uptime) then s.bhReset 1 else s)

/-- LOCKUP_RESET. -/
def execLockupReset (s : State) : Outcome State Fault Refusal := .next (if s.bhCore.lockup then s.bhReset 4 else s)

/-! ## Oscillator and system time (R421, R422) -/

/-- A pulse of BH_CMD.TSET. -/
def State.timeSet (s : State) : State :=
  if s.stkState = 0 then s.setBh { s.bh with tset := true } else s.orReg R.BH_EVT 1

/-- TSET. -/
def execTset (s : State) : Outcome State Fault Refusal := .next s.timeSet

/-- PLL_LOCK: LOCK sets; at power-on the core then fetches from the boot ROM (R447). -/
def execPllLock (s : State) : Outcome State Fault Refusal :=
  let s1 := (s.setBit R.BH_CLK 0 true).reoffer
  .next (if s.bhCore.mode == .reset then (let s2 := s1.bhStart; s2.setBh { s2.bh with kicked := s2.uptime }) else s1)

/-- LOSS_OF_LOCK: the device is no candidate for stroke master. -/
def execLossOfLock (s : State) : Outcome State Fault Refusal :=
  if s.bit R.BH_CLK 0 then
    let s1 := (s.setBit R.BH_CLK 0 false).orReg R.BH_CLK 2
    .next s1.reoffer
  else .next s

/-- A clock runs on by tenths of its cycles. -/
def State.addClock (s : State) (n tenths : Nat) : State :=
  { s with clock := mapSet (fun _ => 0) s.clock n (mapGet (fun _ => 0) s.clock n + tenths) }

/-- Every powered crew's clock runs for one tick: a tenth of a cycle for each 10 MHz (R397); and the boathouse core's, at 400 MHz
(R415). -/
def State.runClocks (s : State) : State :=
  ((List.range 96).foldl (fun t c => if t.crewOn c then t.addClock c (t.fld (R.PWR_CLKEFF c) 0 8) else t) s).addClock 96 40

/-- System time moves one tick: loaded by a TSET, else 10 ns on, and a 10 ns step of a slew at most every 100 µs (R77). (log entry 1, DESIGN CHOICE) -/
def State.moveTime (s : State) : State :=
  if s.bh.tset then { s with time := (s.reg64 (R.BH_TIMESET 0)).toNat / 10 * 10, bh := { s.bh with tset := false } }
  else
    let n := s.stroke.ticks + 1
    if 10000 ≤ n ∧ 10 ≤ s.stroke.slew then { s with time := s.time + 20, stroke := { s.stroke with slew := s.stroke.slew - 10, ticks := 0 } }
    else if 10000 ≤ n ∧ s.stroke.slew ≤ -10 then { s with stroke := { s.stroke with slew := s.stroke.slew + 10, ticks := 0 } }
    else { s with time := s.time + 10, stroke := { s.stroke with ticks := min 10000 n } }

/-- The facility's endpoint IDs (R431): those of BH_FAC_EID that are not 0. -/
def State.facility (s : State) : List Nat := [s.fld R.BH_FAC_EID 0 8, s.fld R.BH_FAC_EID 8 8].filter (fun e => e != 0)

/-- PlatformEventMessage to the facility on every new bit of PACE_EVT, PWR_FLT, AIN_OPEN and LL_EVT (R429): the message names the
register by its place in that list, and the new bits. (log entry 49, DESIGN CHOICE) -/
def State.platformEvents (s : State) : State :=
  let now : Vector Word 4 := #v[s.reg R.PACE_EVT, s.reg R.PWR_FLT, s.reg R.AIN_OPEN, s.reg R.LL_EVT]
  let s1 := (List.finRange 4).foldl (fun (t : State) i =>
    let m := now.get i &&& ~~~ (s.bh.seen.get i)
    if m != 0 && s.firmware then
      s.facility.foldl (fun u e => u.send (.pldm e 0 [BitVec.ofNat 8 i.val, m.setWidth 8, (m >>> 8).setWidth 8])) t
    else t) s
  s1.setBh { s1.bh with seen := now }

/-- TIMEBASE_TICK. (log entry 1, DESIGN CHOICE) -/
def execTimebaseTick (s : State) : Outcome State Fault Refusal := .next s.runClocks.moveTime.platformEvents.faultEdge

/-- TIMER_EXPIRY. -/
def execTimerExpiry (s : State) : Outcome State Fault Refusal :=
  .next (if s.bit R.BH_TMR_CTRL 0 then s.orReg R.BH_TMR_CTRL 2 else s)

/-- A write of BH_DBELL_SET. -/
def State.bhDoorbell (s : State) (bits : Word) : State := s.orReg R.BH_DBELL_STAT bits

/-- BH_DBELL_SET. -/
def execBhDbellSet (bits : Word) (s : State) : Outcome State Fault Refusal := .next (s.bhDoorbell bits)

/-! ## Flash (R423–R426) -/

/-- First byte of an image slot: 0 A, 1 B. -/
def slotBase (k : Nat) : Nat := k * 0x1000000

/-- The image slot a byte lies in. -/
def slotAt (b : Nat) : Option Nat := if b % 0x1000000 < 0xE00000 then some (b / 0x1000000 % 2) else none

/-- BH_FL_ADDR. -/
def State.flAddr (s : State) : Nat := (s.reg32 R.BH_FL_ADDR_LO).toNat % 0x2000000

/-- Why a command at an offset is refused: 1 busy, 2 locked slot, 3 locked bank. -/
def State.flWhy (s : State) (b : Nat) : Option Nat :=
  if s.bh.flashOp.isSome then some 1
  else if s.bh.locked.isSome && slotAt b == s.bh.locked then some 2
  else if s.bit R.BH_FL_LOCK (b / 0x1000000) then some 3
  else none

/-- A flash command starts, or is refused with ERR. -/
def State.flStart (s : State) (op : FlashOp) : State :=
  match s.flWhy s.flAddr with
  | some w => (s.setFld R.BH_FL_STAT 3 2 w).orReg R.BH_FL_STAT 4
  | none => (s.setBit R.BH_FL_STAT 0 true).setBh { s.bh with flashOp := some op }

/-- A pulse of BH_FL_CMD.ERASE. -/
def State.flErase (s : State) : State := s.flStart (.erase (s.flAddr / 0x10000))

/-- The bytes of BH_FL_BUF. -/
def State.flBuf (s : State) : List Byte :=
  (List.range 128).flatMap (fun i => [(s.reg (R.BH_FL_BUF i)).setWidth 8, ((s.reg (R.BH_FL_BUF i)) >>> 8).setWidth 8])

/-- A pulse of BH_FL_CMD.PROG. -/
def State.flProg (s : State) : State := s.flStart (.prog (s.flAddr / 256) s.flBuf)

/-- ERASE. -/
def execErase (s : State) : Outcome State Fault Refusal := .next s.flErase

/-- PROG. -/
def execProg (s : State) : Outcome State Fault Refusal := .next s.flProg

/-- Flash with a run of bytes written. -/
def flashPut (m : List Host.Cell) (b : Nat) (bytes : List Byte) : List Host.Cell :=
  ((List.range bytes.length).zip bytes).foldl (fun x p => mapSet flashDefault x (b + p.1) p.2) m

/-- FLASH_DONE: the sector is erased, or the page takes the bytes of the buffer. (log entry 52, DESIGN CHOICE) -/
def execFlashDone (s : State) : Outcome State Fault Refusal :=
  match s.bh.flashOp with
  | none => .next s
  | some op =>
    let m := match op with
      | .erase n => s.flash.filter (fun p => p.1 / 0x10000 != n)
      | .prog n bytes => flashPut s.flash (n * 256) bytes
    .next (({ s with flash := m }.setBh { s.bh with flashOp := none }).setBit R.BH_FL_STAT 0 false |>.orReg R.BH_FL_STAT 2)

/-- Word i of the image in a slot. -/
def State.imgWord (s : State) (k i : Nat) : Word := s.flashWord (slotBase k + 2 * i)

/-- A 32-bit field of an image. -/
def State.imgLong (s : State) (k i : Nat) : Nat := (s.imgWord k (i + 1) ++ s.imgWord k i).toNat

/-- Words of an image, as numbers of bytes. -/
def State.imgBytes (s : State) (k i n : Nat) : List Nat :=
  (List.range n).flatMap (fun j => [(s.imgWord k (i + j)).toNat % 256, (s.imgWord k (i + j)).toNat / 256])

/-- The image in a slot is valid (R424). (log entry 66, DESIGN CHOICE) -/
def State.imgValid (s : State) (k : Nat) : Bool :=
  let len := s.imgLong k 6
  let words := fun i n => (List.range n).map (fun j => s.imgWord k (i + j))
  s.imgWord k 0 == 0x5642 && s.imgWord k 1 == 0x4843 && s.imgWord k 2 == 1
    && decide (s.imgLong k 28 = (crc32 (s.imgBytes k 0 28)).toNat) && s.imgBytes k 12 16 == sha256 (s.imgBytes k 32 len)
    && decide (s.imgLong k 10 ≤ len) && decide (s.imgLong k 8 < s.imgLong k 10)
    && (match s.bh.keyFuse with
        | none => true
        | some digest => (s.imgWord k 3).getLsbD 0 && Config.signatureOk digest (words 0 28) (words (32 + len) 48))

/-- The ROM boots the image of a slot: LOADLEN words copied, LAST, the slot write-locked, and the jump (R425). -/
def State.bootSlot (s : State) (k : Nat) : State :=
  let n := s.imgLong k 10
  let s1 := s.writeWords ((List.range n).map (fun i => (0x08000000 + i, s.imgWord k (32 + i))))
  let s2 := (s1.setBit R.BH_BOOT 4 (k == 1)).setBh { s1.bh with locked := some k }
  s2.setCore .boathouse { s2.core .boathouse with pc := BitVec.ofNat 32 (0x08000000 + s.imgLong k 8) }

/-- HST_BOOTSTAT as firmware writes it: the phase, SLOTB and FALLBACK. -/
def State.setPhase (s : State) (p : Nat) : State :=
  (s.setBh { s.bh with phase := p }).setReg R.HST_BOOTSTAT
    (BitVec.ofNat 16 (p + bitIf (s.bh.locked == some 1) 4 + bitIf (s.bit R.BH_BOOT 5) 5))

/-- The choice of R425. (log entry 7, DESIGN CHOICE) -/
def State.bootChoose (s : State) : State :=
  let pref := s.bit R.BH_BOOT 0
  let trial := s.bit R.BH_BOOT 1
  let tries := s.fld R.BH_BOOT 2 2
  let back := trial && tries == 0
  let s1 := if back then (s.setBit R.BH_BOOT 1 false).setBit R.BH_BOOT 0 (!pref)
    else if trial then
      let t := s.setFld R.BH_BOOT 2 2 (tries - 1)
      t.setBh { t.bh with bootRec := t.reg R.BH_BOOT &&& 0x000F }
    else s
  let cand := if (if back then !pref else pref) then 1 else 0
  if s1.imgValid cand then s1.bootSlot cand
  else if s1.imgValid (1 - cand) then (s1.setBit R.BH_BOOT 5 true).bootSlot (1 - cand)
  else ((s1.setBit R.BH_BOOT 6 true).setBh { s1.bh with locked := none }).setPhase 6

/-- The boot ROM is in recovery, and listens (R425, R474). -/
def State.recovering (s : State) : Bool := s.inRom && s.bit R.BH_BOOT 6

/-- FIRMWARE_UPDATE: PLDM type 5 writes the slot not booted and sets it for trial (R425, R429); not into a locked bank, and not
more than a slot holds. In recovery the ROM takes an image too. (log entry 66, DESIGN CHOICE) -/
def execFirmwareUpdate (image : List (BitVec 8)) (s : State) : Outcome State Fault Refusal :=
  let k := if s.bit R.BH_BOOT 4 then 0 else 1
  if (s.firmware || s.recovering) && decide (image.length ≤ 0xE00000) && s.bh.flashOp.isNone && !(s.bit R.BH_FL_LOCK k) then
    let m := s.flash.filter (fun p => !(decide (slotBase k ≤ p.1) && decide (p.1 < slotBase k + 0xE00000)))
    let s1 := { s with flash := flashPut m (slotBase k) image }
    let s2 := s1.setReg R.BH_BOOT ((s1.reg R.BH_BOOT &&& 0xFFF0) ||| BitVec.ofNat 16 (k + 2 + 12))
    .next (s2.setBh { s2.bh with bootRec := s2.reg R.BH_BOOT &&& 0x000F })
  else .next s

/-! ## I3C, MCTP and PLDM (R427–R432) -/

/-- The port is a target in I3C mode. -/
def State.i3cTarget (s : State) (n : Nat) : Bool :=
  s.bit (R.BH_I3C_CTRL n) 0 && !(s.bit (R.BH_I3C_CTRL n) 1) && !(n == 1 && s.bit (R.BH_I3C_CTRL n) 2)

/-- The dynamic address of a port, and whether it has one. -/
def State.setDaddr (s : State) (n : Nat) (a : BitVec 7) (valid : Bool) : State :=
  (s.setFld (R.BH_I3C_STAT n) 1 7 a.toNat).setBit (R.BH_I3C_STAT n) 8 valid

/-- The state with a port beside its registers set. -/
def State.setI3c (s : State) (n : Fin 2) (x : I3c) : State := s.setBh { s.bh with i3c := s.bh.i3c.set n x }

/-- Big-endian bytes of a length, as GETMWL and GETMRL answer it. -/
def beWord (n : Nat) : List Byte := [BitVec.ofNat 8 (n / 256), BitVec.ofNat 8 n]

/-- CCC: a common command code at a target port (R427); a direct code that is not supported is not acknowledged (R16, log entry 80). What identity and status codes answer is not stated: free values. (log entry 50, PRESUMED) -/
def execCcc (n : Fin 2) (code : CccCmd) (s : State) : Outcome State Fault Refusal :=
  let p := n.val
  let has := s.bit (R.BH_I3C_STAT p) 8
  let x := s.bh.i3c.get n
  let free := fun (k : Nat) => let d := s.drawFree; d.2.send (.i3c p ((List.range k).map (fun i => (d.1 >>> (8 * i)).setWidth 8)))
  .next (if !(s.i3cTarget p) then s
    else match code with
    | .entdaa a => if has then s else s.setDaddr p a true
    | .setdasa st a => if s.fld (R.BH_I3C_CTRL p) 3 7 = st.toNat ∧ !has then s.setDaddr p a true else s
    | .setnewda a => if has then s.setDaddr p a true else s
    | .rstdaa => s.setDaddr p 0 false
    | .enec e => s.setI3c n { x with ev := x.ev ||| e }
    | .disec e => s.setI3c n { x with ev := x.ev &&& ~~~ e }
    | .setmwl v => s.setI3c n { x with mwl := min 256 v.toNat }
    | .setmrl v => s.setI3c n { x with mrl := min 256 v.toNat }
    | .getmwl => if has then s.send (.i3c p (beWord x.mwl)) else s
    | .getmrl => if has then s.send (.i3c p (beWord x.mrl)) else s
    | .getpid => if has then free 6 else s
    | .getbcr => if has then free 1 else s
    | .getdcr => if has then free 1 else s
    | .getstatus => if has then free 2 else s
    | .rstact _ => s
    | .other c => if has ∧ 0x80 ≤ c.toNat then s.send (.i3cNack p) else s)

/-- I3C_TIMEOUT: a target port that holds the bus releases it. -/
def execI3cTimeout (n : Fin 2) (s : State) : Outcome State Fault Refusal :=
  .next (if s.bit (R.BH_I3C_CTRL n.val) 0 && !(n.val == 1 && s.bit (R.BH_I3C_CTRL n.val) 2) then
    (s.setBit (R.BH_I3C_STAT n.val) 0 false).orReg (R.BH_I3C_EVT n.val) 0x20 else s)

/-- SET_ENDPOINT_ID (R428): the bus owner assigns the endpoint ID; 0 and 0xFF name no endpoint (log entry 45). -/
def execSetEndpointId (n : Fin 2) (eid : BitVec 8) (s : State) : Outcome State Fault Refusal :=
  .next (if s.firmware && s.bit (R.BH_I3C_CTRL n.val) 0 && eid != 0 && eid != 0xFF then s.setBh { s.bh with eid := eid.toNat } else s)

/-- Little-endian bytes of a number. -/
def leB (n v : Nat) : List Byte := (List.range n).map (fun i => BitVec.ofNat 8 (v / 256 ^ i))

/-- A little-endian field of a payload. -/
def leField (bs : List Byte) (o n : Nat) : Nat := ((bs.drop o).take n).foldr (fun b acc => b.toNat + 256 * acc) 0

/-- The firmware answers a PLDM request. -/
def State.answerPldm (s : State) (eid : BitVec 8) (code : Byte) (payload : List Byte) : State := s.send (.pldm eid.toNat code payload)

/-- A type 63 request is handled by running firmware, its length checked; those that change something only for the facility. -/
def State.pldm63 (s : State) (eid : BitVec 8) (payload : List Byte) (len : Nat) (own : Bool) (f : State → State) : State :=
  if !s.firmware then s
  else if own && !(s.facility.contains eid.toNat) then s.answerPldm eid 0x80 []
  else if payload.length ≠ len then s.answerPldm eid 0x02 []
  else f s

/-- The bytes of a commitment from TARGET on (R430). -/
def Commitment.bytes (c : Commitment) : List Byte :=
  leB 4 c.target ++ leB 4 c.floor ++ leB 2 c.up ++ leB 2 c.down ++ leB 1 c.band ++ leB 1 c.senscap ++ leB 1 c.slot ++ leB 1 c.step

/-- A commitment from the payload of ProposeCommitment. -/
def commitmentOf (bs : List Byte) : Commitment where
  id := leField bs 0 4
  target := leField bs 4 4
  floor := leField bs 8 4
  up := leField bs 12 2
  down := leField bs 14 2
  band := leField bs 16 1
  senscap := leField bs 17 1
  slot := leField bs 18 1
  step := leField bs 19 1

/-- Every field lies in the range of its PACE_ register (R431). -/
def Commitment.inRange (c : Commitment) : Bool :=
  c.id != 0 && decide (c.target ≤ 1500000) && decide (c.floor ≤ 1500000) && decide (1 ≤ c.up) && decide (c.up ≤ 10000)
    && decide (1 ≤ c.down) && decide (c.down ≤ 10000) && decide (5 ≤ c.band) && decide (c.band ≤ 100)
    && decide (10 ≤ c.senscap) && decide (c.senscap ≤ 100)

/-- GET_PACE_COMMITMENT. -/
def execGetPaceCommitment (eid : BitVec 8) (payload : List (BitVec 8)) (s : State) : Outcome State Fault Refusal :=
  .next (s.pldm63 eid payload 0 false (fun t =>
    t.answerPldm eid 0 (leB 1 t.commitState ++ leB 4 (t.reg32 R.BH_COMMIT_ID_LO).toNat ++ leB 4 (t.reg32 R.BH_PROP_ID_LO).toNat
      ++ ((t.bh.commit.map (fun c => c.1.bytes)).getD (List.replicate 16 0)))))

/-- PROPOSE_COMMITMENT. -/
def execProposeCommitment (eid : BitVec 8) (payload : List (BitVec 8)) (s : State) : Outcome State Fault Refusal :=
  .next (s.pldm63 eid payload 20 true (fun t =>
    let c := commitmentOf payload
    if c.inRange then
      ((t.setBh { t.bh with prop := some c }).setReg32 R.BH_PROP_ID_LO (BitVec.ofNat 32 c.id)).answerPldm eid 0 []
    else t.answerPldm eid 0x82 []))

/-- The PACE shadow set as a commitment writes it. -/
def State.writeShadow (s : State) (c : Commitment) : State :=
  let s1 := (s.setReg32 R.PACE_TARGET_LO (BitVec.ofNat 32 c.target)).setReg32 R.PACE_FLOOR_LO (BitVec.ofNat 32 c.floor)
  let s2 := ((s1.setReg R.PACE_SLEW_UP (BitVec.ofNat 16 c.up)).setReg R.PACE_SLEW_DOWN (BitVec.ofNat 16 c.down)).setReg R.PACE_BAND
    (BitVec.ofNat 16 c.band)
  (s2.setReg R.PACE_SENSCAP (BitVec.ofNat 16 c.senscap)).setReg R.PACE_STAGGER (BitVec.ofNat 16 (c.slot + c.step * 256))

/-- The start of the first governor period that begins a commitment's stagger after now: periods begin on whole milliseconds. (log entry 48, DEDUCED) -/
def State.inForceAt (s : State) (c : Commitment) : Nat := (s.time + c.slot * c.step * 100000000 + 999999) / 1000000 * 1000000

/-- The firmware applies a commitment: shadow set, APPLY, BH_COMMIT_ID, and the record in the configuration area. -/
def State.applyCommitment (s : State) (c : Commitment) : State :=
  let s1 := ((s.writeShadow c).paceApply).setReg32 R.BH_COMMIT_ID_LO (BitVec.ofNat 32 c.id)
  s1.setBh { s1.bh with commit := some (c, s.inForceAt c), recorded := some c }

/-- CONFIRM_COMMITMENT. -/
def execConfirmCommitment (eid : BitVec 8) (payload : List (BitVec 8)) (s : State) : Outcome State Fault Refusal :=
  .next (s.pldm63 eid payload 4 true (fun t =>
    let id := leField payload 0 4
    match t.bh.prop, t.bh.commit with
    | some c, _ =>
      if c.id = id then
        let t1 := (t.applyCommitment c).setReg32 R.BH_PROP_ID_LO 0
        (t1.setBh { t1.bh with prop := none }).answerPldm eid 0 (leB 8 (t.inForceAt c))
      else t.answerPldm eid 0x81 []
    | none, some (c, at_) => if c.id = id then t.answerPldm eid 0 (leB 8 at_) else t.answerPldm eid 0x81 []
    | none, none => t.answerPldm eid 0x81 []))

/-- WITHDRAW_PROPOSAL. -/
def execWithdrawProposal (eid : BitVec 8) (payload : List (BitVec 8)) (s : State) : Outcome State Fault Refusal :=
  .next (s.pldm63 eid payload 4 true (fun t =>
    if t.bh.prop.map Commitment.id = some (leField payload 0 4) then
      ((t.setBh { t.bh with prop := none }).setReg32 R.BH_PROP_ID_LO 0).answerPldm eid 0 []
    else t.answerPldm eid 0x81 []))

/-- GET_POWER_READING. -/
def execGetPowerReading (eid : BitVec 8) (payload : List (BitVec 8)) (s : State) : Outcome State Fault Refusal :=
  .next (s.pldm63 eid payload 0 false (fun t =>
    t.answerPldm eid 0 (leB 4 (t.reg32 R.PWR_PIN_LO).toNat ++ leB 4 (t.reg32 R.PACE_TRAJ_LO).toNat
      ++ leB 4 (t.reg32 R.PACE_DEMAND_LO).toNat ++ leB 4 (t.reg32 R.PACE_BALLAST_LO).toNat ++ leB 2 (t.reg R.PACE_STAT).toNat
      ++ leB 8 t.stkCount ++ leB 8 t.time)))

/-- PLATFORM_MONITORING_REQUEST (R429): PLDM types 0 and 2; what a PDR holds is not stated, a free value. A type or command that is
not supported gets the standard's error response (R16). (log entry 80, PRESUMED) -/
def execPlatformMonitoringRequest (eid : BitVec 8) (query : PldmQuery) (s : State) : Outcome State Fault Refusal :=
  .next (if !s.firmware then s
    else match query with
    | .discovery => s.answerPldm eid 0 [0, 2, 5, 63]
    | .numeric n =>
      s.answerPldm eid 0 (leB 4 (match n.val with
        | 0 => (s.reg32 R.PWR_PIN_LO).toNat
        | 1 => (s.reg R.PWR_VIN).toNat
        | 2 => (s.reg (R.AIN_TEMP s.pwr.inForce.inlet)).toNat
        | k => (s.reg (R.BH_TACH_RPM (k - 3))).toNat))
    | .stateSensor n => s.answerPldm eid 0 (leB 2 (s.reg (if n.val = 0 then R.PACE_STAT else R.PWR_FLT)).toNat)
    | .other type _ => s.answerPldm eid (if [0, 2, 5, 63].contains type.toNat then 0x05 else 0x20) []
    | .pdr _ => let d := s.drawFree; d.2.answerPldm eid 0 ((List.range 8).map (fun i => (d.1 >>> (8 * i)).setWidth 8)))

/-- Step 1 of R471: the recorded commitment is applied, and HST_BOOTSTAT reads POWERING. -/
def State.firmwareStart (s : State) : State :=
  (match s.bh.recorded with
   | some c => s.applyCommitment c
   | none => s).setPhase 2

/-- BOOT: the boot ROM chooses, verifies and copies an image, or enters recovery; the firmware of an image that boots after VBH
power-on goes on with R471. -/
def execBoot (s : State) : Outcome State Fault Refusal :=
  .next (if s.inRom then
    let s1 := s.bootChoose
    if s1.firmware && s1.bh.commit.isNone && s1.pwr.stage1 then s1.firmwareStart else s1
  else s)

/-- The PACE shadow set differs from the commitment in force: FOREIGN (R432), looked at in each governor period. -/
def State.foreignCheck (s : State) : State :=
  match s.bh.commit with
  | none => s
  | some (c, _) =>
    if s.firmware && s.regs != (s.writeShadow c).regs then
      let s1 := s.orReg R.BH_COMMIT_STAT 4
      if s.bit R.BH_COMMIT_STAT 2 then s1 else s.facility.foldl (fun t e => t.send (.pldm e 0 [4, 4, 0])) s1
    else s

/-! ## UART and SPI (R433, R434) -/

/-- The state with a UART set. -/
def State.setUart (s : State) (n : Fin 2) (u : Uart) : State := s.setBh { s.bh with uarts := s.bh.uarts.set n u }

/-- A pin has a function, and is not being switched. -/
def State.pinIs (s : State) (p f : Nat) : Bool := (s.pinHeld p).isNone && s.pinFn p == f

/-- UART_RECEIVE: with no parity set there is no parity error. -/
def execUartReceive (n : Fin 2) (v : BitVec 8) (frame parity : Bool) (s : State) : Outcome State Fault Refusal :=
  let u := s.bh.uarts.get n
  .next (if s.bit (R.BH_UART_CTRL n.val) 0 && s.pinIs (5 + 2 * n.val) 1 then
    if u.rx.length < 64 then s.setUart n { u with rx := u.rx ++ [(v, frame, parity && s.fld (R.BH_UART_CTRL n.val) 1 2 != 0)] } else s.orReg (R.BH_UART_STAT n.val) 4
  else s)

/-- A write of BH_UARTn_DATA: a byte for the FIFO, lost when it is full (log entry 47). -/
def State.uartWrite (s : State) (n : Fin 2) (v : Word) : State :=
  let u := s.bh.uarts.get n
  if u.tx.length < 64 then s.setUart n { u with tx := u.tx ++ [v.setWidth 8] } else s

/-- UART_DATA_WRITE. -/
def execUartDataWrite (n : Fin 2) (v : Word) (s : State) : Outcome State Fault Refusal := .next (s.uartWrite n v)

/-- CTS lets UART1 send: FLOW is 0, or CTS is selected and low (R433, R439). (log entry 44, PRESUMED) -/
def State.clearToSend (s : State) (n : Nat) : Bool :=
  !(n == 1 && s.bit (R.BH_UART_CTRL 1) 4) || (s.pinIs 9 1 && !(s.pinLevel 9))

/-- UART_BYTE_SENT. -/
def execUartByteSent (n : Fin 2) (s : State) : Outcome State Fault Refusal :=
  let u := s.bh.uarts.get n
  .next (match u.tx with
    | v :: rest => if s.bit (R.BH_UART_CTRL n.val) 0 && s.clearToSend n.val then (s.setUart n { u with tx := rest }).send (.uart n.val v) else s
    | [] => s)

/-- The two bytes, low first, of a completion. -/
def wordsBytes (v : BitVec 32) (wide : Bool) : List Byte :=
  (List.range (if wide then 4 else 2)).map (fun i => (v >>> (8 * i)).setWidth 8)

/-- UART_DATA_READ: an ordinary read of BH_UARTn_DATA. -/
def execUartDataRead (who : Requester) (n : Fin 2) (s : State) : Outcome State Fault Refusal :=
  let r := s.readAny who (R.BH_UART_DATA n.val) false
  .next { r.1 with lastRead := some ⟨.ok, wordsBytes (r.2.getD 0) false⟩ }

/-- A frame as wide as the settings say. -/
def frameOf (ctrl v : Word) : Word := if ctrl.getLsbD 3 then v else v &&& 0x00FF

/-- Frames a 64-byte FIFO holds. -/
def frameRoom (ctrl : Word) : Nat := if ctrl.getLsbD 3 then 32 else 64

/-- A write of BH_SPI_DATA: a frame for the FIFO, lost when it is full; the first one starts with the settings as they are. (log entry 47, DEDUCED) -/
def State.spiWrite (s : State) (v : Word) : State :=
  let x := s.bh.spi
  let c := s.reg R.BH_SPI_CTRL
  if x.tx.length < frameRoom c then
    s.setBh { s.bh with spi := { x with tx := x.tx ++ [v], ctrl := if x.tx.isEmpty then some c else x.ctrl } }
  else s

/-- SPI_DATA_WRITE. -/
def execSpiDataWrite (v : Word) (s : State) : Outcome State Fault Refusal := .next (s.spiWrite v)

/-- SPI_FRAME_DONE: a frame has gone out and another has come in; the next starts with the settings as they are now. SPI_MISO that no
pin selects reads 0 (R438, R439). (log entry 53, DEDUCED) -/
def execSpiFrameDone (miso : Word) (s : State) : Outcome State Fault Refusal :=
  let x := s.bh.spi
  .next (match x.tx with
    | [] => s
    | v :: rest =>
      let c := x.ctrl.getD (s.reg R.BH_SPI_CTRL)
      if s.bit R.BH_SPI_CTRL 0 then
        let rx := if x.rx.length < frameRoom c then x.rx ++ [frameOf c (if s.pinIs 12 1 then miso else 0)] else x.rx
        ((s.setBh { s.bh with spi := ⟨rest, rx, if rest.isEmpty then none else some (s.reg R.BH_SPI_CTRL)⟩ }).send
          (.spi (frameOf c v))).orReg R.BH_SPI_STAT 2
      else s)

/-! ## Protection (R445) -/

/-- A protection source: recorded and, where enabled, a shutdown ordered. -/
def State.protect (s : State) (n : Nat) : State :=
  if s.bit R.BH_PROT_EN n then (s.orReg R.BH_PROT_CAUSE (BitVec.ofNat 16 (2 ^ n))).ifOn State.orderShutdown else s

/-- SHUTIN. -/
def execShutin (s : State) : Outcome State Fault Refusal := .next (if s.pinIs 23 1 then s.protect 0 else s)

/-! ## Pumps (R435, R436) -/

/-- The state with a tachometer set. -/
def State.setTach (s : State) (n : Fin 4) (t : Tach) : State := s.setBh { s.bh with tachs := s.bh.tachs.set n t }

/-- RPM of the last PPR + 1 intervals, kept within 60–30,000. -/
def rpmOf (ints : List Nat) : Word :=
  let sum := max 1 ints.sum
  BitVec.ofNat 16 (max 60 (min 30000 ((2 * 60000000000 + sum) / (2 * sum))))

/-- TACH_EDGE: a falling edge with the width of its pulse in ns; below 10 µs it is ignored. -/
def execTachEdge (n : Fin 4) (width : Nat) (s : State) : Outcome State Fault Refusal :=
  let t := s.bh.tachs.get n
  .next (if width < 10000 ∨ !(s.pinIs (18 + n.val) 1) then s
    else match t.last with
    | none => s.setTach n { t with last := some s.uptime }
    | some l =>
      let ints := ((s.uptime - l) :: t.ints).take 4
      let ppr := s.fld (R.BH_TACH_CFG n.val) 0 2 + 1
      let s1 := s.setTach n ⟨some s.uptime, ints⟩
      if ints.length < ppr then s1 else s1.setReg (R.BH_TACH_RPM n.val) (rpmOf (ints.take ppr)))

/-- TACH_STALL: no edge for the stall time; the intervals start again at the next edge. (log entry 79, DESIGN CHOICE) -/
def execTachStall (n : Fin 4) (s : State) : Outcome State Fault Refusal :=
  let s1 := ((s.setTach n Tach.empty).setReg (R.BH_TACH_RPM n.val) 0).orReg (R.BH_TACH_STAT n.val) 1
  .next (if (s.bh.tachs.get n).last.getD 0 + s.fld (R.BH_TACH_CFG n.val) 2 8 * 100000000 ≤ s.uptime then
    if s.bit R.BH_PROT_TACH n.val then s1.protect 2 else s1
  else s)

/-- PWM_PERIOD: the period and duty written take effect. -/
def execPwmPeriod (n : Fin 2) (s : State) : Outcome State Fault Refusal :=
  .next (s.setBh { s.bh with pwm := s.bh.pwm.set n (s.reg (R.BH_PWM_PERIOD n.val), s.reg (R.BH_PWM_DUTY n.val), s.uptime) })

/-! ## Pins (R437–R440) -/

/-- A switch away from an I3C pin while its port is BUSY (R440). (log entry 51, DEDUCED) -/
def State.pinLost (s : State) (p : Nat) : State :=
  if p < 4 ∧ s.pinFn p = 1 ∧ s.bit (R.BH_I3C_STAT (p / 2)) 0 then
    s.orReg (R.BH_I3C_EVT (p / 2)) (if p / 2 = 1 ∧ s.bit (R.BH_I3C_CTRL 1) 2 then 8 else 0x20)
  else s

/-- A write of MIO_FSELn: a change of FSEL begins a switch, the keeper holding the pin's level. (log entry 51, DEDUCED) -/
def State.fselWrite (s : State) (p : Nat) (v : Word) : State :=
  let old := s.fld (R.MIO_FSEL p) 0 2
  let s1 := s.setReg (R.MIO_FSEL p) (v &&& 0x001F)
  if v.toNat % 4 = old then s1
  else
    let rest := s.bh.mioSwitch.filter (fun x => x.1 != p)
    (s1.setBh { s1.bh with mioSwitch := rest ++ [(p, s.pinLevel p)] }).pinLost p

/-- MIO_FSEL_WRITE. -/
def execMioFselWrite (p : Fin 24) (v : Word) (s : State) : Outcome State Fault Refusal := .next (s.fselWrite p.val v)

/-- MIO_SWITCH_END: the keeper releases, and the new function has the pin. (log entry 51, DEDUCED) -/
def execMioSwitchEnd (p : Fin 24) (s : State) : Outcome State Fault Refusal :=
  .next (if (s.pinHeld p.val).isNone then s
    else s.setBh { s.bh with mioSwitch := s.bh.mioSwitch.filter (fun x => x.1 != p.val)
                             mioFn := mapSet (fun _ => 1) s.bh.mioFn p.val (s.fld (R.MIO_FSEL p.val) 0 2) })

/-! ## Analog inputs (R441–R444) -/

/-- The base-2 logarithm of n ÷ d, in 2⁻⁶⁴, both above 0. -/
def log2Ratio (n d : Nat) : Int :=
  let y := n * 2 ^ (fxBits + d.log2) / (d * 2 ^ n.log2)
  let e : Int := (n.log2 : Int) - d.log2
  if y < 2 ^ fxBits then (e - 1) * 2 ^ 64 + log2Bits 64 (2 * y) 0 else e * 2 ^ 64 + log2Bits 64 y 0

/-- The natural logarithm of n ÷ d, in 2⁻⁶⁴. -/
def lnRatio (n d : Nat) : Int := log2Ratio n d * 12786308645202655660 / 2 ^ 64

/-- The inverse of a temperature in 0.01 K, in 2⁻⁹⁶ per K. -/
def invTemp (t : Nat) : Int := 100 * 2 ^ 96 / t

/-- What a result says (R442–R444). -/
inductive AinResult where
  | valid (temp : Int)
  | openWire
  | short
  | unstated
  deriving DecidableEq, Repr

/-- The reading of a conversion: T from the ratio with the channel's constants; a BETA of 0, an RNOM of 0 leave it unstated. -/
def ainReading (q rref rnom beta : Nat) : AinResult :=
  if rnom = 0 ∨ beta = 0 then .unstated
  else if rref * q = 0 then .short
  else
    let inv := invTemp 29815 + lnRatio (rref * q) ((2 ^ 24 - q) * rnom * 10) * 2 ^ 32 / beta
    if invTemp 23315 < inv then .openWire
    else if inv < invTemp 42315 then .short
    else .valid ((200 * 2 ^ 96 + inv) / (2 * inv) - 27315)

/-- AIN_CONVERSION_END. -/
def execAinConversionEnd (ch : Fin 8) (ratio : BitVec 24) (split : Bool) (s : State) : Outcome State Fault Refusal :=
  .next (if s.bit (R.AIN_CFG ch.val) 0 then
    s.setBh { s.bh with ainEnd := s.bh.ainEnd.filter (fun x => x.1 != ch.val) ++ [(ch.val, ⟨ratio, split, s.uptime⟩)] } else s)

/-- The governor's view of a channel (R409): lost, until three valid conversions in a row. -/
def State.ainLost (s : State) (ch : Fin 8) (bad : Bool) : State :=
  let n := if bad then 0 else s.pwr.good.get ch + 1
  let m := BitVec.ofNat 8 (2 ^ ch.val)
  let lost := if bad then s.pwr.open_ ||| m else if 3 ≤ n then s.pwr.open_ &&& ~~~ m else s.pwr.open_
  { s with pwr := { s.pwr with open_ := lost, good := s.pwr.good.set ch (min 3 n) } }

/-- A discarded result: OPEN or SHORT. -/
def State.ainBad (s : State) (ch : Fin 8) (reg : Nat) : State :=
  ((s.setReg (R.AIN_CSTAT ch.val) 0).orReg reg (BitVec.ofNat 16 (2 ^ ch.val))).ainLost ch true

/-- A valid result: posted, and held against the INLET limit (R445). -/
def State.ainGood (s : State) (ch : Fin 8) (q : BitVec 24) (temp : BitVec 16) : State :=
  let s1 := (((s.setReg32 (R.AIN_RES_LO ch.val) (q.setWidth 32)).setReg (R.AIN_TEMP ch.val) temp).setReg (R.AIN_CSTAT ch.val) 1).ainLost ch false
  if s.fld R.BH_PROT_TMAX 0 3 = ch.val then
    let hot := decide ((2 * s.fld R.BH_PROT_TMAX 3 13 : Nat) < temp.toInt)
    let n := if hot then s.bh.inletHot + 1 else 0
    let s2 := s1.setBh { s1.bh with inletHot := min 2 n }
    if 2 ≤ n then s2.protect 1 else s2
  else s1

/-- AIN_RESULT_POST: 50 µs after the conversion has ended. -/
def execAinResultPost (ch : Fin 8) (s : State) : Outcome State Fault Refusal :=
  match s.bh.ainEnd.find? (fun x => x.1 == ch.val) with
  | none => .next s
  | some (_, c) =>
    if s.uptime < c.ended + 50000 then .next s else
    let n := ch.val
    let s1 := (s.setBh { s.bh with ainEnd := s.bh.ainEnd.filter (fun x => x.1 != n) }).orReg R.AIN_DONE (BitVec.ofNat 16 (2 ^ n))
    let offs := s.reg (R.AIN_OFFS n)
    if s.bit (R.AIN_CFG n) 4 && c.split then .next (s1.ainBad ch R.AIN_OPEN)
    else
      match ainReading c.ratio.toNat (s.reg (R.AIN_RREF n)).toNat (s.reg (R.AIN_RNOM n)).toNat (s.reg (R.AIN_BETA n)).toNat with
      | .openWire => .next (s1.ainBad ch R.AIN_OPEN)
      | .short => .next (s1.ainBad ch R.AIN_SHORT)
      | .valid t => .next (s1.ainGood ch c.ratio (BitVec.ofInt 16 t + offs))
      | .unstated => let d := s1.drawFree; .next (d.2.ainGood ch c.ratio (d.1.setWidth 16))

/-! ## JTAG (R446) -/

/-- A TAP instruction is loaded, with what its data register captures. -/
def State.loadIr (s : State) (i : JtagIr) (dr : BitVec 32) : State := s.setBh { s.bh with ir := i, dr := dr }

/-- Every domain other than VBH is off. -/
def State.onlyVbh (s : State) : Bool := !s.vioOn && !s.vmeshOn && s.storeOn == 0 && s.vgwOn == 0 && s.vcOn == 0

/-- The instruction loads only while every domain other than VBH is off; else as BYPASS, and JTAGREF is set. -/
def State.loadGuarded (s : State) (i : JtagIr) : State :=
  if s.onlyVbh then s.loadIr i 0 else (s.loadIr .bypass 0).orReg R.BH_EVT 2

/-- BYPASS. -/
def execBypass (s : State) : Outcome State Fault Refusal := .next (s.loadIr .bypass 0)

/-- IDCODE. -/
def execIdcode (s : State) : Outcome State Fault Refusal := .next (s.loadIr .idcode 0x1960096F)

/-- SAMPLE_PRELOAD: the data register captures the pins, and the cells shifted in stand in the boundary register. -/
def execSamplePreload (cells : BitVec 24) (s : State) : Outcome State Fault Refusal :=
  let s1 := s.loadIr .sample s.mioIn
  .next (s1.setBh { s1.bh with bsr := cells })

/-- EXTEST. -/
def execExtest (s : State) : Outcome State Fault Refusal := .next (s.loadGuarded .extest)

/-- CLAMP. -/
def execClamp (s : State) : Outcome State Fault Refusal := .next (s.loadGuarded .clamp)

/-- HIGHZ. -/
def execHighz (s : State) : Outcome State Fault Refusal := .next (s.loadGuarded .highz)

/-- TEST_LOGIC_RESET: the TAP alone is reset; IDCODE is its instruction. -/
def execTestLogicReset (s : State) : Outcome State Fault Refusal := .next (s.loadIr .idcode 0)

/-- The run control of the boathouse core. -/
def State.setBhMode (s : State) (m : CoreMode) : State := s.setCore .boathouse { s.bhCore with mode := m }

/-- BHDEBUG: run control and memory of the boathouse core, while DBGEN is 1. (log entry 59, DEDUCED) -/
def execBhdebug (op : DebugOp) (s : State) : Outcome State Fault Refusal :=
  .next (if !(s.bit R.BH_JTAG 0) then s
    else
      let s1 := s.loadIr .bhdebug 0
      match op with
      | .halt => if s.bhCore.mode == .running then s1.setBhMode .stopped else s1
      | .step => if s.bhCore.mode == .stopped then (s1.setBhMode .running).setBh { s1.bh with step := true } else s1
      | .resume => if s.bhCore.mode == .stopped then s1.setBhMode .running else s1
      | .coreReset => s1.bhReset 3
      | .read o => s1.loadIr .bhdebug ((s.word (0x08000000 + o.toNat)).setWidth 32)
      | .write o v => s1.writeWord (0x08000000 + o.toNat) v)

end Sys2Proof.Machine
end

