-- ==== Sys2Proof/Machine/Lanes.lean ====
section
/-! DEFINITION. Lane slots (spec/13 R373–R393): activation, crews, the kill, the drain, the scrub, and retention. -/
namespace Sys2Proof.Machine
open Host

/-! ## Slots -/

/-- Bits of LANE_SLOT_EVT set; PF0 vector 2 as the summary leaves zero, and vector 0 of the slot's VF with KILLED or FREED
(R483). -/
def State.slotEvt (s : State) (k : Nat) (m : Word) : State :=
  let s1 := s.orReg (R.LANE_SLOT_EVT k) m
  let s2 := if s.laneEvents then s1 else s1.msix 0 2
  if m &&& 5 != 0 then s2.msix (k + 1) 0 else s2

/-- STATE of a slot set. -/
def State.setSlot (s : State) (k st : Nat) : State := s.setFld (R.LANE_SLOT_STAT k) 0 3 st

/-- A command for a slot is ignored. -/
def State.slotIgnored (s : State) (k : Nat) : State := s.slotEvt k 0x10

/-- ACTIVATE (R379). -/
def State.activate (s : State) (k : Nat) : State :=
  if s.slotState k = 0 && s.slotLane k != 0
      && (List.range 16).all (fun j => j == k || s.slotState j == 0 || s.slotLane j != s.slotLane k) then s.setSlot k 1
  else s.slotIgnored k

/-- ACTIVATE. -/
def execActivate (k : Fin 16) (s : State) : Outcome State Fault Refusal := .next (if s.meshUp then s.activate k.val else s)

/-- RELEASE (R376, R390): through PF0 only. -/
def State.release (s : State) (who : Requester) (k : Nat) : State :=
  if who != .host then s
  else if s.slotState k = 4 then { s.setSlot k 3 with killAt := mapSet (fun _ => 0) s.killAt k s.uptime }
  else s.slotIgnored k

/-- RELEASE. -/
def execRelease (who : Requester) (k : Fin 16) (s : State) : Outcome State Fault Refusal :=
  .next (if s.meshUp then s.release who k.val else s)

/-- A write of LANE_SLOT_CMD: each pulse acts, ACTIVATE first. (log entry 75, DESIGN CHOICE) -/
def State.slotCmd (s : State) (who : Requester) (k : Nat) (v : Word) : State :=
  let s1 := if v.getLsbD 0 then s.activate k else s
  if v.getLsbD 1 then s1.release who k else s1

/-- A write of LANE_SLOT_ID or LANE_SLOT_CTRL: ignored unless the slot is FREE. -/
def State.slotWordWrite (s : State) (k a : Nat) (v m : Word) : State := if s.slotState k = 0 then s.setReg a (v &&& m) else s

/-- A write of LANE_CREW (R378, R380); no ballast runs on in a crew that joins a QUIET lane (R382). -/
def State.crewWrite (s : State) (c : Nat) (v : Word) : State :=
  let k := v.toNat % 16
  let refused := s.orReg (R.LANE_CEVT c) 4
  if v.getLsbD 4 then
    if !(s.crewAssigned c) && s.slotState k == 1 then
      let s1 := s.setReg (R.LANE_CREW c) (v &&& 0x0F1F)
      if s.bit (R.LANE_SLOT_CTRL k) 0 then s1.setLevel c 0 else s1
    else refused.slotIgnored k
  else if s.crewAssigned c then refused
  else s.setReg (R.LANE_CREW c) (v &&& 0x0F1F)

/-- CREW_ASSIGN: a write of LANE_CREW. -/
def execCrewAssign (crew : Fin 96) (v : Word) (s : State) : Outcome State Fault Refusal :=
  .next (if s.crewUp crew.val then s.crewWrite crew.val v else s)

/-! ## The kill (R383, R384, R391, R392) -/

/-- A queue of a killed lane is OFF; its other fields stay (R222). -/
def State.queueOff (s : State) (c q : Nat) : State :=
  if s.reg (R.COX_Q_STAT c q) &&& 3 = 0 then s else s.clrReg (R.COX_Q_STAT c q) 3

/-- A command of the crew cache that a kill finds under way is over, its lines gone with the others (R384): BUSY clears, with no
DONE; a range that was being zeroed is zero. (log entry 35, DEDUCED) -/
def State.ccKill (s : State) (c : Nat) : State :=
  let s1 := if (s.cache c).busy == some .disable then s.zeroStorage c else s
  (if s1.ccIsBusy c then s1.clrReg (R.COX_CC_STAT c) 1 else s1).setCache c ⟨[], none⟩

/-- A crew of the killed lane: queues OFF, seats reset, its cache emptied, its engines stopped, its hails discarded. (log entry 35, DEDUCED) -/
def State.killCrew (s : State) (c : Nat) : State :=
  let s1 := (List.range 32).foldl (fun t q => t.queueOff c q) ((s.orReg (R.LANE_CEVT c) 1).resetSeats c)
  let s2 := ((s1.clrReg (R.COX_STROKE_STAT c) 0x0300).setSched c Sched.empty).strokeForget c
  let s3 := (List.range 4).foldl (fun t n => t.dmaKill c n) s2
  { s3.ccKill c with ctl := s3.ctl.filter (fun t => !((t.advance.map Advance.target) == some c)) }

/-- A write packet into one of the crews, accepted before the kill (R385). -/
def markAccepted (cs : List Nat) (p : Packet) : Packet :=
  if p.kind == .write && p.exit == .crew && cs.contains p.dst then { p with accepted := true } else p

/-- Kill ballast (R392): a level the rules do not state in numbers, a free value, in the killed crews that may carry ballast, or
for a QUIET lane in the other crews, never below what they carry. -/
def State.killBallast (s : State) (c : Nat) : State :=
  if s.ballastOk c then
    let d := s.drawFree
    (d.2.setLevel c (max (s.ballast c) (d.1.toNat % 101))).orReg (R.PWR_BAL c) 0x80
  else s

/-- The kill of an ACTIVE slot. (log entry 35, DEDUCED) -/
def State.killSlot (s : State) (k : Nat) (retain : Bool) : State :=
  if s.slotState k != 1 then s.slotIgnored k
  else
    let cs := s.slotCrews k
    let lane := s.slotLane k
    let quiet := s.bit (R.LANE_SLOT_CTRL k) 0
    let s1 := ((s.setSlot k 2).setBit (R.LANE_SLOT_STAT k) 10 retain).addSat (R.LANE_TABLE_KILLS lane) 1
    let s2 := (cs.foldl State.killCrew s1).rmaKill lane
    let mark := fun (m : List (Nat × List Packet)) => m.map (fun p => (p.1, p.2.map (markAccepted cs)))
    let s3 := { s2 with routers := mark s2.routers, exits := mark s2.exits, meshWait := mark s2.meshWait, zeroPass := s2.zeroPass &&& ~~~ BitVec.ofNat 16 (2 ^ k)
                        killAt := mapSet (fun _ => 0) s2.killAt k s.uptime }
    let s4 := ((if quiet then (List.range 96).filter (fun c => !(cs.contains c)) else cs).foldl State.killBallast s3).reclockAll
    (s4.chKill (k + 1)).slotEvt k 1

/-- A write of LANE_KILL: RETAIN acts only through PF0 (R376). -/
def State.laneKillWrite (s : State) (who : Requester) (v : Word) : State :=
  if v.getLsbD 15 then s.killSlot (v.toNat % 16) (v.getLsbD 4 && who == .host) else s

/-- LANE_KILL: a write of LANE_KILL with GO = 1. -/
def execLaneKill (who : Requester) (v : Word) (s : State) : Outcome State Fault Refusal :=
  .next (if s.meshUp then s.laneKillWrite who (v ||| 0x8000) else s)

/-- A write of VF_KILL (R482). -/
def State.vfKill (s : State) (k : Nat) (key : Word) : State := if key = 0x8001 && s.meshUp then s.killSlot k false else s

/-- VF_KILL: of the VF of slot k, if it is there. -/
def execVfKill (k : Fin 16) (key : Word) (s : State) : Outcome State Fault Refusal :=
  .next (if (s.fn (k.val + 1)).present then s.vfKill k.val key else s)

/-! ## Drain and scrub (R385–R390) -/

/-- Nothing accepted before the kill is still on its way into the lane's memory. (log entry 35, DEDUCED) -/
def State.drained (s : State) (cs : List Nat) : Bool :=
  let free := fun (m : List (Nat × List Packet)) => m.all (fun p => p.2.all (fun q => !(q.accepted && q.kind == .write && cs.contains q.dst)))
  free s.routers && free s.exits && free s.meshWait && s.ops.all (fun o => o.todo.all (fun p => !(p.kind == .write && cs.contains p.dst)))
    && s.banks.all (fun b => !(cs.contains (b.1 / 16)) || b.2.all (fun r => !r.write))

/-- The time from the last kill or RELEASE, in 10 ns, rounded up. -/
def State.killTime (s : State) (k : Nat) : Nat := (s.uptime - mapGet (fun _ => 0) s.killAt k + 9) / 10

/-- DRAIN_END: to SCRUB, or to HELD with retention. -/
def execDrainEnd (k : Fin 16) (s : State) : Outcome State Fault Refusal :=
  .next (if s.slotState k.val == 2 && s.drained (s.slotCrews k.val) then
    if s.bit (R.LANE_SLOT_STAT k.val) 10 then
      ((s.setSlot k.val 4).setReg32 (R.LANE_SLOT_KTIME_LO k.val) (BitVec.ofNat 32 (s.killTime k.val))).slotEvt k.val 2
    else s.setSlot k.val 3
  else s)

/-- A word of the memory of a crew's lane (R386): outside the cox region. -/
def State.inLaneMem (s : State) (c w : Nat) : Bool := (inSeatMem w || inStore w) && memCrew w == c && !(s.inCoxRegion w)

/-- The lane's memory in a crew reads zero, with valid check bits. -/
def State.zeroLaneMem (s : State) (c : Nat) : State :=
  { s with mem := s.mem.filter (fun p => !(s.inLaneMem c (p.1 / 2)))
           eccOne := s.eccOne.filter (fun w => !(s.inLaneMem c w))
           eccTwo := s.eccTwo.filter (fun w => !(s.inLaneMem c w)) }

/-- The registers of a crew that the zero pass returns to Reset, and what its seats, queues and engines hold beside them (R222, R387). -/
def State.scrubCrew (s : State) (c : Nat) : State :=
  let b := crewBase c
  let s1 := ((s.zeroLaneMem c).clearSpan b (b + 0x80)).clearSpan (b + 0x106) (b + 0x108)
  let s2 := (s1.clearSpan (b + 0x10B) (b + 0x10E)).clearSpan (b + 0x1000) (b + 0x3000)
  let s3 := (s2.clearSpan (b + 0x3F01) (b + 0x3F03)).clearSpan (b + 0x4000) (b + 0x6000)
  let s4 := (s3.clearSpan (b + 0x7000) (b + 0x8000)).clearSpan (R.RMA_HAILST c) (R.RMA_HAILST c + 1)
  ((List.range 4).foldl (fun t n => t.setEng c n { Dma.empty with tag := (t.eng c n).tag }) (s4.resetSeats c)).setSched c Sched.empty

/-- A window entry of the lane returns to Reset. -/
def State.scrubWindow (s : State) (w : Nat) : State := s.clearSpan (R.WIN_BASE_LO w) (R.WIN_BASE_LO w + 16)

/-- Catch groups and calls of the lane return to Reset, calls with their values. -/
def State.scrubSync (s : State) (lane : Nat) : State :=
  let s1 := (List.range 64).foldl (fun t g => if t.cgLane g = lane then (t.setReg (R.SYN_CGCTRL g) 0).setReg (R.SYN_CGSTAT g) 0 else t) s
  (List.range 256).foldl (fun t n =>
    if t.fld (R.SYN_CALLCFG n) 0 10 = lane then (t.setReg (R.SYN_CALLCFG n) 0).setBit (R.SYN_CALLVAL (n / 16)) (n % 16) false else t) s1

/-- ZERO_PASS_END: the lane's memory is zero, and the registers of R387 hold their Reset values. -/
def execZeroPassEnd (k : Fin 16) (s : State) : Outcome State Fault Refusal :=
  .next (if s.slotState k.val == 3 then
    let lane := s.slotLane k.val
    let s1 := (s.slotCrews k.val).foldl State.scrubCrew s
    let s2 := ((s1.laneWindows lane).foldl State.scrubWindow s1).scrubSync lane
    { s2 with zeroPass := s2.zeroPass ||| BitVec.ofNat 16 (2 ^ k.val) }
  else s)

/-- A crew is UNASSIGNED again; CREG stays (R380). -/
def State.freeCrew (s : State) (c : Nat) : State := (s.setReg (R.LANE_CREW c) (s.reg (R.LANE_CREW c) &&& 0x0F00)).orReg (R.LANE_CEVT c) 2

/-- SCRUB_END: the verify pass has written again what did not read as zero, or with an error; the slot is FREE; OVERTIME past 60 µs.
(log entry 81, DESIGN CHOICE) -/
def execScrubEnd (k : Fin 16) (s : State) : Outcome State Fault Refusal :=
  .next (if s.slotState k.val == 3 && s.zeroPass.getLsbD k.val then
    let t := s.killTime k.val
    let s1 := (s.slotCrews k.val).foldl (fun x c => (x.zeroLaneMem c).freeCrew c) s
    let s2 := ((s1.setSlot k.val 0).setBit (R.LANE_SLOT_STAT k.val) 11 (decide (6000 < t))).setReg32 (R.LANE_SLOT_KTIME_LO k.val)
      (BitVec.ofNat 32 t)
    ({ s2 with zeroPass := s2.zeroPass &&& ~~~ BitVec.ofNat 16 (2 ^ k.val) }.reclockAll).slotEvt k.val (if 6000 < t then 12 else 4)
  else s)

end Sys2Proof.Machine
end

