-- ==== Sys2Proof/Machine/Host.lean ====
section
/-! DEFINITION. The host interface (spec/17 R477–R487): what PF0 and a VF reach in device memory, the fault message, HST_IRQ_SEND,
functions and their resets, and the host DMA channels. -/
namespace Sys2Proof.Machine
open Host

/-! ## Device memory as the host reaches it (R59, R62, R386, R389, R481) -/

/-- The word is mapped for PF0: a global memory range, not cache storage, and not the memory of a killed lane, which in HELD PF0
may still read. -/
def State.pfMapped (s : State) (w : Nat) (write : Bool) : Bool :=
  (inSeatMem w || inStore w) && !(s.inCacheRange w) && (!(s.laneFault w) || (s.wordHeld w && !write))

/-- The word is reached through the VF of a slot: the slot ACTIVE, the crew of its lane, outside the cox region and the cache
storage range. -/
def State.vfMay (s : State) (k w : Nat) : Bool :=
  (inSeatMem w || inStore w) && s.slotState k == 1 && s.crewAssigned (memCrew w) && s.crewSlot (memCrew w) == k
    && !(s.inCoxRegion w) && !(s.inCacheRange w) && s.crewMem (memCrew w)

/-- A channel of a function reaches the word. -/
def State.chMay (s : State) (n w : Nat) (write : Bool) : Bool :=
  if n = 0 then s.pfMapped w write && s.crewMem (memCrew w) else s.vfMay (n - 1) w

/-! ## Messages (R359, R482, R483) -/

/-- A REARM pulse. -/
def State.rearm (s : State) : State := if s.hostFault then s.msix 0 0 else s

/-- REARM. -/
def execRearm (s : State) : Outcome State Fault Refusal := .next (if s.warm then s else s.rearm)

/-- A write of HST_IRQ_SEND: with GO a vector of a function, or IRQERR. -/
def State.irqSend (s : State) (v : Word) : State :=
  let s1 := s.setReg R.HST_IRQ_SEND (v &&& 0x07FF)
  let n := wfld v 0 5
  let vec := wfld v 5 6
  if !(v.getLsbD 15) then s1
  else if 16 < n ∨ !(s.fn n).present ∨ vec < (if n = 0 then 3 else 2) then s1.orReg R.HST_LINK 0x0200
  else s1.msix n vec

/-- IRQ_SEND: a write of HST_IRQ_SEND with GO = 1. -/
def execIrqSend (v : Word) (s : State) : Outcome State Fault Refusal := .next (if s.warm then s else s.irqSend (v ||| 0x8000))

/-! ## Functions (R463, R464, R479) -/

/-- Requests of the host through a function are its own no more once the function is reset: their completions are lost. -/
def State.fnDrop (s : State) (n : Nat) : State :=
  { s with ops := s.ops.map (fun o => match o.use with | .host m _ => if m = n then { o with use := .nobody } else o | _ => o)
           ctl := s.ctl.filter (fun t => n != 0 || t.who != .host) }

/-- A VF at its reset: configuration, page, channel and MSI-X table; its lane is not touched. -/
def State.vfClear (s : State) (n : Nat) (present : Bool) : State :=
  let s1 := (s.chReset n).fnDrop n
  { s1.setFn n { HostFn.reset n with present := present } with
    vfErr := mapSet (fun _ => 0) s1.vfErr n 0
    snaps := s1.snaps.filter (fun p => !(decide (2 ^ 32 + n * 16 ≤ p.1 / 98) && decide (p.1 / 98 < 2 ^ 32 + n * 16 + 16))) }

/-- HST_ registers, PF0 and every VF at their reset; the VFs disappear. -/
def State.pfClear (s : State) : State :=
  let s1 := (List.range 16).foldl (fun t k => t.vfClear (k + 1) false) s
  { ((((s1.setChan 0 Hdma.empty).chDrop 0).fnDrop 0).clearSpan 0xF0609000 0xF060A000).setFn 0 (HostFn.reset 0) with fltSeen := false }

/-- PF0_RESET: PERST# and the link going down take the link with them; logged errors last through all but PERST# (log entry 38, PRESUMED). -/
def execPf0Reset (kind : PfReset) (s : State) : Outcome State Fault Refusal :=
  let s1 := s.pfClear
  .next (match kind with
    | .perst => { s1 with perst := true, link := (0, 0, false), aer := 0 }
    | .linkDown => { s1 with link := (0, 0, false) }
    | .hot => s1
    | .flr => s1)

/-- VF_RESET: a function-level reset. -/
def execVfReset (k : Fin 16) (s : State) : Outcome State Fault Refusal :=
  .next (if (s.fn (k.val + 1)).present then s.vfClear (k.val + 1) true else s)

/-- VF_ENABLE: a write of VF Enable; cleared, the VFs disappear. -/
def execVfEnable (on : Bool) (s : State) : Outcome State Fault Refusal :=
  .next (if !s.vioOn then s
    else (List.range 16).foldl (fun t k =>
      if on then t.setFn (k + 1) { t.fn (k + 1) with present := true } else t.vfClear (k + 1) false) s)

/-- Bus Master Enable written: at 0 a running channel halts with BME; at 1 held messages go out. -/
def State.setBme (s : State) (n : Nat) (bme : Bool) : State :=
  let s1 := s.setFn n { s.fn n with bme := bme }
  if bme then s1.msixFlush n else if s1.chState n = 1 then s1.chHalt n 7 else s1

/-- BME_CLEAR: a write of Bus Master Enable. -/
def execBmeClear (fn : Fin 17) (bme : Bool) (s : State) : Outcome State Fault Refusal :=
  .next (if s.vioOn && (s.fn fn.val).present then s.setBme fn.val bme else s)

/-- D3HOT: a change of power state; back in D0 held messages go out. -/
def execD3hot (fn : Fin 17) (on : Bool) (s : State) : Outcome State Fault Refusal :=
  let n := fn.val
  .next (if !(s.vioOn && (s.fn n).present) then s
    else
      let s1 := s.setFn n { s.fn n with d3 := on }
      if on then s1 else s1.msixFlush n)

/-- LINK_TRAINING: PERST# is deasserted and the link comes up, while VIO is. (log entry 38, PRESUMED) -/
def execLinkTraining (speed : Fin 7) (width : Fin 32) (flit : Bool) (s : State) : Outcome State Fault Refusal :=
  .next (if s.vioOn then { s with perst := false, link := (speed.val, width.val, flit) } else { s with perst := false })

/-! ## Host DMA (R484–R487) -/

/-- A four-word quantity of a channel. -/
def State.chLong (s : State) (n off : Nat) : Nat :=
  (s.chWord n (off + 3) ++ s.chWord n (off + 2) ++ s.chWord n (off + 1) ++ s.chWord n off).toNat

/-- CUR of a channel set. -/
def State.setCur (s : State) (n a : Nat) : State :=
  (List.range 4).foldl (fun t i => t.setChWord n (8 + i) (BitVec.ofNat 16 (a / 65536 ^ i))) s

/-- START (R485), in IDLE or HALTED. (log entry 39, DEDUCED) -/
def State.chStart (s : State) (n : Nat) : State :=
  if s.chState n = 1 then s
  else
    let s1 := (((s.setChWord n 5 1).setChWord n 6 0).setChWord n 7 0).setCur n (s.chLong n 0 / 32 * 32)
    let s2 := s1.setChan n { Hdma.empty with fetch := true }
    if (s.fn n).bme then s2 else s2.chHalt n 7

/-- Accesses of a channel to device memory are under way. -/
def State.chBusy (s : State) (n : Nat) : Bool := s.ops.any (fun o => o.use == .channel n)

/-- The channel is IDLE, with nothing in hand. -/
def State.chIdle (s : State) (n : Nat) : State := ((s.setChan n Hdma.empty).chDrop n).setChWord n 5 0

/-- ABORT (R485): read data are discarded, the writes issued complete, and the channel becomes IDLE. (log entry 39, DEDUCED) -/
def State.chAbort (s : State) (n : Nat) : State :=
  if s.chState n = 1 && s.chBusy n && !((leField (s.chan n).desc 24 2).testBit 0) then s.setChan n { Hdma.empty with abort := true }
  else s.chIdle n

/-- A write of HDMA_CMD. -/
def State.chCmd (s : State) (n : Nat) (v : Word) : State :=
  let s1 := if v.getLsbD 0 then s.chStart n else s
  if v.getLsbD 1 then s1.chAbort n else s1

/-- HDMA_START. -/
def execHdmaStart (fn : Fin 17) (s : State) : Outcome State Fault Refusal :=
  .next (if s.vioOn && !s.warm && (s.fn fn.val).present then s.chCmd fn.val 1 else s)

/-- HDMA_ABORT. -/
def execHdmaAbort (fn : Fin 17) (s : State) : Outcome State Fault Refusal :=
  .next (if s.vioOn && !s.warm && (s.fn fn.val).present then s.chCmd fn.val 2 else s)

/-- NEXT of a descriptor. -/
def hdNext (d : List Byte) : Nat := leField d 0 8
/-- HADDR. -/
def hdHost (d : List Byte) : Nat := leField d 8 8
/-- DADDR. -/
def hdDev (d : List Byte) : Nat := leField d 16 4
/-- LEN. -/
def hdLen (d : List Byte) : Nat := leField d 20 4
/-- A bit of FLAGS: 0 DIR, 1 LAST, 2 ADV, 3 IRQ. -/
def hdFlag (d : List Byte) (n : Nat) : Bool := (leField d 24 2).testBit n

/-- A field is malformed, or NEXT is misaligned (R486, cause DESC). -/
def hdBad (d : List Byte) : Bool :=
  d.length != 32 || decide (16 ≤ leField d 24 2) || decide (64 ≤ leField d 26 1) || decide (96 ≤ leField d 27 1)
    || (hdFlag d 2 && leField d 28 1 == 0) || leField d 29 3 != 0 || hdHost d % 2 == 1 || (!(hdFlag d 1) && hdNext d % 32 != 0)

/-- The device range, and for a VF the crew of the counter, are allowed (R485). (log entry 39, DEDUCED) -/
def State.hdAllowed (s : State) (n : Nat) (d : List Byte) : Bool :=
  (List.range (hdLen d)).all (fun i => s.chMay n (hdDev d + i) (!(hdFlag d 0)))
    && (n == 0 || (s.slotState (n - 1) == 1
        && (!(hdFlag d 2) || (s.crewAssigned (leField d 27 1) && s.crewSlot (leField d 27 1) == n - 1))))

/-- The channel issues requests (R479). -/
def State.chRuns (s : State) (n : Nat) : Bool :=
  s.vioOn && !s.warm && (s.fn n).present && s.chState n == 1 && !(s.fn n).d3 && (s.fn n).bme && !(s.chan n).abort

/-- HDMA_DESCRIPTOR_FETCH: the bytes the host answered with, or none for a failure. -/
def execHdmaDescriptorFetch (fn : Fin 17) (data : Option (List (BitVec 8))) (s : State) : Outcome State Fault Refusal :=
  let n := fn.val
  .next (if s.chRuns n && (s.chan n).fetch then
    match data with
    | none => s.chHalt n 2
    | some d => if hdBad d then s.chHalt n 1 else if s.hdAllowed n d then s.setChan n { Hdma.empty with desc := d } else s.chHalt n 4
  else s)

/-- The actions of a completed descriptor, in order: the counter advance, DONE, IRQ; then the next one, or IDLE. -/
def State.hdDone (s : State) (n : Nat) (d : List Byte) : State :=
  let crew := leField d 27 1
  let s1 := if hdFlag d 2 && s.crewUp crew then s.advanceCnt crew (leField d 26 1) (leField d 28 1) else s
  let done := (s1.chWord n 7 ++ s1.chWord n 6) + (1 : BitVec 32)
  let s2 := (s1.setChWord n 6 (done.setWidth 16)).setChWord n 7 ((done >>> 16).setWidth 16)
  let s3 := if hdFlag d 3 then s2.msix n 1 else s2
  if hdFlag d 1 then (s3.setChan n Hdma.empty).setChWord n 5 0 else (s3.setChan n { Hdma.empty with fetch := true }).setCur n (hdNext d)

/-- The lane that a channel's packets carry. -/
def State.chLane (s : State) (n : Nat) : Nat := if n = 0 then 0 else s.slotLane (n - 1)

/-- The descriptor in hand signals once its words are moved and acknowledged (R485). -/
def State.hdCheck (s : State) (n : Nat) : State :=
  let d := (s.chan n).desc
  if hdLen d ≤ (s.chan n).moved && !(s.chBusy n) then s.hdDone n d else s

/-- Host to device: the words that came go out as writes, up to one that is refused. -/
def State.hdIn (s : State) (n : Nat) (d : List Byte) (data : List Word) (failed : Bool) : State :=
  let m := (s.chan n).moved
  let ws := ((List.range data.length).map (fun i => (hdDev d + m + i, data.getD i 0))).take (hdLen d - m)
  let ok := ws.takeWhile (fun p => s.chMay n p.1 true)
  let s1 := (if ok.isEmpty then s else (s.startOp .host (s.chLane n) (.channel n) true ok).getD s).setChan n
    { Hdma.empty with desc := d, moved := m + ok.length }
  if ok.length < ws.length then s1.chHalt n 4
  else if failed && decide (m + ok.length < hdLen d) then s1.chHalt n 2
  else s1.hdCheck n

/-- The bytes of words, low byte first (R9). -/
def wordListBytes (vs : List Word) : List Byte := vs.flatMap (fun (v : Word) => [v.setWidth 8, (v >>> 8).setWidth 8])

/-- Device to host: the next words, at most 256 (R487), are read. -/
def State.hdOut (s : State) (n : Nat) (d : List Byte) : State :=
  let m := (s.chan n).moved
  let ws := (List.range (min 256 (hdLen d - m))).map (fun i => hdDev d + m + i)
  if s.chBusy n then s
  else if ws.isEmpty then s.hdCheck n
  else if ws.all (fun w => s.chMay n w false) then (s.startOp .host (s.chLane n) (.channel n) false (ws.map (fun w => (w, 0)))).getD s
  else s.chHalt n 4

/-- HDMA_COMPLETION: the descriptor in hand goes on, with the words that came from the host, the next of which may fail; it waits while
the host interface has no tag free (R254). -/
def execHdmaCompletion (fn : Fin 17) (data : List Word) (failed : Bool) (s : State) : Outcome State Fault Refusal :=
  let n := fn.val
  let d := (s.chan n).desc
  .next (if s.chRuns n && !(s.chan n).fetch && !d.isEmpty && (s.opTag .host).isSome then
    if hdFlag d 0 then s.hdOut n d else s.hdIn n d data failed
  else s)

/-- The code with which a channel halts (R486). (log entry 39, DEDUCED) -/
def chCause (read : Bool) (c : PktCause) : Nat :=
  match c with | .memErr => 5 | .poisoned => if read then 5 else 4 | .unpowered => 4 | .unmapped => 4 | .none => 4

/-- An access of a channel is complete: an ABORT that waited ends; words read go to the host; the descriptor may signal. -/
def State.channelDone (s : State) (n : Nat) (got : List (Nat × Word)) (bad : Option PktCause) : State :=
  let x := s.chan n
  if x.abort then (if s.chBusy n then s else s.chIdle n)
  else
    match bad with
    | some c => s.chHalt n (chCause (hdFlag x.desc 0) c)
    | none =>
      if !(hdFlag x.desc 0) then s.hdCheck n
      else if s.chRuns n then
        let ws := (List.range got.length).map (fun i => hdDev x.desc + x.moved + i)
        let vs := ws.map (fun w => ((got.find? (fun p => p.1 == w)).map Prod.snd).getD 0)
        ((s.send (.hostWrite (hdHost x.desc + 2 * x.moved) (wordListBytes vs))).setChan n { x with moved := x.moved + got.length }).hdCheck n
      else s

/-- CPLTO: a read of host memory is not answered in time. -/
def execCplto (fn : Fin 17) (s : State) : Outcome State Fault Refusal :=
  let n := fn.val
  let x := s.chan n
  .next (if s.vioOn && s.chState n == 1 && (x.fetch || (!x.desc.isEmpty && !(hdFlag x.desc 0) && decide (x.moved < hdLen x.desc))) then
    s.chHalt n 3
  else s)

/-! ## VF page (R482) -/

/-- VF_ERR bits set. -/
def State.vfErrSet (s : State) (n : Nat) (m : Word) : State :=
  { s with vfErr := mapSet (fun _ => 0) s.vfErr n (mapGet (fun _ => 0) s.vfErr n ||| m) }

/-- A doorbell of a VF: to a crew of the lane, or VF_ERR.DBELL. -/
def State.vfDoorbell (s : State) (k : Nat) (bits : Word) (crew : Nat) : State :=
  if s.slotState k = 1 && crew < 96 && s.crewAssigned crew && s.crewSlot crew == k && s.crewUp crew then s.coxDoorbell crew bits
  else s.vfErrSet (k + 1) 1

/-- VF_DBELL: a 32-bit write of VF_DBELL. -/
def execVfDbell (k : Fin 16) (bits : Word) (crew : BitVec 7) (s : State) : Outcome State Fault Refusal :=
  .next (if (s.fn (k.val + 1)).present then s.vfDoorbell k.val bits crew.toNat else s)

end Sys2Proof.Machine
end

