-- ==== Sys2Proof/Machine/Listener.lean ====
section
/-! DEFINITION. The lid listener (spec/16): its start and modes, the energy gate S0, scores and events of S1, location by S2, and
the verdict of S3. -/
namespace Sys2Proof.Machine
open Host

/-- The state with the listener beside its registers set. -/
def State.setLl (s : State) (x : Listener) : State := { s with ll := x }

/-- EN: the listener runs. -/
def State.llEn (s : State) : Bool := s.bit R.LL_CTRL 0

/-- STAGE of LL_STAT. -/
def State.llStage (s : State) : Nat := s.fld R.LL_STAT 0 2

/-- STAGE set. -/
def State.setStage (s : State) (v : Nat) : State := s.setFld R.LL_STAT 0 2 v

/-- ACTIVE: active mode. -/
def State.llActive (s : State) : Bool := s.bit R.LL_STAT 2

/-- Samples are valid (R449, R462). -/
def State.llValid (s : State) : Bool := s.llEn && !(s.bit R.LL_STAT 3) && !s.ll.starting

/-- SENSOK of a sensor. -/
def State.sensOk (s : State) (n : Nat) : Bool := s.bit R.LL_STAT (4 + n)

/-- Every SENSOK bit is set. -/
def State.allSensors (s : State) : Bool := s.fld R.LL_STAT 4 4 == 15

/-- A count field that acts as 1 when it is 0. -/
def atLeastOne (n : Nat) : Nat := max 1 n

/-! ## Pump tones and energies (R452, R453, R460) -/

/-- RPM of the tachometer that LL_NOTCH names. -/
def State.notchTach (s : State) : Nat := (s.reg (R.BH_TACH_RPM (s.fld R.LL_NOTCH 0 2))).toNat

/-- A frequency in mHz lies in a notch: while NOTCHEN is 1 and the tachometer turns, within WIDTH × 2 Hz of k × RPM ÷ 60 × MULT. -/
def State.notched (s : State) (f : Nat) : Bool :=
  let half := s.fld R.LL_NOTCH 10 6 * 2 * 60000
  s.bit R.LL_CTRL 4 && s.notchTach != 0 && s.ll.notchRpm != 0 && (List.range (s.fld R.LL_NOTCH 2 4)).any (fun i =>
    let centre := (i + 1) * s.ll.notchRpm * atLeastOne (s.fld R.LL_NOTCH 6 4) * 1000
    decide (centre ≤ 60 * f + half) && decide (60 * f ≤ centre + half))

/-- The notch centres take the RPM, every 100 ms, as an S0 window starts. -/
def State.followNotch (s : State) : State :=
  let due := match s.ll.notchAt with | none => true | some t => decide (t + 100000000 ≤ s.uptime)
  if due then s.setLl { s.ll with notchRpm := s.notchTach, notchAt := some s.uptime } else s

/-- The power of what is left of a spectrum in a band once the notches are taken out. -/
def State.heardPower (s : State) (x : Spectrum) (band : Nat → Bool) : Nat :=
  ((x.filter (fun p => band p.1 && !(s.notched p.1))).map Prod.snd).sum

/-- The band of S0 in either mode: 50 Hz to 10 kHz. -/
def s0Band (f : Nat) : Bool := decide (50000 ≤ f) && decide (f ≤ 10000000)

/-- Half-octave band b of S1, centred on 100 × 2^(b/2) Hz, up to 21.5 kHz. -/
def s1Band (b f : Nat) : Bool :=
  decide (10 ^ 20 * 4 ^ b ≤ 2 * f ^ 4) && decide (f ^ 4 < 2 * (10 ^ 20 * 4 ^ b)) && decide (f ≤ 21500000)

/-- The ratio n ÷ d of two powers in dB, to the nearest of steps of which `unit` make 1 dB. (log entry 60, DESIGN CHOICE) -/
def powerDb (unit : Nat) (n d : Nat) : Int :=
  let one : Int := (2 ^ 64 * 10 ^ 19 : Nat)
  (2 * (log2Ratio n d * (unit * 30102999566398119521 : Nat)) + one) / (2 * one)

/-- A window's energy at a sensor in 2⁻¹⁶ of 0.5 dB against full scale; of silence the rules state none, a free value. (log entry 60, DESIGN CHOICE) -/
def State.s0Energy (s : State) (x : Vector Spectrum 4) (n : Fin 4) : Int :=
  match s.heardPower (x.get n) s0Band with
  | 0 => ((Config.freeValue (s.freeCtr + n.val)).setWidth 24).toInt
  | p => powerDb 131072 p (2 ^ 48)

/-- The working sensors. -/
def State.working (s : State) : List (Fin 4) := (List.finRange 4).filter (fun n => s.sensOk n.val)

/-- A frame's energy in a band, averaged over the working sensors, in 0.25 dB; of silence a free value. (log entry 60, DESIGN CHOICE) -/
def State.s1Energy (s : State) (x : Vector Spectrum 4) (b : Fin 16) : Int :=
  match (s.working.map (fun n => s.heardPower (x.get n) (s1Band b.val))).sum with
  | 0 => ((Config.freeValue (s.freeCtr + b.val)).setWidth 16).toInt
  | p => powerDb 4 p s.working.length

/-! ## Modes (R448, R449, R456, R462) -/

/-- The listener as it enters active mode: S1 starts with the first valid sample. -/
def State.enterActiveMode (s : State) : State :=
  (((s.setBit R.LL_STAT 2 true).setBit R.LL_STAT 3 true).setStage 1).setLl
    { s.ll with s0run := 0, s1run := 0, s2on := false, s2frames := 0, quiet := 0, hwrun := Vector.replicate 6 0, hwheld := 0, located := false }

/-- The return to listening mode: STAGE 0, and samples invalid for the change of clock. -/
def State.leaveActiveMode (s : State) : State :=
  (((s.setBit R.LL_STAT 2 false).setBit R.LL_STAT 3 true).setStage 0).setLl
    { s.ll with s0run := 0, s1run := 0, s2on := false, s2frames := 0, quiet := 0, hwrun := Vector.replicate 6 0, hwheld := 0, located := false }

/-- A start of the listener (R462): every LL_ register at its Reset value, in LEARN, samples invalid. (log entry 61, DEDUCED) -/
def State.llStart (s : State) : State := (s.clearSpan 0xF0701000 0xF0702000).setLl Listener.reset

/-- EN = 0 stops every stage and discards what is in progress; STAGE and ACTIVE clear. -/
def State.llStop (s : State) : State :=
  (s.clrReg R.LL_STAT 7).setLl
    { s.ll with s0run := 0, s1run := 0, s2on := false, s2frames := 0, quiet := 0, hwrun := Vector.replicate 6 0, hwheld := 0, located := false }

/-- A write of LL_CTRL. (log entry 61, DEDUCED) -/
def State.llCtrlWrite (s : State) (v : Word) : State :=
  if !(v.getLsbD 0) then (s.setReg R.LL_CTRL (v &&& 0x001F)).llStop
  else if !s.llEn then s.llStart
  else
    let s1 := s.setReg R.LL_CTRL (v &&& 0x001F)
    if v.getLsbD 3 && !s.llActive then s1.enterActiveMode else s1

/-- LISTENER_ENABLE: a write of LL_CTRL. -/
def execListenerEnable (ctrl : Word) (s : State) : Outcome State Fault Refusal := .next (s.llCtrlWrite ctrl)

/-- FORCEACT: a write of LL_CTRL with FORCEACT = 1. -/
def execForceact (ctrl : Word) (s : State) : Outcome State Fault Refusal := .next (s.llCtrlWrite (ctrl ||| 8))

/-- SETTLE_END: samples are valid, and the first window starts. -/
def execSettleEnd (s : State) : Outcome State Fault Refusal :=
  .next (((s.setBit R.LL_STAT 3 false).setLl { s.ll with starting := false }).followNotch)

/-- LEARN_END: after 2 s of windows the floors stand as seeded. -/
def execLearnEnd (s : State) : Outcome State Fault Refusal :=
  .next (if s.llEn && decide (200 ≤ s.ll.learn) then
    (List.finRange 4).foldl (fun t n =>
      match s.ll.floors.get n with
      | some f => t.setReg (R.LL_FLOOR n.val) (BitVec.ofInt 16 (f / 65536))
      | none => t) (s.setBit R.LL_STAT 8 false)
  else s)

/-! ## Sensors (R461) -/

/-- SENSOR_FAIL. -/
def execSensorFail (n : Fin 4) (s : State) : Outcome State Fault Refusal :=
  .next (if s.llEn && s.sensOk n.val then (s.setBit R.LL_STAT (4 + n.val) false).orReg R.LL_EVT 0x0200 else s)

/-- SENSOR_RECOVERY. -/
def execSensorRecovery (n : Fin 4) (s : State) : Outcome State Fault Refusal :=
  .next (if s.llEn then s.setBit R.LL_STAT (4 + n.val) true else s)

/-! ## S0 (R452) -/

/-- The unit of floors and baselines: 2⁻¹⁶ of their register's (log entry 60). -/
def llOne : Int := 65536

/-- The windows of a time constant, 100 a second. -/
def State.floorSpan (s : State) : Nat := 100 * atLeastOne (s.fld R.LL_S0_CFG 8 8)

/-- The floor of a sensor after a window of energy e: the mean while learning, else a first-order average, kept while the window
lies beyond a threshold. (log entry 60, DESIGN CHOICE) (log entry 61, DEDUCED) -/
def State.nextFloor (s : State) (f : Option Int) (e : Int) (beyond : Bool) : Option Int :=
  match f with
  | none => some e
  | some f =>
    if s.bit R.LL_STAT 8 then some (f + (e - f) / (s.ll.learn + 1 : Nat))
    else if beyond then some f
    else some (f + (e - f) / (s.floorSpan : Nat))

/-- A window energy lies beyond a threshold of its floor. -/
def State.beyondFloor (s : State) (f : Option Int) (e : Int) : Bool :=
  match f with
  | none => false
  | some f => decide (f + s.fld R.LL_S0_THR 0 8 * llOne < e) || decide (e < f - s.fld R.LL_S0_THR 8 8 * llOne)

/-- The floors after a window, in the listener and in LL_FLOOR. -/
def State.setFloors (s : State) (e : Vector Int 4) : State :=
  (List.finRange 4).foldl (fun t n =>
    if t.sensOk n.val then
      let f := s.nextFloor (s.ll.floors.get n) (e.get n) (s.beyondFloor (s.ll.floors.get n) (e.get n))
      let t1 := t.setLl { t.ll with floors := t.ll.floors.set n f }
      if s.bit R.LL_STAT 8 then t1 else t1.setReg (R.LL_FLOOR n.val) (BitVec.ofInt 16 (f.getD 0 / llOne))
    else t) s

/-- S0_WINDOW: what each sensor has heard in a window of 10 ms. -/
def execS0Window (x : Vector Spectrum 4) (s : State) : Outcome State Fault Refusal :=
  if !s.llValid then .next s
  else
    let e : Vector Int 4 := Vector.ofFn (s.s0Energy x)
    let learning := s.bit R.LL_STAT 8
    let hit := !learning && (List.finRange 4).any (fun n => s.sensOk n.val && s.beyondFloor (s.ll.floors.get n) (e.get n))
    let s1 := s.setFloors e
    let run := if hit then s1.ll.s0run + 1 else 0
    let s2 := ({ s1 with freeCtr := s1.freeCtr + 4 }.setLl
      { s1.ll with s0run := run, learn := if learning then s1.ll.learn + 1 else s1.ll.learn }).followNotch
    .next (if atLeastOne (s.fld R.LL_S0_CFG 0 4) ≤ run && !s.llActive then (s2.orReg R.LL_EVT 0x0040).enterActiveMode else s2)

/-! ## Events (R458, R459) -/

/-- An event of class c, 1–6. -/
def State.llRaise (s : State) (c src conf : Nat) : State :=
  let s1 := (s.orReg R.LL_EVT (BitVec.ofNat 16 (2 ^ (c - 1)))).setReg R.LL_LAST
    (BitVec.ofNat 16 (c + src * 8 + conf * 16 + bitIf s.ll.located 12))
  let s2 := (s1.setReg64 (R.LL_LASTTIME 0) (BitVec.ofNat 64 s.time)).addSat (R.LL_COUNT (c - 1)) 1
  if s.bit R.BH_PROT_LL (c - 1) then s2.protect 3 else s2

/-- A post of LL_VERDICT. -/
def State.llPost (s : State) (v : Word) : State :=
  let c := wfld v 0 3
  let conf := wfld v 3 8
  if s.llEn && decide (1 ≤ c ∧ c ≤ 6) && decide (s.fld R.LL_S3_THR 0 8 ≤ conf) then s.llRaise c 1 conf else s

/-- A write of LL_VERDICT. -/
def State.verdictWrite (s : State) (v : Word) : State :=
  let s1 := s.setReg R.LL_VERDICT (v &&& 0x07FF)
  if v.getLsbD 15 then s1.llPost v else s1

/-- VERDICT_POST: a write of LL_VERDICT with POST = 1. -/
def execVerdictPost (v : Word) (s : State) : Outcome State Fault Refusal := .next (s.verdictWrite (v ||| 0x8000))

/-! ## S1 (R453–R455) -/

/-- The weight of a band in a class, 0–5. -/
def State.llWeight (s : State) (c b : Nat) : Int := ((s.reg (R.LL_TPL c b)).setWidth 8).toInt

/-- The score of a class, from band energies and the baselines of LL_BASE, in 0.25 dB. -/
def State.llScore (s : State) (e : Vector Int 16) (c : Nat) : Nat :=
  let sum := ((List.finRange 16).map (fun b => s.llWeight c b.val * (e.get b - (s.ll.bases.get b) / llOne))).sum
  min 255 (sum / 32).toNat

/-- Frames of a baseline's time constant: 93.75 a second. (log entry 60, DESIGN CHOICE) -/
def State.baseSpan (s : State) : Int := 375 * atLeastOne (s.fld R.LL_S0_CFG 8 8)

/-- LL_BAND, LL_SCORE, and, in a quiet frame, the baselines and LL_BASE. -/
def State.showFrame (s : State) (e : Vector Int 16) (scores : Vector Nat 6) (quiet : Bool) : State :=
  let s1 := (List.finRange 16).foldl (fun t b =>
    let t1 := t.setReg (R.LL_BAND b.val) (BitVec.ofInt 16 (e.get b))
    if quiet then
      let f := t1.ll.bases.get b
      let g := f + (e.get b * llOne - f) * 4 / s.baseSpan
      (t1.setLl { t1.ll with bases := t1.ll.bases.set b g }).setReg (R.LL_BASE b.val) (BitVec.ofInt 16 (g / llOne))
    else t1) s
  (List.finRange 6).foldl (fun t c => t.setReg (R.LL_SCORE c.val) (BitVec.ofNat 16 (scores.get c))) s1

/-- HWEV of a class: its event once the score has stood at HWTHR for HOLD frames, until it falls (R455). -/
def State.hwClass (s : State) (hold score : Nat) (c : Fin 6) : State :=
  let on := s.bit (R.LL_TPLCFG c.val) 0 && decide (s.fld (R.LL_TPLCFG c.val) 8 8 ≤ score)
  let run := if on then min hold (s.ll.hwrun.get c + 1) else 0
  let fire := decide (hold ≤ run) && !(s.ll.hwheld.getLsbD c.val)
  let m : BitVec 6 := BitVec.ofNat 6 (2 ^ c.val)
  let held := if fire then s.ll.hwheld ||| m else if score < s.fld (R.LL_TPLCFG c.val) 8 8 then s.ll.hwheld &&& ~~~ m else s.ll.hwheld
  let s1 := s.setLl { s.ll with hwrun := s.ll.hwrun.set c run, hwheld := held }
  if fire then s1.llRaise (c.val + 1) 0 score else s1

/-- The wake of S2, or of S3 while S2EN is 0 (R454). -/
def State.wakeAbove (s : State) (hold : Nat) : State :=
  if s.ll.s1run < hold ∨ s.ll.s2on then s
  else if s.bit R.LL_CTRL 1 then ((s.orReg R.LL_EVT 0x0080).setStage 2).setLl { s.ll with s2on := true, s2frames := 0 }
  else if s.llStage < 3 then (((s.orReg R.LL_EVT 0x0100)).setStage 3).setLl { s.ll with located := false }
  else s

/-- S1_FRAME: what each sensor has heard in a frame of 512 samples. -/
def execS1Frame (x : Vector Spectrum 4) (s : State) : Outcome State Fault Refusal :=
  if !(s.llValid && s.llActive) then .next s
  else
    let e : Vector Int 16 := Vector.ofFn (s.s1Energy x)
    let scores : Vector Nat 6 := Vector.ofFn (fun c => s.llScore e c.val)
    let thr := s.fld R.LL_S1_CFG 0 8
    let hold := atLeastOne (s.fld R.LL_S1_CFG 8 4)
    let quiet := (List.finRange 6).all (fun c => decide (scores.get c < thr))
    let s1 := s.showFrame e scores quiet
    let s2 := { s1 with freeCtr := s1.freeCtr + 16 }.setLl
      { s1.ll with s1run := if quiet then 0 else min hold (s1.ll.s1run + 1), s2frames := s1.ll.s2frames + 1, quiet := if quiet then s1.ll.quiet + 1 else 0 }
    let s3 := (List.finRange 6).foldl (fun t c => t.hwClass hold (scores.get c) c) s2
    let s4 := s3.wakeAbove hold
    .next (if s.fld R.LL_IDLE 0 12 ≤ s4.ll.quiet && !(s.bit R.LL_CTRL 2) && !(s.bit R.LL_CTRL 3) then s4.leaveActiveMode else s4)

/-! ## S2 (R456) -/

/-- A lag lies within 8 samples either way, in 1/16 sample. -/
def lagWord (v : Word) : Word := BitVec.ofInt 16 (max (-128) (min 128 v.toInt))

/-- S2_RESULT: at the end of four frames; location only with every sensor. -/
def execS2Result (lags : Vector Word 6) (loc : Word) (q : BitVec 8) (s : State) : Outcome State Fault Refusal :=
  if !(s.llValid && s.llActive && s.ll.s2on && decide (4 ≤ s.ll.s2frames)) then .next s
  else
    let s1 := if s.allSensors then
        (((List.finRange 6).foldl (fun t p => t.setReg (R.LL_LAG p.val) (lagWord (lags.get p))) s).setReg R.LL_LOC loc).setReg R.LL_LOCQ (q.setWidth 16)
      else (s.setReg R.LL_LOC 0).setReg R.LL_LOCQ 0
    let s2 := if s.bit R.LL_EVT 8 then s1.orReg R.LL_EVT 0x0400 else s1
    .next (((s2.orReg R.LL_EVT 0x0100).setStage 3).setLl { s2.ll with located := s.allSensors, s2frames := 0 })

end Sys2Proof.Machine
end

