-- ==== Sys2Proof/Machine/Startup.lean ====
section
/-! DEFINITION. Start-up, reset and shutdown (spec/17 R463–R476): VBH power-on, package power-on, the warm reset, crew resets, the
loader port and the start of a control core, and the power-up of domains by firmware. -/
namespace Sys2Proof.Machine
open Host

/-! ## VBH and package power-on (R463, R464, R470, R475, R502) -/

/-- VBH power-on: every block at its reset. Flash, the boot record and the recorded commitment last, and so do PERST# and what the
device has sent. (log entry 54, DESIGN CHOICE) -/
def State.vbhPowerOn (s : State) : State :=
  let b := { Boathouse.reset with bootRec := s.bh.bootRec, recorded := s.bh.recorded, keyFuse := s.bh.keyFuse }
  { State.reset with flash := s.flash, bh := b, perst := s.perst, out := s.out, freeCtr := s.freeCtr, pending := s.pending }.setReg
    R.BH_BOOT (s.bh.bootRec &&& 0x000F)

/-- VBH_POWER_ON. -/
def execVbhPowerOn (s : State) : Outcome State Fault Refusal := .next s.vbhPowerOn

/-- AUX_LOSS: 12 V leaves its range; VBH falls with every domain, and nothing is recorded. The state is that from which the next
VBH power-on starts. (log entry 54, DESIGN CHOICE) -/
def execAuxLoss (s : State) : Outcome State Fault Refusal := .next s.vbhPowerOn

/-- The blocks that answer to a device warm reset at their Reset values (R464). (log entry 63, DEDUCED) -/
def State.resetDevice (s : State) : State :=
  let s1 := (List.range 96).foldl (fun (t : State) c =>
    ((((t.resetCrew c).clearSpan (crewBase c) (crewBase c + 0x9000)).resetSeats c)).resetCox c) s
  let s2 := (s1.clearSpan 0xF0600000 0xF0607000).clearSpan 0xF1000000 0xF1C00000
  { s2.pfClear with
    ports := [], stroke := Stroke.empty, ini := [], rxc := [], limits := [], ownIn := [], routers := [], exits := [], outWrites := [], outReads := []
    meshWait := [], meshHold := [], ops := [], ctl := s2.ctl.filter (fun t => t.who == .boathouse), ctlRound := []
    early := [], hcasRes := [], banks := [], holding := 0, noDispatch := 0, killAt := [], zeroPass := 0, crewRst := 0
    warm := false }

/-- The registers of the power blocks that answer to a package power-on: all but the VBH-held fault record. -/
def State.resetPower (s : State) : State :=
  let s1 := (List.range 96).foldl (fun (t : State) c => t.clearSpan (crewBase c + 0x9000) (crewBase c + 0xA000)) s
  let s2 := ((s1.clearSpan 0xF0607000 0xF0607011).clearSpan 0xF0607013 0xF0607016).clearSpan 0xF0608000 0xF0609000
  { s2 with pwr := Power.reset }

/-- Stage 1 is powered after every domain other than VBH was off: the package power-on reset, then VIO, and HST_BOOTSTAT (R470,
R475). Firmware that runs goes on with R471. -/
def State.packagePowerOn (s : State) : State :=
  let s1 := s.resetDevice.resetPower
  let s2 := { s1 with pwr := { s1.pwr with stage1 := true }, vioOn := true, bh := { s1.bh with tripId := none } }
  if s.inRom then s2.setPhase (if s2.bit R.BH_BOOT 6 then 6 else 1)
  else (s2.setPhase 8).firmwareStart.setPhase 8

/-- The three conditions of R470 on stage 1: PWR_VIN at 40.0 V or more, BH_PROT_CAUSE 0, TRIP and SHUT clear. (log entry 55, DEDUCED) -/
def State.stage1Ok (s : State) : Bool :=
  decide (4000 ≤ (s.reg R.PWR_VIN).toNat) && s.reg R.BH_PROT_CAUSE == 0 && !(s.bit R.PWR_FLT 1) && !(s.bit R.PWR_FLT 2)

/-- STAGE1_CHECK: the boot ROM's test; after a step fault R475 alone says when stage 1 comes back. -/
def execStage1Check (s : State) : Outcome State Fault Refusal :=
  .next (if s.inRom && !s.pwr.stage1 && s.onlyVbh && s.stage1Ok && s.bh.tripId.isNone then s.packagePowerOn else s)

/-- The facility has confirmed a commitment with a new ID and a target that is not 0 since the fault (R475). (log entry 55, DEDUCED) -/
def State.newCommitment (s : State) : Bool :=
  match s.bh.tripId, s.bh.commit with
  | some old, some (c, _) => c.id != old && c.target != 0
  | _, _ => false

/-- PACKAGE_POWER_ON: the boathouse powers stage 1. After a step fault other than UVIN it waits for a new commitment. (log entry 55, DEDUCED) -/
def execPackagePowerOn (s : State) : Outcome State Fault Refusal :=
  .next (if s.bhCore.mode == .running && !s.pwr.stage1 && s.onlyVbh && s.stage1Ok
      && (s.bh.tripId.isNone || (wfld (s.reg R.PWR_CAUSE) 0 4 != 1 && s.newCommitment)) then
    s.packagePowerOn else s)

/-- UVIN_RESTART: PWR_VIN has stayed at 42.0 V or more for 1 s after UVIN. -/
def execUvinRestart (s : State) : Outcome State Fault Refusal :=
  .next (if s.firmware && !s.pwr.stage1 && s.onlyVbh && s.stage1Ok && wfld (s.reg R.PWR_CAUSE) 0 4 == 1
      && decide (4200 ≤ (s.reg R.PWR_VIN).toNat) then s.packagePowerOn else s)

/-! ## Device warm reset (R465) -/

/-- A pulse of HST_DEVRST.WARM: links go down, slots are FREE, contexts go, seats, engines and control cores stop. (log entry 63, DEDUCED) -/
def State.warmReset (s : State) : State :=
  let s1 := (List.range 32).foldl (fun (t : State) p => if t.linkUp p then t.portDown p 7 else t) s
  let s2 := (List.range 16).foldl (fun (t : State) k => t.setSlot k 0) s1
  let s3 := (List.range 96).foldl (fun (t : State) c => ((t.resetSeats c).resetCox c).setCache c ⟨[], none⟩) s2
  { s3 with
    rxc := [], dma := [], ctl := s3.ctl.filter (fun t => t.who == .boathouse), ctlRound := [], ops := [], zeroPass := 0, warm := true }

/-- WARM. -/
def execWarm (s : State) : Outcome State Fault Refusal := .next (if s.warm then s else s.warmReset)

/-- WARM_RESET_DONE. -/
def execWarmResetDone (s : State) : Outcome State Fault Refusal := .next (if s.warm then s.resetDevice else s)

/-! ## Crew and control core resets, loader (R466–R468) -/

/-- A pulse of CORERST. -/
def execCoxCorerst (crew : Fin 96) (s : State) : Outcome State Fault Refusal :=
  .next (if s.crewUp crew.val then s.resetCox crew.val else s)

/-- A pulse of CREWRST: only while LANE_CREW.EN is 0. -/
def State.crewReset (s : State) (c : Nat) : State :=
  if s.crewAssigned c then s.orReg (R.COX_RSTSTAT c) 2
  else { s.resetCrew c with crewRst := s.crewRst ||| BitVec.ofNat 96 (2 ^ c) }.setReg (R.COX_RSTSTAT c) 5

/-- CREWRST. -/
def execCrewrst (crew : Fin 96) (s : State) : Outcome State Fault Refusal :=
  .next (if s.crewUp crew.val then s.crewReset crew.val else s)

/-- CREW_RESET_DONE. -/
def execCrewResetDone (crew : Fin 96) (s : State) : Outcome State Fault Refusal :=
  .next (if s.crewRst.getLsbD crew.val then
    { s with crewRst := s.crewRst &&& ~~~ BitVec.ofNat 96 (2 ^ crew.val) }.clrReg (R.COX_RSTSTAT crew.val) 4 else s)

/-- A pulse of RUN: a held control core begins at COX_BOOT. -/
def State.coxRun (s : State) (c : Nat) : State :=
  if s.bit (R.COX_RSTSTAT c) 0 then
    let id : CoreId := .cox (crewOf c)
    (s.clrReg (R.COX_RSTSTAT c) 1).setCore id { s.core id with mode := .running, pc := pcOf (s.reg32 (R.COX_BOOT_LO c)) }
  else s

/-- RUN. -/
def execRun (crew : Fin 96) (s : State) : Outcome State Fault Refusal := .next (if s.crewUp crew.val then s.coxRun crew.val else s)

/-- A write of COX_RSTCMD. (log entry 63, DEDUCED) -/
def State.rstCmd (s : State) (c : Nat) (v : Word) : State :=
  let s1 := if v.getLsbD 0 then s.resetCox c else s
  let s2 := if v.getLsbD 1 then s1.crewReset c else s1
  if v.getLsbD 2 then s2.coxRun c else s2

/-- OFF of COX_LDADDR. -/
def State.ldOff (s : State) (c : Nat) : Nat := (s.reg32 (R.COX_LDADDR_LO c)).toNat % 0x800000

/-- A write of COX_LDDATA: the word is stored and OFF moves on, or it is discarded with REFUSED. (log entry 58, DEDUCED) -/
def State.ldData (s : State) (c : Nat) (v : Word) : State :=
  let w := storeBase c + s.ldOff c
  if !(s.crewMem c) || s.inCacheRange w then s.orReg (R.COX_RSTSTAT c) 2
  else (s.writeWord w v).setReg32 (R.COX_LDADDR_LO c) (BitVec.ofNat 32 ((s.ldOff c + 1) % 0x800000))

/-- LDDATA. -/
def execLddata (crew : Fin 96) (v : Word) (s : State) : Outcome State Fault Refusal := .next (s.ldData crew.val v)

/-! ## What firmware as shipped does (R471–R476) -/

/-- What a section already powered or zeroing leaves in the way of the next (R471): every powered memory has been zeroed. -/
def State.zeroed (s : State) : Bool :=
  s.storeOn &&& ~~~ s.storesZeroed == 0 && s.vcOn &&& ~~~ s.seatsZeroed == 0

/-- The section comes next in the order of R471. -/
def State.nextSection (s : State) (sec : Section) : Bool :=
  match sec with
  | .vmesh => !s.vmeshOn
  | .vstore crews => s.vmeshOn && crews &&& s.storeOn == 0 && crews != 0
  | .vgw k => s.storeOn == BitVec.allOnes 96 && s.vgwOn == BitVec.ofNat 16 (2 ^ k.val - 1)
  | .vc c => s.vgwOn == BitVec.allOnes 16 && s.vcOn == BitVec.ofNat 96 (2 ^ c.val - 1)

/-- A section is powered. A crew's ballast is disabled before, and every crew's enabled once the last is up. -/
def State.sectionOn (s : State) (sec : Section) : State :=
  match sec with
  | .vmesh => { s with vmeshOn := true }
  | .vstore crews => { s with storeOn := s.storeOn ||| crews }
  | .vgw k => { s with vgwOn := s.vgwOn ||| BitVec.ofNat 16 (2 ^ k.val) }
  | .vc c =>
    let s1 := (s.resetCrew c.val).setReg (R.PWR_CTRL c.val) 0
    let s2 := { s1 with vcOn := s1.vcOn ||| BitVec.ofNat 96 (2 ^ c.val) }
    if c.val = 95 then (List.range 96).foldl (fun t n => t.setReg (R.PWR_CTRL n) 1) s2 else s2

/-- The draw (mW) a section may have: those of VSTORE and VGW at most 8 W (R413). -/
def sectionDraw (sec : Section) (draw : Nat) : Bool :=
  match sec with
  | .vstore _ => decide (draw ≤ 8000)
  | .vgw _ => decide (draw ≤ 8000)
  | _ => true

/-- DOMAIN_SECTION_POWER_UP: firmware, with the governor on, powers the next section, once the one before is zeroed and demand with
its draw (mW) stays within hi (R413, R471). (log entry 57, DESIGN CHOICE) -/
def execDomainSectionPowerUp (sec : Section) (draw : Nat) (s : State) : Outcome State Fault Refusal :=
  .next (if s.firmware && s.pwr.stage1 && s.zeroed && s.nextSection sec
      && sectionDraw sec draw && s.paceOn && decide ((s.reg32 R.PACE_DEMAND_LO).toNat + draw ≤ s.pwr.hi) then
    (s.setPhase 2).sectionOn sec else s)

/-- The crew's control core is held, and its crew released (R472). -/
def State.loadable (s : State) (c : Nat) : Bool := s.crewUp c && s.bit (R.COX_RSTSTAT c) 0

/-- The payload of the running image beyond LOADLEN (R424). -/
def State.coxImage (s : State) : List Word :=
  match s.bh.locked with
  | none => []
  | some k => (List.range (s.imgLong k 6 - s.imgLong k 10)).map (fun i => s.imgWord k (32 + s.imgLong k 10 + i))

/-- A crew's image from flash: through the loader port from OFF 0 on, COX_BOOT and CREG set, RUN. (log entry 56, DEDUCED) -/
def State.loadCrew (s : State) (image : List Word) (c : Nat) : State :=
  let s1 := image.foldl (fun (t : State) v => t.ldData c v) (s.setReg32 (R.COX_LDADDR_LO c) 0)
  ((s1.setReg32 (R.COX_BOOT_LO c) 0x00100000).setFld (R.LANE_CREW c) 8 4 ((image.length + 0xFFFF) / 0x10000)).coxRun c

/-- COX_LOAD: from flash into every released crew, or HST_BOOTSTAT = COXWAIT for the host. (log entry 56, DEDUCED) -/
def execCoxLoad (host : Bool) (s : State) : Outcome State Fault Refusal :=
  .next (if !s.firmware then s
    else if host then s.setPhase 3
    else ((List.range 96).filter s.loadable).foldl (fun t c => t.loadCrew s.coxImage c) s)

/-- The first step of the bring-up (R326, R473): GW_SYSID, then GW_DEVID with VALID, then the ports whose sections are up. -/
def State.fabricPorts (s : State) (devid sysid : Word) : State :=
  let s1 := ((s.idWrite R.GW_SYSID sysid 0xFFFF).idWrite R.GW_DEVID (devid ||| 0x8000) 0x80FF).setPhase 4
  (List.range 32).foldl (fun (t : State) p => if t.gwUp p then t.gwCtrlWrite p (t.reg (R.GW_CTRL p) ||| 1) else t) s1

/-- The second step, once the ports have had time to reach ACTIVE: the routing table (R322), then STK_CTRL.EN. -/
def State.fabricRoutes (s : State) : State :=
  let s1 := (List.range 256).foldl (fun (t : State) d => t.rtWrite d (s.defaultEntry d)) s
  s1.stkCtrlWrite (s1.reg R.STK_CTRL ||| 1)

/-- FABRIC_BRINGUP: a step of firmware's bring-up, the first when HST_BOOTSTAT is not FABRIC, and then the second. (log entry 57, DESIGN CHOICE) -/
def execFabricBringup (devid sysid : Word) (s : State) : Outcome State Fault Refusal :=
  .next (if !(s.firmware && (List.range 96).all s.crewUp) then s
    else if s.bh.phase = 4 then s.fabricRoutes else s.fabricPorts devid sysid)

/-! ## Governor periods as firmware sees them (R403, R432, R473, R476) -/

/-- A commitment with target 0 and floor 0 is in force: an orderly shutdown. -/
def State.shuttingDown (s : State) : Bool := s.paceOn && s.bh.commit.isSome && s.pwr.inForce.target == 0 && s.pwr.inForce.floor == 0

/-- Its first two steps: the stroke, every crew's ballast, and the ports. -/
def State.shutdownStart (s : State) : State :=
  if s.bh.phase = 7 then s
  else
    let s1 := if s.bit R.STK_CTRL 0 then s.stkCtrlWrite (s.reg R.STK_CTRL &&& 0xFFFE) else s
    let s2 := (List.range 96).foldl (fun (t : State) c => (t.setReg (R.PWR_CTRL c) 0).setLevel c 0) s1
    let s3 := (List.range 32).foldl (fun (t : State) p =>
      if t.gwUp p && t.bit (R.GW_CTRL p) 0 then t.gwCtrlWrite p (t.reg (R.GW_CTRL p) &&& 0xFFFE) else t) s2
    s3.setPhase 7

/-- The section is the last of those that are on, in the order of R471. -/
def State.lastSection (s : State) (sec : Section) : Bool :=
  match sec with
  | .vc c => s.vcOn == BitVec.ofNat 96 (2 ^ (c.val + 1) - 1)
  | .vgw k => s.vcOn == 0 && s.vgwOn == BitVec.ofNat 16 (2 ^ (k.val + 1) - 1)
  | .vstore crews => s.vgwOn == 0 && crews != 0 && crews &&& ~~~ s.storeOn == 0
  | .vmesh => s.vmeshOn && s.storeOn == 0 && s.vgwOn == 0

/-- A section is powered off, and its memory lost. -/
def State.sectionOff (s : State) (sec : Section) : State :=
  match sec with
  | .vmesh => { s with vmeshOn := false }
  | .vstore crews => { s with storeOn := s.storeOn &&& ~~~ crews, storesZeroed := s.storesZeroed &&& ~~~ crews, inRst := s.inRst ||| crews }
  | .vgw k => { s with vgwOn := s.vgwOn &&& ~~~ BitVec.ofNat 16 (2 ^ k.val) }
  | .vc c =>
    let m := BitVec.ofNat 96 (2 ^ c.val)
    let s1 := s.resetCrew c.val
    { s1 with vcOn := s1.vcOn &&& ~~~ m, seatsZeroed := s1.seatsZeroed &&& ~~~ m, inRst := s1.inRst ||| m }

/-- What firmware does every governor period: HST_BOOTSTAT, the check of the shadow set, and an orderly shutdown. -/
def State.firmwarePeriod (s : State) (off : Option (Section × Nat)) : State :=
  if !s.firmware then s
  else
    let s1 := s.foreignCheck
    let s2 := if s1.shuttingDown then s1.shutdownStart
      else if s1.bh.phase = 4 ∧ s1.stkState = 2 then s1.setPhase 5 else s1.setPhase s1.bh.phase
    match off with
    | none => s2
    | some (sec, draw) =>
      if s2.shuttingDown && s2.lastSection sec && decide (s2.traj + draw ≤ (s2.reg32 R.PACE_DEMAND_LO).toNat) then s2.sectionOff sec else s2

/-- GOVERNOR_PERIOD. -/
def execGovernorPeriod (g : GovInput) (s : State) : Outcome State Fault Refusal := .next ((s.governorPeriod g).firmwarePeriod g.off)

end Sys2Proof.Machine
end

