-- ==== Sys2Proof/Machine/RegWrite.lean ====
section
/-! DEFINITION. Writes of register space (spec/02 R10–R57): what each register does with a written word, bit aliases, the peek
window, and the commands of the register interface; the control network's transactions (spec/09 R269–R271). -/
namespace Sys2Proof.Machine
open Host

/-! ## One register word -/

/-- A write that only stores: the RW bits of the word take the written value (R10). -/
def State.storeWrite (s : State) (a : Nat) (r : RegRow) (v : Word) : State := s.setReg a ((s.reg a &&& ~~~ r.rw) ||| (v &&& r.rw))

/-- A 32-bit value with its LO or HI word replaced. -/
def halfPut (x : BitVec 32) (o : Nat) (v : Word) : BitVec 32 :=
  if o % 2 = 0 then ((x >>> 16).setWidth 16 : Word) ++ v else v ++ (x.setWidth 16 : Word)

/-- Registers of 32 bits, each as LO and HI, with one word replaced. -/
def putHalf {n : Nat} (x : Vector (BitVec 32) n) (o : Nat) (v : Word) : Vector (BitVec 32) n :=
  x.setIfInBounds (o / 2) (halfPut (x.toList.getD (o / 2) 0) o v)

/-- A write of a seat's access block, words 0x10–0x57, while the seat is STOPPED (R205): CST keeps PL, and LD is stored as MTS
stores it. (log entry 76, DESIGN CHOICE) -/
def Core.accessPut (k : Core) (o : Nat) (v : Word) : Core :=
  if o < 0x20 then { k with w := k.w.setIfInBounds (o - 0x10) v }
  else if o < 0x30 then { k with a := putHalf k.a (o - 0x20) v }
  else if o = 0x30 then { k with cst := (cstStore k.cst v &&& 0x07DF) ||| (k.cst &&& 0x0020) }
  else if o = 0x31 then { k with ecst := cstStore k.ecst v &&& 0x07DF }
  else if o = 0x32 then { k with ecause := v &&& 0xC03F }
  else if o = 0x34 ∨ o = 0x35 then { k with epc := halfPut k.epc o v }
  else if o = 0x36 ∨ o = 0x37 then { k with eval := halfPut k.eval o v }
  else if 0x40 ≤ o ∧ o < 0x48 then { k with ls := putHalf k.ls (o - 0x40) v }
  else if 0x48 ≤ o ∧ o < 0x50 then { k with le := putHalf k.le (o - 0x48) v }
  else if 0x50 ≤ o ∧ o < 0x58 then { k with lc := putHalf k.lc (o - 0x50) v }
  else k

/-- A write of a seat's block: its command word, or an access word. -/
def State.seatWrite (s : State) (c n o : Nat) (v : Word) : State :=
  let id : CoreId := .seat (crewOf c) (seatOf n)
  if o = 0 then s.seatCmd c n v
  else if 0x10 ≤ o ∧ (s.core id).mode = .stopped then s.setCore id ((s.core id).accessPut o v)
  else s

/-- Pulses of COX_Qq_CMD: each bit written 1 acts, in bit order. (log entry 75, DESIGN CHOICE) -/
def State.queueCmd (s : State) (c q : Nat) (v : Word) : State :=
  let s1 := if v.getLsbD 0 then s.qRestart c q else s
  let s2 := if v.getLsbD 1 then s1.qSkip c q else s1
  if v.getLsbD 2 then s2.qFlush c q else s2

/-- A write of a queue's registers. -/
def State.queueWrite (s : State) (c q o a : Nat) (v : Word) : State :=
  match o with
  | 0 => s.qBaseWrite c q a v
  | 1 => s.qBaseWrite c q a v
  | 2 => s.qCtrlWrite c q v
  | 3 => s.qHeadWrite c q v
  | 4 => s.qTailWrite c q v
  | 6 => s.queueCmd c q v
  | _ => s

/-- A write of the COX_ and DMA_ sub-blocks of a crew and its handle table. -/
def State.coxWrite (s : State) (who : Requester) (c o a : Nat) (r : RegRow) (v : Word) : State :=
  if o < 0x80 then (if s.crewScrub c then s else (s.settle c).storeWrite a r v)
  else if o = 0x80 then s.advanceCnt c (v.toNat % 64) (v.toNat / 256)
  else if o = 0x104 then s.coxDoorbell c v
  else if 0x1000 ≤ o ∧ o < 0x1200 then s.queueWrite c ((o - 0x1000) / 16) (o % 16) a v
  else if 0x2000 ≤ o ∧ o < 0x2800 then s.seatWrite c ((o - 0x2000) / 0x100) (o % 0x100) v
  else if o = 0x3C00 then s.rstCmd c v
  else if o = 0x3C06 then s.ldData c v
  else if o = 0x3E00 then s.ccCtrlWrite c v
  else if o = 0x3E03 then s.ccCommand c v
  else if o = 0x3E11 then s.hcasWrite who c (v.toNat % 256) (wfld v 8 2) (wfld v 10 2)
  else if o = 0x3F00 then
    let s1 := s.storeWrite a r v
    if v.getLsbD 15 then s1.strokeResume c else s1
  else if 0x4000 ≤ o ∧ o < 0x5000 ∧ o % 0x400 = 1 then s.dmaCmd c ((o - 0x4000) / 0x400) v
  else if 0x5000 ≤ o ∧ o < 0x6000 then
    (if s.crewScrub c then s else if o % 16 = 4 then (s.settle c).storeWrite a r v else s.storeWrite a r v)
  else s.storeWrite a r v

/-- A write of a crew's block. -/
def State.crewBlockWrite (s : State) (who : Requester) (c o a : Nat) (r : RegRow) (v : Word) : State :=
  if o < 0x6000 then s.coxWrite who c o a r v
  else if o = 0x8000 then s.crewWrite c v
  else if o = 0x9000 then s.pwrClkWrite c v
  else if o = 0x9005 then
    let s1 := s.storeWrite a r v
    if v.getLsbD 0 then s1 else s1.setLevel c 0
  else s.storeWrite a r v

/-- A write of a Gweni port's registers. -/
def State.portWrite (s : State) (p o a : Nat) (r : RegRow) (v : Word) : State :=
  if o = 0 then s.gwCtrlWrite p v
  else if o = 1 then
    let s1 := if v.getLsbD 0 then s.gwRetrain p else s
    if v.getLsbD 1 then s1.gwDown p else s1
  else if o = 7 then s.gwTestWrite p v
  else s.storeWrite a r v

/-- A write of the device-global block. -/
def State.globWrite (s : State) (who : Requester) (o a : Nat) (r : RegRow) (v : Word) : State :=
  if o = 8 then s.stkCtrlWrite v
  else if o = 9 then
    let s1 := if v.getLsbD 0 then s.stkApply else s
    if v.getLsbD 1 then s1.stkElect else s1
  else if 0x2000 ≤ o ∧ o < 0x2040 then s.cgCtrlWrite (o - 0x2000) v
  else if 0x2100 ≤ o ∧ o < 0x2200 then s.callCfgWrite (o - 0x2100) v
  else if 0x2210 ≤ o ∧ o < 0x2220 then s.callBits (o - 0x2210) v true
  else if 0x2220 ≤ o ∧ o < 0x2230 then s.callBits (o - 0x2220) v false
  else if 0x3000 ≤ o ∧ o < 0x5000 then s.portWrite ((o - 0x3000) / 0x100) (o % 0x100) a r v
  else if o = 0x5001 then s.rmaTimeoutWrite v
  else if 0x6000 ≤ o ∧ o < 0x6100 then
    (if o % 16 < 2 then s.slotWordWrite ((o - 0x6000) / 16) a v r.rw
     else if o % 16 = 2 then s.slotCmd who ((o - 0x6000) / 16) v else s)
  else if o = 0x6100 then s.laneKillWrite who v
  else if o = 0x7015 then (if v.getLsbD 0 then s.ifOn State.orderShutdown else s)
  else if o = 0x8000 then s.paceCtrlWrite v
  else if o = 0x8001 then
    let s1 := if v.getLsbD 0 then s.paceApply else s
    if v.getLsbD 1 then s1.paceKick else s1
  else if o = 0x9103 then (if v.getLsbD 0 then s.rearm else s)
  else if o = 0x9202 then (if v.getLsbD 0 then s.warmReset else s)
  else if o = 0x9203 then s.irqSend v
  else if o = 0x9214 then s.chCmd 0 v
  else s.storeWrite a r v

/-- A byte for the transmit FIFO of an I3C port: room for one transfer of 256 bytes (R427, log entry 47). -/
def State.i3cPush (s : State) (n : Fin 2) (v : Word) : State :=
  let x := s.bh.i3c.get n
  if x.tx.length < 256 then s.setI3c n { x with tx := x.tx ++ [v.setWidth 8] } else s

/-- A write of the boathouse block. -/
def State.bhWrite (s : State) (who : Requester) (o a : Nat) (r : RegRow) (v : Word) : State :=
  if o = 4 then
    let s1 := if v.getLsbD 0 then s.bhReset 2 else s
    let s2 := if v.getLsbD 1 then s1.wdKick else s1
    if v.getLsbD 2 then s2.timeSet else s2
  else if o = 5 then
    let s1 := s.storeWrite a r v
    if v.getLsbD 15 && !(s.bit R.BH_WDOG 15) then s1.wdKick else s1
  else if o = 7 then
    let s1 := s.storeWrite a r v
    s1.setBh { s1.bh with bootRec := s1.reg a &&& 0x000F }
  else if o = 0x14 then s.bhDoorbell v
  else if o = 0x40 then (if who == .boathouse then s.storeWrite a r v else s)
  else if o = 0x100 then
    let s1 := if v.getLsbD 0 then s.flErase else s
    if v.getLsbD 1 then s1.flProg else s1
  else if o = 0x204 then s.i3cPush 0 v
  else if o = 0x284 then s.i3cPush 1 v
  else if o = 0x302 then s.uartWrite 0 v
  else if o = 0x342 then s.uartWrite 1 v
  else if o = 0x381 then s.spiWrite v
  else if o = 0x1000 then s.llCtrlWrite v
  else if o = 0x1050 then s.verdictWrite v
  else if 0x2000 ≤ o ∧ o < 0x2018 then s.fselWrite (o - 0x2000) v
  else s.storeWrite a r v

/-- A write of the window table. -/
def State.windowWrite (s : State) (o a : Nat) (r : RegRow) (v : Word) : State :=
  if o % 16 = 4 then s.winCtrlWrite (o / 16) v
  else if o % 16 < 10 then s.winWordWrite (o / 16) a (v &&& r.rw)
  else s

/-- A write of the routing-table range. -/
def State.routeWrite (s : State) (o a : Nat) (r : RegRow) (v : Word) : State :=
  if o < 0x200 then (if o % 2 = 0 then s.rtWrite (o / 2) v else s)
  else if o = 0x200 ∨ o = 0x201 then s.idWrite a v r.rw
  else s.storeWrite a r v

/-- WO bits of a word are kept, so that an alias write changes one of them (R54). (log entry 24, DEDUCED) -/
def State.keepWo (s : State) (a : Nat) (r : RegRow) (v : Word) : State :=
  if r.wo = 0 then s else s.setReg a ((s.reg a &&& ~~~ r.wo) ||| (v &&& r.wo))

/-- A write of an ordinary register word (R10, R36): w:0xF000_0000–0xF7FF_FFFF. -/
def State.ordWrite (s : State) (who : Requester) (a : Nat) (v : Word) : State :=
  match regRow a with
  | none => s
  | some r =>
    let s1 := s.keepWo a r v
    if a < 0xF0600000 then s1.crewBlockWrite who ((a - 0xF0000000) / 0x10000) ((a - 0xF0000000) % 0x10000) a r v
    else if a < 0xF0700000 then s1.globWrite who (a - 0xF0600000) a r v
    else if a < 0xF0800000 then s1.bhWrite who (a - 0xF0700000) a r v
    else if a < 0xF1000000 then s
    else if a < 0xF1400000 then s1.windowWrite (a - 0xF1000000) a r v
    else if a < 0xF1800000 then s1.routeWrite (a - 0xF1400000) a r v
    else s1.storeWrite a r v

/-- A write through a bit alias (R54): the word with that bit alone changed, or one pulse; RO and RC bits ignore it. (log entry 24, DEDUCED) -/
def State.aliasWrite (s : State) (who : Requester) (a b : Nat) (on : Bool) : State :=
  match regRow a with
  | none => s
  | some r =>
    let m : Word := BitVec.ofNat 16 (2 ^ b)
    let held := (s.ordWord who a &&& r.rw) ||| (s.reg a &&& r.wo)
    if r.w1p &&& m != 0 then (if on then s.ordWrite who a (held ||| m) else s)
    else if (r.rw ||| r.wo) &&& m != 0 then s.ordWrite who a (if on then held ||| m else held &&& ~~~ m)
    else s

/-- A write of one word of register space: the peek window ignores it (R57). -/
def State.writeOne (s : State) (who : Requester) (a : Nat) (v : Word) : State :=
  if a < 0xF0000000 then s
  else if 0xF8000000 ≤ a then s.aliasWrite who (aliasOf a).1 (aliasOf a).2 (v.getLsbD 0)
  else s.ordWrite who a v

/-- The second word of a 32-bit write; gates see a counter change as one (R43, R202). -/
def State.writeHigh (s : State) (who : Requester) (a : Nat) (v : Word) : State :=
  let t := if 0xF8000000 ≤ a then (aliasOf a).1 else a
  let m : Word := BitVec.ofNat 16 (2 ^ (aliasOf a).2)
  if 0xF0000000 ≤ a && decide (t < 0xF0600000) && decide (t % 0x10000 < 0x80) then
    if s.crewScrub ((t - 0xF0000000) / 0x10000) then s
    else if 0xF8000000 ≤ a then s.setReg t (if v.getLsbD 0 then s.reg t ||| m else s.reg t &&& ~~~ m)
    else s.setReg t v
  else s.writeOne who a v

/-- The block behind a write answers: that of the word, for the peek window the word it mirrors (R271). -/
def State.writeAnswers (s : State) (a : Nat) : Bool := s.answersAt (if a < 0xF0000000 then a + 0x10000000 else a)

/-- A write of register space by a requester, and whether it succeeded; a 32-bit write takes LO, then HI (R43). A write to the
peek window is ignored, whether the block it mirrors answers or not (R57). -/
def State.writeAny (s : State) (who : Requester) (a : Nat) (wide : Bool) (v : BitVec 32) : State × Bool :=
  if a < 0xE0000000 then (s, false)
  else if a < 0xF0000000 then (s, true)
  else if s.writeAnswers a && (!wide || s.writeAnswers (a + 1)) then
    let s1 := s.writeOne who a (v.setWidth 16)
    let s2 := if wide then s1.writeHigh who (a + 1) ((v >>> 16).setWidth 16) else s1
    (s2.faultEdge, true)
  else (s, false)

/-! ## Failing accesses of the host (R50, R62) -/

/-- Bits of an error of a host request join HST_ACCERR_STAT; the first is captured (R50). (log entry 25, DEDUCED) -/
def State.accError (s : State) (write : Bool) (len a : Nat) (m : Word) : State :=
  if s.reg R.HST_ACCERR_STAT = 0 then
    ((s.setReg R.HST_ACCERR_INFO (BitVec.ofNat 16 (bitIf write 0 + (len - 1) % 1024 * 2))).setReg32 R.HST_ACCERR_ADDR_LO
      (BitVec.ofNat 32 a)).setReg R.HST_ACCERR_STAT m
  else s.orReg R.HST_ACCERR_STAT (m ||| 0x8000)

/-- The bit of the uncorrectable error status that logs an outcome. (log entry 38, PRESUMED) -/
def aerBit (x : AccStatus) : BitVec 32 :=
  match x with
  | .completerAbort => 0x8000
  | .unsupported => 0x100000
  | _ => 0

/-- A host request through PF0 fails (R62): the bits of its causes with the captured word, the outcome, the log of the error, and its
signal where PF0 enables it. (log entry 38, PRESUMED) -/
def State.hostError (s : State) (write : Bool) (len a : Nat) (m : Word) (status : AccStatus) : State :=
  let s1 := s.accError write len a m
  let s2 := { s1 with lastRead := some ⟨status, []⟩, aer := s1.aer ||| aerBit status }.faultEdge
  if (s.fn 0).serr && aerBit status != 0 then s2.send .pcieError else s2

/-! ## The commands of the register interface -/

/-- An access of register space fails because a block does not answer: an error response, or for the host the outcome of R62, with
the lowest word that does not answer captured. -/
def State.regFail (s : State) (who : Requester) (a : Nat) (write : Bool) : State :=
  match who with
  | .host => s.hostError write 1 (if s.answersAt a then a + 1 else a) 8 (if write then .discarded else .completerAbort)
  | _ => { s with lastRead := some ⟨.busErr, []⟩ }

/-- The requester can send accesses: the host only while it reaches the device (R63), and not while PF0 is in D3hot. -/
def State.mayAccess (s : State) (who : Requester) : Bool :=
  match who with
  | .host => s.barUp && !(s.fn 0).d3
  | _ => true

/-- A write by a requester, and what it sees of it. -/
def State.regWrite (s : State) (who : Requester) (a : Nat) (wide : Bool) (v : BitVec 32) : State :=
  if s.mayAccess who then
    match s.writeAny who a wide v with
    | (s1, true) => { s1 with lastRead := some ⟨.ok, []⟩ }
    | (_, false) => s.regFail who a true
  else s

/-- A read by a requester, and what it returns. -/
def State.regRead (s : State) (who : Requester) (a : Nat) (wide : Bool) : State :=
  if s.mayAccess who then
    match s.readAny who a wide with
    | (s1, some v) => { s1 with lastRead := some ⟨.ok, wordsBytes v wide⟩ }
    | (_, none) => s.regFail who a false
  else s

/-- REGISTER_WRITE: word offset `a` from w:0xF000_0000. -/
def execRegisterWrite (who : Requester) (a : BitVec 27) (wide : Bool) (v : BitVec 32) (s : State) : Outcome State Fault Refusal :=
  .next (s.regWrite who (0xF0000000 + a.toNat) wide v)

/-- CLEARING_READ. -/
def execClearingRead (who : Requester) (a : BitVec 27) (wide : Bool) (s : State) : Outcome State Fault Refusal :=
  .next (s.regRead who (0xF0000000 + a.toNat) wide)

/-- SNAPSHOT_READ: a 16-bit ordinary read. -/
def execSnapshotRead (who : Requester) (a : BitVec 27) (s : State) : Outcome State Fault Refusal :=
  .next (s.regRead who (0xF0000000 + a.toNat) false)

/-- ALIAS_READ: word offset `a` from w:0xF800_0000. -/
def execAliasRead (who : Requester) (a : BitVec 27) (wide : Bool) (s : State) : Outcome State Fault Refusal :=
  .next (s.regRead who (0xF8000000 + a.toNat) wide)

/-- ALIAS_WRITE. -/
def execAliasWrite (who : Requester) (a : BitVec 27) (wide : Bool) (v : BitVec 32) (s : State) : Outcome State Fault Refusal :=
  .next (s.regWrite who (0xF8000000 + a.toNat) wide v)

/-- PEEK_WRITE: word offset `a` from w:0xE000_0000. Ignored; PEEKWR for the host, and with it UNPOWERED where the word mirrored
does not answer. (log entry 25, DEDUCED) -/
def execPeekWrite (who : Requester) (a : BitVec 28) (wide : Bool) (v : BitVec 32) (s : State) : Outcome State Fault Refusal :=
  .next (if who == .host then
    (if s.mayAccess who then
      s.hostError true 1 (0xE0000000 + a.toNat) (if s.writeAnswers (0xE0000000 + a.toNat) then 0x10 else 0x18) .discarded
     else s)
  else s.regWrite who (0xE0000000 + a.toNat) wide v)

end Sys2Proof.Machine
end

