-- ==== Sys2Proof/Machine/HostAccess.lean ====
section
/-! DEFINITION. Requests of the PCI Express host (spec/02 R59–R62, spec/17 R480–R482): PF0's BAR0 onto the device map, a VF's BAR0
onto its lane's memory, the VF page, the MSI-X tables, and configuration space; the transactions of the control network
(spec/09 R269–R271). -/
namespace Sys2Proof

/-! ## A request's doublewords and words (R60) -/

/-- The byte enables of a doubleword of a request. -/
def HostReq.enables (r : HostReq) (i : Nat) : BitVec 4 :=
  if i = 0 then r.first else if i + 1 = r.len then r.last else 15

/-- The enables of one word of a doubleword: 0, 1, 2 or 3. -/
def HostReq.wordEnables (r : HostReq) (i h : Nat) : Nat := (r.enables i).toNat / 4 ^ h % 4

/-- The words with an enabled byte, rising, with their enables. -/
def HostReq.words (r : HostReq) : List (Nat × Nat) :=
  (List.range r.len).flatMap (fun i =>
    ([0, 1].filter (fun h => r.wordEnables i h != 0)).map (fun h => (2 * (r.dw + i) + h, r.wordEnables i h)))

/-- A doubleword of the data of a write. -/
def HostReq.datum (r : HostReq) (i : Nat) : BitVec 32 := (r.write.getD []).getD i 0

/-- Every word place of a request: doubleword and half. -/
def HostReq.places (r : HostReq) : List (Nat × Nat) := (List.range r.len).flatMap (fun i => [(i, 0), (i, 1)])

/-- The bytes of a word that its enables let through. -/
def enabledBytes (v : Word) (e : Nat) : List Byte :=
  [if e % 2 = 1 then v.setWidth 8 else 0, if 2 ≤ e then (v >>> 8).setWidth 8 else 0]

/-- The bytes of a completed read, from the words of its places, rising. -/
def HostReq.bytes (r : HostReq) (vs : List Word) : List Byte :=
  (r.places.zip vs).flatMap (fun p => enabledBytes p.2 (r.wordEnables p.1.1 p.1.2))

/-- A word of the data of a write. -/
def HostReq.word (r : HostReq) (i h : Nat) : Word := ((r.datum i) >>> (16 * h)).setWidth 16

/-- The words a request touches in memory, with the data of a write. -/
def HostReq.pairs (r : HostReq) : List (Nat × Word) :=
  (r.places.filter (fun p => r.wordEnables p.1 p.2 != 0)).map (fun p => (2 * (r.dw + p.1) + p.2, r.word p.1 p.2))

end Sys2Proof

namespace Sys2Proof.Machine
open Host

/-! ## Ranges and limits (R61) -/

/-- Register space. -/
def inRegs (a : Nat) : Bool := decide (0xE0000000 ≤ a) && decide (a < 0x100000000)

/-- The longest request for the range of a word, in bytes (R61); without a limit where nothing is mapped. -/
def hostLimit (a : Nat) (write : Bool) : Option Nat :=
  if inRegs a then some 64 else if inSeatMem a || inStore a then some (if write then 256 else 512) else none

/-- The request is over the limit of its range. -/
def oversize (r : HostReq) : Bool :=
  match hostLimit (2 * r.dw) r.write.isSome with
  | some n => decide (n < 4 * r.len)
  | none => false

/-! ## Causes of failure for PF0 (R62) -/

/-- The word is unmapped for PF0. -/
def State.pfUnmapped (s : State) (a : Nat) (write : Bool) : Bool := !(inRegs a) && !(s.pfMapped a write)

/-- The word is of an unpowered crew or domain; a read through the peek window never is. -/
def State.pfUnpowered (s : State) (a : Nat) (write : Bool) : Bool :=
  if inRegs a then (if a < 0xF0000000 then write && !(s.writeAnswers a) else !(s.answersAt a))
  else (inSeatMem a || inStore a) && !(s.crewMem (memCrew a))

/-- The failing causes of a request in the order of R62: the bit of HST_ACCERR_STAT and the word it captures. -/
def State.pfErrors (s : State) (r : HostReq) : List (Nat × Nat) :=
  let ws := r.words
  let wr := r.write.isSome
  let first := fun (p : Nat × Nat → Bool) (bit : Nat) => ((ws.find? p).map (fun w => (bit, w.1))).toList
  first (fun w => s.pfUnmapped w.1 wr) 0
    ++ (if wr then first (fun w => w.2 != 3) 1 else [])
    ++ (if oversize r then [(2, 2 * r.dw)] else [])
    ++ first (fun w => s.pfUnpowered w.1 wr) 3
    ++ (if wr && ws.any (fun w => inRegs w.1 && decide (w.1 < 0xF0000000)) then [(4, 2 * r.dw)] else [])

/-- The router before an unpowered crew that a request would have met (R268). -/
def State.noteUnpowered (s : State) (r : HostReq) : State :=
  match r.words.find? (fun w => !(inRegs w.1) && s.pfUnpowered w.1 r.write.isSome) with
  | some w => s.orReg (R.MESH_ERR (routerBefore 90 (memCrew w.1))) 4
  | none => s

/-- A request of PF0 fails: its bits, the lowest of its captured words, and the response for the first cause. -/
def State.pfFail (s : State) (r : HostReq) (es : List (Nat × Nat)) : State :=
  let m := es.foldl (fun (m : Word) e => m ||| BitVec.ofNat 16 (2 ^ e.1)) 0
  let low := es.foldl (fun a e => min a e.2) ((es.headD (0, 0)).2)
  (s.noteUnpowered r).hostError r.write.isSome r.len low m
    (if r.write.isNone then .completerAbort else if (es.headD (0, 0)).1 = 1 then .unsupported else .discarded)

/-! ## A request that does not fail -/

/-- A completion of a host access. -/
def State.completion (s : State) (x : AccStatus) (bs : List Byte) : State := { s.faultEdge with lastRead := some ⟨x, bs⟩ }

/-- A request carried out: to register space over the control network, to memory over the bulk mesh; one that touches no word is
complete. A write is posted. It waits while the host interface has no tag free (R254). -/
def State.hostServe (s : State) (n : Nat) (r : HostReq) : State :=
  let posted := fun (t : State) => if r.write.isSome then t.completion .ok [] else t
  if r.words.isEmpty then s.completion .ok (if r.write.isSome then [] else r.bytes (r.places.map (fun _ => 0)))
  else if inRegs (2 * r.dw) then posted (s.pushCtl .host (.host r))
  else
    match s.startOp .host (if n = 0 then 0 else s.slotLane (n - 1)) (.host n r) r.write.isSome r.pairs with
    | some t => posted t
    | none => s

/-- The accesses of a request to memory are complete (R62, R255): the words of a read, or its failure. Data with an uncorrectable error
come marked poisoned; a write that was poisoned leaves its trace in MESH_ERR alone. -/
def State.hostDone (s : State) (n : Nat) (r : HostReq) (got : List (Nat × Word)) (bad : Option (PktCause × Nat)) : State :=
  let wr := r.write.isSome
  let fails := fun (m : Word) (a : Nat) =>
    if n = 0 then s.hostError wr r.len a m (if wr then .discarded else .completerAbort)
    else { s.vfErrSet n 4 with lastRead := some ⟨if wr then .discarded else .unsupported, []⟩ }
  match bad with
  | none =>
    if wr then s
    else s.completion .ok (r.bytes (r.places.map (fun p => ((got.find? (fun g => g.1 == 2 * (r.dw + p.1) + p.2)).map Prod.snd).getD 0)))
  | some (.unpowered, a) => fails 8 a
  | some (.memErr, _) => if wr then s else s.completion .poisoned []
  | some (.poisoned, _) => if wr then s else s.completion .poisoned []
  | some (_, a) => fails 1 a

/-! ## Control network transactions (R269–R271) -/

/-- The core behind a requester of the control network. -/
def requesterCore (who : Requester) : CoreId := match who with | .cox c => .cox c | _ => .boathouse

/-- A transaction of a core fails: an imprecise error report; a register that waited for it is free again (R126). -/
def State.ctlCoreFail (s : State) (c : CoreId) (a : Addr) (dst : Option LoadDst) : State :=
  let s1 := match dst with
    | some d => s.setCore c ((s.core c).unawait d)
    | none => s
  (s1.pushErr c a).csyncCheck c

/-- The data of a read have come for a core. -/
def State.ctlReturn (s : State) (c : CoreId) (dst : Option LoadDst) (v : BitVec 32) : State :=
  match dst with
  | some d => s.setCore c { s.core c with returned := (s.core c).returned ++ [⟨d, v⟩] }
  | none => s

/-- A transaction in hand keeps its place, with the words that have been read and how many words have been served. -/
def State.ctlKeep (s : State) (t : CtlTxn) (i n : Nat) (vs : List Word) : State :=
  { s with ctl := s.ctl.set i { t with at_ := t.at_ + n, got := t.got ++ vs } }.ctlServed t.who

/-- A transaction of a core reaches its block; a 32-bit peek read samples its words one after the other (R58). -/
def State.ctlCore (s : State) (t : CtlTxn) (i : Nat) (a : Addr) (wide : Bool) (write : Option (BitVec 32)) (dst : Option LoadDst) : State :=
  let c := requesterCore t.who
  match write with
  | some v =>
    let r := (s.ctlLeave t i).writeAny t.who a.toNat wide v
    if r.2 then r.1.csyncCheck c else (s.ctlLeave t i).ctlCoreFail c a dst
  | none =>
    if wide && decide (a.toNat < 0xF0000000) then
      match t.got with
      | [] => s.ctlKeep t i 1 [s.view t.who a.toNat]
      | lo :: _ => (s.ctlLeave t i).ctlReturn c dst (s.view t.who (a.toNat + 1) ++ lo)
    else
      match (s.ctlLeave t i).readAny t.who a.toNat wide with
      | (s1, some v) => s1.ctlReturn c dst v
      | (s1, none) => s1.ctlCoreFail c a dst

/-- The read of one word of register space for the host: with both bytes an ordinary read, with one without side effects (R60). -/
def State.hostReadWord (s : State) (a e : Nat) : State × Word :=
  if e = 0 then (s, 0) else if e = 3 then s.readOne .host a else (s, s.view .host a)

/-- The words at some halves of a doubleword. -/
def State.hostReadHalves (s : State) (r : HostReq) (i : Nat) : List Nat → State × List Word
  | [] => (s, [])
  | h :: hs =>
    let q := s.hostReadWord (2 * (r.dw + i) + h) (r.wordEnables i h)
    let q2 := q.1.hostReadHalves r i hs
    (q2.1, q.2 :: q2.2)

/-- The write of one doubleword (R43). -/
def State.hostWriteDw (s : State) (r : HostReq) (i : Nat) : State :=
  let a := 2 * (r.dw + i)
  let s1 := if r.wordEnables i 0 = 0 then s else s.writeOne .host a (r.word i 0)
  if r.wordEnables i 1 = 0 then s1
  else if r.wordEnables i 0 = 0 then s1.writeOne .host (a + 1) (r.word i 1)
  else s1.writeHigh .host (a + 1) (r.word i 1)

/-- The next access of a host request at its block: an aligned doubleword (R60), through the peek window one word (R58). A block that has
stopped answering meanwhile ends the request (R62). -/
def State.ctlHost (s : State) (t : CtlTxn) (i : Nat) (r : HostReq) : State :=
  let d := t.at_ / 2
  let a := 2 * (r.dw + d)
  let hs := if a < 0xF0000000 then [t.at_ % 2] else [0, 1]
  let wr := r.write.isSome
  match hs.find? (fun h => r.wordEnables d h != 0 && !(s.answersAt (a + h))) with
  | some h => (s.ctlLeave t i).hostError wr r.len (a + h) 8 (if wr then .discarded else .completerAbort)
  | none =>
    let q := if wr then (s.hostWriteDw r d, []) else s.hostReadHalves r d hs
    if t.at_ + hs.length < 2 * r.len then (q.1.ctlKeep t i hs.length q.2).faultEdge
    else if wr then (q.1.ctlLeave t i).faultEdge
    else (q.1.ctlLeave t i).completion .ok (r.bytes (t.got ++ q.2))

/-- The transaction is in the middle of a doubleword of the peek window, where no other is served (R47, R58). -/
def CtlTxn.midway (t : CtlTxn) : Bool := t.at_ % 2 == 1

/-- CONTROL_TRANSACTION: the n-th transaction under way, other than the advances, is served. -/
def execControlTransaction (n : Nat) (s : State) : Outcome State Fault Refusal :=
  .next (match s.ctlPick n (fun t => t.advance.isNone) with
    | some (t, i) =>
      if s.ctl.any (fun u => u.midway && u.who != t.who) then s
      else match t.kind with
      | .core a wide write dst => s.ctlCore t i a wide write dst
      | .host r => s.ctlHost t i r
      | .advance _ => s
    | none => s)

/-- The ordinary word that an address of register space names, itself or through its alias or the peek window (R52, R56). -/
def ordinaryOf (a : Nat) : Nat :=
  let b := if a < 0xF0000000 then a + 0x10000000 else a
  if 0xF8000000 ≤ b then (aliasOf b).1 else b

/-- The address names a crew identity word, which never gives an error response (R27). -/
def identityWord (a : Nat) : Bool :=
  let o := ordinaryOf a
  decide (o < 0xF0600000) && (o % 0x10000 == 0xFFF0 || o % 0x10000 == 0xFFF1)

/-- CONTROL_TIMEOUT: not accepted within 10 µs. An identity word always accepts (R27); a write to the peek window is gone without
an exception (R57). -/
def execControlTimeout (n : Nat) (s : State) : Outcome State Fault Refusal :=
  .next (match s.ctlPick n (fun t => t.advance.isNone) with
    | some (t, i) =>
      match t.kind with
      | .core a _ write dst =>
        if identityWord a.toNat then s
        else if write.isSome && decide (a.toNat < 0xF0000000) then (s.ctlLeave t i).csyncCheck (requesterCore t.who)
        else (s.ctlLeave t i).ctlCoreFail (requesterCore t.who) a dst
      | .host r =>
        let a := 2 * (r.dw + t.at_ / 2) + t.at_ % 2
        if identityWord a then s
        else (s.ctlLeave t i).hostError r.write.isSome r.len a 8 (if r.write.isSome then .discarded else .completerAbort)
      | .advance _ => s
    | none => s)

/-! ## MSI-X tables (R480, R483) -/

/-- A doubleword of a function's table. -/
def State.msixGet (s : State) (n i : Nat) : BitVec 32 := mapGet msixDefault (s.fn n).table i

/-- A doubleword of a function's pending bits. -/
def State.pbaGet (s : State) (n i : Nat) : BitVec 32 := if i < 2 then ((s.fn n).pba >>> (32 * i)).setWidth 32 else 0

/-- The bytes of a doubleword that the enables name, replaced. -/
def mergeDw (old v : BitVec 32) (e : BitVec 4) : BitVec 32 :=
  let m : BitVec 32 := BitVec.ofNat 32 (((List.range 4).map (fun b => if e.getLsbD b then 255 * 256 ^ b else 0)).sum)
  (old &&& ~~~ m) ||| (v &&& m)

/-- A write of a doubleword of a table; what a cleared mask held goes out. -/
def State.msixPut (s : State) (n i : Nat) (v : BitVec 32) (e : BitVec 4) : State :=
  let f := s.fn n
  (s.setFn n { f with table := mapSet msixDefault f.table i (mergeDw (mapGet msixDefault f.table i) v e) }).msixFlush n

/-- A request to a table of MSI-X at a doubleword of BAR2, pending bits after it. -/
def State.msixRequest (s : State) (n base : Nat) (r : HostReq) : State :=
  match r.write with
  | some _ =>
    { (List.range r.len).foldl (fun (t : State) i =>
        let d := r.dw + i - base
        if d < 256 then t.msixPut n d (r.datum i) (r.enables i) else t) s with lastRead := some ⟨.ok, []⟩ }
  | none =>
    { s with lastRead := some ⟨.ok, (List.range r.len).flatMap (fun i =>
        let d := r.dw + i - base
        let v := mergeDw 0 (if d < 256 then s.msixGet n d else s.pbaGet n (d - 256)) (r.enables i)
        wordsBytes v true)⟩ }

/-! ## Configuration space (R62, R63, R478–R480)

The spec states the items; their places in the header are those of PCI Express. (log entry 38, PRESUMED) -/

/-- The identity items of a function: Vendor ID, Device ID, Revision ID (FEAT0.STEP) and class code (R478). -/
def pciIdentity (a : Nat) : Word × Word × Byte × BitVec 24 :=
  (0x1F9B, if a = 0 then 0x9600 else 0x9601, BitVec.ofNat 8 ((featWord 0).toNat / 16 % 16), 0x120000)

/-- TotalVFs, InitialVFs, First VF Offset and VF Stride of PF0 (R478): VF s is function s + 1. -/
def sriovItems : Nat × Nat × Nat × Nat := (16, 16, 1, 1)

/-- The size in bytes of each BAR of a function, by its number, and whether it is prefetchable (R480). -/
def barSize (a bar : Nat) : Option (Nat × Bool) :=
  match bar with
  | 0 => some (if a = 0 then (2 ^ 33, false) else (2 ^ 32, true))
  | 2 => some (4096, false)
  | _ => none

/-- A 64-bit memory BAR of PF0 as it reads: its address above its size, and its type. -/
def State.barValue (s : State) (bar : Nat) : BitVec 64 :=
  match barSize 0 bar with
  | some (size, pre) => ((s.fn 0).bars.getD (bar / 2) 0 &&& ~~~ BitVec.ofNat 64 (size - 1)) ||| BitVec.ofNat 64 (4 + bitIf pre 3)
  | none => 0

/-- A doubleword of the header of a function; none where the spec and the standard give the model no value. -/
def State.cfgDw (s : State) (n i : Nat) : Option (BitVec 32) :=
  let f := s.fn n
  let id := pciIdentity n
  match i with
  | 0 => some (id.2.1 ++ id.1)
  | 1 => some (BitVec.ofNat 32 (bitIf f.mse 1 + bitIf f.bme 2 + bitIf f.serr 8 + 0x100000))
  | 2 => some (id.2.2.2 ++ id.2.2.1)
  | 4 => if n = 0 then some ((s.barValue 0).setWidth 32) else some 0
  | 5 => if n = 0 then some ((s.barValue 0 >>> 32).setWidth 32) else some 0
  | 6 => if n = 0 then some ((s.barValue 2).setWidth 32) else some 0
  | 7 => if n = 0 then some ((s.barValue 2 >>> 32).setWidth 32) else some 0
  | _ => none

/-- A write of a doubleword of the header: the Command register (memory decoding and error signalling are PF0's), and PF0's BARs. -/
def State.cfgPut (s : State) (n i : Nat) (v : BitVec 32) (e : BitVec 4) : State :=
  let x := mergeDw ((s.cfgDw n i).getD 0) v e
  if i = 1 then
    (s.setFn n { s.fn n with mse := n == 0 && x.getLsbD 1, serr := n == 0 && x.getLsbD 8 }).setBme n (x.getLsbD 2)
  else if n = 0 ∧ 4 ≤ i ∧ i < 8 then
    let b := (i - 4) / 2
    let old := (s.fn 0).bars.getD b 0
    let new : BitVec 64 := if i % 2 = 0 then ((old >>> 32).setWidth 32 : BitVec 32) ++ x else x ++ (old.setWidth 32 : BitVec 32)
    s.setFn 0 { s.fn 0 with bars := (s.fn 0).bars.set b new }
  else s

/-- A configuration request: of one doubleword; what the model has no value for reads as a free value. -/
def State.cfgRequest (s : State) (n : Nat) (r : HostReq) : State :=
  match r.write with
  | some _ => (s.cfgPut n r.dw (r.datum 0) r.first).completion .ok []
  | none =>
    match s.cfgDw n r.dw with
    | some v => s.completion .ok (wordsBytes (mergeDw 0 v r.first) true)
    | none => s.drawFree.2.completion .ok (wordsBytes (mergeDw 0 (s.drawFree.1.setWidth 32) r.first) true)

/-! ## PF0 -/

/-- An atomic operation, which the endpoint does not support (R16, R477). -/
def State.atomicRefused (s : State) : State :=
  let s1 := { s with lastRead := some ⟨.unsupported, []⟩, aer := s.aer ||| aerBit .unsupported }
  if (s.fn 0).serr then s1.send .pcieError else s1

/-- HOST_REQUEST: a request through PF0. In D3hot its BARs answer as unsupported. -/
def execHostRequest (r : HostReq) (s : State) : Outcome State Fault Refusal :=
  .next (if r.space == .config then (if s.hostUp then s.cfgRequest 0 r else s)
    else if !s.barUp then s
    else if (s.fn 0).d3 then { s with lastRead := some ⟨.unsupported, []⟩ }
    else if r.space == .atomic then s.atomicRefused
    else if r.space == .bar2 then s.msixRequest 0 0 r
    else
      let es := s.pfErrors r
      if es.isEmpty then s.hostServe 0 r else s.pfFail r es)

/-! ## A VF (R481, R482) -/

/-- A request through a VF fails. -/
def State.vfFail (s : State) (n : Nat) (r : HostReq) : State :=
  { s.vfErrSet n 4 with lastRead := some ⟨if r.write.isNone then .unsupported else .discarded, []⟩ }

/-- A VF's BAR0 serves the request: no partial write, within the limits, every word of the lane. -/
def State.vfServes (s : State) (k : Nat) (r : HostReq) : Bool :=
  s.slotState k == 1 && !(oversize r) && r.words.all (fun w => s.vfMay k w.1 && (r.write.isNone || w.2 == 3))

/-- The address that stands for a word of a VF page in the snapshots of R45. -/
def vfQuad (n off : Nat) : Nat := 2 ^ 32 + n * 16 + off

/-- A word of a VF page, by word offset. -/
def State.vfPageWord (s : State) (n w : Nat) : Word :=
  if w = 0 then BitVec.ofNat 16 (s.slotLane (n - 1) + s.slotState (n - 1) * 1024)
  else if w = 4 then mapGet (fun _ => 0) s.vfErr n
  else if 0x10 ≤ w ∧ w < 0x1C ∧ w ≠ 0x14 then s.chWord n (w - 0x10)
  else 0

/-- An ordinary read of a word of a VF page: VF_ERR clears, HEAD and CUR are taken whole (R45). -/
def State.vfPageRead (s : State) (n w : Nat) : State × Word :=
  let o := w - 0x10
  let quad := decide (0x10 ≤ w ∧ w < 0x14) || decide (0x18 ≤ w ∧ w < 0x1C)
  if w = 4 then ({ s with vfErr := mapSet (fun _ => 0) s.vfErr n 0 }, s.vfPageWord n w)
  else if quad && o % 4 == 0 then
    let tail := [s.vfPageWord n (w + 1), s.vfPageWord n (w + 2), s.vfPageWord n (w + 3)]
    ({ s with snaps := mapSet (fun _ => []) s.snaps (vfQuad n o * 98 + 97) tail }, s.vfPageWord n w)
  else if quad then (s, ((s.snap .host (vfQuad n (o - o % 4)))[o % 4 - 1]?).getD (s.vfPageWord n w))
  else (s, s.vfPageWord n w)

/-- The words of a read of a VF page. -/
def State.vfPageReads (s : State) (n : Nat) (r : HostReq) : List (Nat × Nat) → List Byte → State × List Byte
  | [], acc => (s, acc)
  | (i, h) :: rest, acc =>
    let e := r.wordEnables i h
    let w := 2 * (r.dw + i) + h
    let q := if e = 3 then s.vfPageRead n w else (s, s.vfPageWord n w)
    q.1.vfPageReads n r rest (acc ++ enabledBytes q.2 e)

/-- A write of a word of a VF page; a doorbell takes both its words. -/
def State.vfPageWrite (s : State) (n w : Nat) (v : Word) : State :=
  if w = 1 then s.vfKill (n - 1) v
  else if 0x10 ≤ w ∧ w < 0x14 then s.setChWord n (w - 0x10) v
  else if w = 0x14 then s.chCmd n v
  else s

/-- A write of a doubleword of a VF page. -/
def State.vfPageDw (s : State) (n : Nat) (r : HostReq) (i : Nat) : State :=
  let v := r.datum i
  if r.dw + i = 1 then
    (if r.enables i = 15 then s.vfDoorbell (n - 1) (v.setWidth 16) ((v >>> 16).toNat % 128) else s)
  else
    [0, 1].foldl (fun (t : State) h =>
      if r.wordEnables i h = 0 then t else t.vfPageWrite n (2 * (r.dw + i) + h) ((v >>> (16 * h)).setWidth 16)) s

/-- A request to a VF page. (log entry 59, DEDUCED) -/
def State.vfPage (s : State) (n : Nat) (r : HostReq) : State :=
  if 64 < 4 * r.len then s.vfFail n r
  else
    match r.write with
    | some _ =>
      if r.words.any (fun w => w.2 != 3) then { s.vfErrSet n 4 with lastRead := some ⟨.unsupported, []⟩ }
      else { (List.range r.len).foldl (fun (t : State) i => t.vfPageDw n r i) s with lastRead := some ⟨.ok, []⟩ }
    | none =>
      let q := s.vfPageReads n r r.places []
      { q.1 with lastRead := some ⟨.ok, q.2⟩ }

/-- VF_ACCESS: a request through the VF of a slot. -/
def execVfAccess (k : Fin 16) (r : HostReq) (s : State) : Outcome State Fault Refusal :=
  let n := k.val + 1
  .next (if !(s.hostUp && (s.fn n).present) then s
    else if r.space == .config then s.cfgRequest n r
    else if (s.fn n).d3 then { s with lastRead := some ⟨.unsupported, []⟩ }
    else if r.space == .bar2 then (if r.dw < 256 then s.vfPage n r else s.msixRequest n 256 r)
    else if r.space == .bar0 && s.vfServes k.val r then s.hostServe n r else s.vfFail n r)

end Sys2Proof.Machine
end

