-- ==== Sys2Proof/Machine/Arbiter.lean ====
section
/-! DEFINITION. The arbitration of the bulk mesh's routers (spec/09 R255, R258–R263, R266, R268), and what packets do that leave it by
links A and H. -/
namespace Sys2Proof.Machine
open Host

/-! ## Accesses whose last answer has come -/

/-- An access is complete, and its sender learns it. -/
def State.opEnd (s : State) (o : MemOp) : State :=
  match o.use with
  | .host n r => s.hostDone n r o.got o.bad
  | .channel n => s.channelDone n o.got (o.bad.map Prod.fst)
  | .remote k wash => s.remoteDone o.who k wash o.got (o.bad.map Prod.fst)
  | .nobody => s

/-- Every access that is complete ends, in the order in which they began. -/
def State.opsSettle : Nat → State → State
  | 0, s => s
  | n + 1, s =>
    match s.ops.find? s.opDone with
    | some o => opsSettle n ((s.dropOp o).opEnd o).sendWaiting
    | none => s

/-! ## Priority and age (R258, R261, R262) -/

/-- The packet's age passes the promotion threshold. -/
def State.overAge (s : State) (p : Packet) : Bool :=
  let thr := s.fld R.MESH_STARVE 0 12
  thr != 0 && decide (16 * thr < s.pktAge p)

/-- A packet at an input as it is arbitrated: promoted once it has passed the threshold, and, a request that waits at its injection
(inputs L, A, H), with its requester's present priority. -/
def State.asArbitrated (s : State) (input : Nat) (p : Packet) : Packet :=
  { p with promoted := p.promoted || s.overAge p
           prio := if input < 3 && (p.vc == 0 || p.load.isSome) then s.meshPrio p.req else p.prio }

/-- The priority a packet is arbitrated at. -/
def Packet.effPrio (p : Packet) : Nat := if p.promoted then 7 else p.prio

/-! ## Credit (R253, R259, R266) -/

/-- The Gweni port whose controller a router carries. -/
def routerPort (r : Nat) : Option Nat := (List.range 32).find? (fun p => portCrew p == r)

/-- The flits that the place beyond an output still takes on a channel. -/
def State.credit (s : State) (r out : Nat) (p : Packet) : Nat :=
  if out < 4 then 8 - flitsOf (s.meshIn (linkEnd r out).1 (linkEnd r out).2 p.vc)
  else if out = 4 then (if p.vc = 0 then 8 - flitsOf ((s.arrived r).filter (fun q => q.vc == 0)) else 8)
  else if p.load.isSome then (match routerPort r with | some n => 8 - s.egressFlits n p.vc | none => 8)
  else 8

/-- The key of an output's channel. -/
def holdKey (r out vc : Nat) : Nat := (r * 7 + out) * 2 + vc

/-- The input that a grant holds an output for on a channel, until the packet granted has gone (R260). (log entry 72, DEDUCED) -/
def State.holder (s : State) (r out vc : Nat) : Option Nat :=
  match mapGet (fun _ => 0) s.meshHold (holdKey r out vc) with
  | 0 => none
  | n + 1 => some n

/-- The output is held for an input on a channel, or for none. -/
def State.setHolder (s : State) (r out vc h : Nat) : State := { s with meshHold := mapSet (fun _ => 0) s.meshHold (holdKey r out vc) h }

/-- The heads that may be granted an output, in input order: with credit left, and where the output is held, the holder's alone, once
it fits (R259, R260). -/
def State.meshHeads (s : State) (r out : Nat) : List (Nat × Nat × Packet) :=
  (List.range 7).flatMap (fun i => [0, 1].filterMap (fun vc =>
    match s.meshIn r i vc with
    | [] => none
    | p :: _ =>
      let free := s.credit r out p
      let may := match s.holder r out vc with
        | some h => h == i && decide (p.flits ≤ free)
        | none => free != 0
      if routeOut r p = out && may then some (i, vc, s.asArbitrated i p) else none))

/-- The head that is granted: highest priority, then oldest, then input order (R259). -/
def State.meshGrant (s : State) (hs : List (Nat × Nat × Packet)) : Option (Nat × Nat × Packet) :=
  hs.foldl (fun best h =>
    match best with
    | none => some h
    | some b =>
      if b.2.2.effPrio < h.2.2.effPrio ∨ (b.2.2.effPrio = h.2.2.effPrio ∧ s.pktAge b.2.2 < s.pktAge h.2.2) then some h
      else some b) none

/-- The packets of one burst at the head of an input: one source, destination and channel, at most `room` flits (R260). -/
def burstOf (h : Packet) : Nat → List Packet → List Packet × List Packet
  | _, [] => ([], [])
  | room, p :: ps =>
    if p.src = h.src && p.req == h.req && p.dst = h.dst && p.exit == h.exit && decide (p.flits ≤ room) then
      let r := burstOf h (room - p.flits) ps
      (p :: r.1, r.2)
    else ([], p :: ps)

/-! ## Grants -/

/-- Heads that have just passed the promotion threshold stay promoted, and the router notes it (R261). -/
def State.promote (s : State) (r : Nat) (hs : List (Nat × Nat × Packet)) : State :=
  hs.foldl (fun t h =>
    match t.meshIn r h.1 h.2.1 with
    | p :: ps => if h.2.2.promoted && !p.promoted then
        (t.setMeshIn r h.1 h.2.1 ({ p with promoted := true } :: ps)).orReg (R.MESH_ERR r) 8 else t
    | [] => t) s

/-- A request for a crew without power, at the router from which it would enter that crew's, or at that crew's own (R268). -/
def State.unpoweredAt (s : State) (r out : Nat) (p : Packet) : Bool :=
  p.vc == 0 && p.exit == .crew && !(s.crewMem p.dst) && (r == p.dst || (decide (out < 4) && (linkEnd r out).1 == p.dst))

/-- An input gives up its first packets; what waits at a local input moves up (R253, R266). -/
def State.leaveInput (s : State) (r i vc : Nat) (rest : List Packet) : State :=
  if i < 3 then (s.setMeshIn r i vc rest).pump r i vc else s.setMeshIn r i vc rest

/-- A packet has left the mesh by link A or H: a transport packet goes to its port, one that a flit error poisoned is discarded; an
answer is counted. -/
def State.leaveMesh (s : State) (r : Nat) (p : Packet) : State :=
  match p.load with
  | some q => if p.poison then s else (match routerPort r with | some n => s.atPort n q | none => s)
  | none => (s.takeAnswer p).opsSettle (s.ops.length + 1)

/-- A flit error on a link between routers: corrected, or the packet is poisoned; the receiving router notes it (R255). -/
def State.linkFlaw (s : State) (r out vc : Nat) (flaw : LinkFlaw) (before : Nat) : State :=
  let e := linkEnd r out
  match flaw with
  | .none => s
  | .single => s.orReg (R.MESH_ERR e.1) 1
  | .double =>
    (s.setMeshIn e.1 e.2 vc ((s.meshIn e.1 e.2 vc).zipIdx.map (fun x => if x.2 = before then { x.1 with poison := true } else x.1))).orReg
      (R.MESH_ERR e.1) 2

/-- A burst goes through an output: to the next router, to the crew, or out of the mesh. -/
def State.moveBurst (s : State) (r out vc : Nat) (ps : List Packet) (flaw : LinkFlaw) : State :=
  if out < 4 then
    let e := linkEnd r out
    let q := s.meshIn e.1 e.2 vc
    (s.setMeshIn e.1 e.2 vc (q ++ ps)).linkFlaw r out vc flaw q.length
  else if out = 4 then
    (if s.crewMem r then { s with exits := mapSet (fun _ => []) s.exits r (s.arrived r ++ ps) } else s)
  else ps.foldl (fun t p => t.leaveMesh r p) s

/-- One grant of an output of a router (R259–R262, R268): a burst that the place beyond takes, or, while that has not the room for the
packet granted, the output held for it. -/
def State.arbitrate (s : State) (r out : Nat) (flaw : LinkFlaw) : State :=
  let hs := s.meshHeads r out
  let s1 := s.promote r hs
  match s.meshGrant hs with
  | none => s1
  | some (i, vc, p) =>
    if s.unpoweredAt r out p then
      let s2 := (s1.setHolder r out vc 0).leaveInput r i vc ((s1.meshIn r i vc).drop 1)
      (s2.answer r p .error .unpowered p.addr [] false).orReg (R.MESH_ERR r) 4
    else
      let free := s.credit r out p
      if free < p.flits then s1.setHolder r out vc (i + 1)
      else
        let b := burstOf p (if out < 4 then free else 64) (s1.meshIn r i vc)
        let s2 := (s1.setHolder r out vc 0).leaveInput r i vc b.2
        (s2.moveBurst r out vc (b.1.map (s.asArbitrated i)) flaw).addWrap32 (R.MESH_BUSY_LO r out) (flitsOf b.1)

/-- ROUTER_ARBITRATION: an output of a router grants a burst, with what befalls its flits on the link. -/
def execRouterArbitration (router : Fin 96) (turn : LinkTurn) (s : State) : Outcome State Fault Refusal :=
  if s.meshUp then .next (s.arbitrate router.val turn.out.val turn.flaw) else .next s

end Sys2Proof.Machine
end

