-- ==== Sys2Proof/Machine/BlockRepeat.lean ====
section
/-! DEFINITION. Block repeat (spec/04 R121–R124): the instructions start it, BLOCK_REPEAT_ELEMENT carries out one
element; a4 is the source, a5 the destination, a6 the remaining count. -/
namespace Sys2Proof.Machine
open Host

/-- CST with Z set to a value. -/
def Core.setZ (k : Core) (z : Bool) : Core := k.setFlags { k.flags with z := z }

/-- The flags left when a6 is or reaches 0 (R121). -/
def Core.repEnd (k : Core) (r : Rep) : Core :=
  match r with
  | .cmp => k.setZ true
  | .scan _ => k.setZ false
  | .scanNe _ => k.setZ false
  | _ => k

/-- A block-repeat instruction starts: with a6 = 0 it completes, else its elements follow. -/
def State.startRep (s : State) (c : CoreId) (i : Instr) (x : Option (Fin 16)) (r : Core → Rep) : State :=
  s.runInsn c { word := i.word, as := [4, 5, 6], ws := x.toList } (fun t =>
    let k := t.core c
    if k.ra 6 = 0 then .done (t.setCore c (k.repEnd (r k)))
    else .wait (t.setCore c { k with wait := some (.rep (r k)) }))

/-- REPMOV. -/
def execRepmov (c : CoreId) (s : State) : Outcome State Fault Refusal := .next (s.startRep c (.repmov c) none (fun _ => .mov))

/-- REPMOV.D. -/
def execRepmovD (c : CoreId) (s : State) : Outcome State Fault Refusal := .next (s.startRep c (.repmovD c) none (fun _ => .movD))

/-- REPSET. -/
def execRepset (c : CoreId) (x : Fin 16) (s : State) : Outcome State Fault Refusal :=
  .next (s.startRep c (.repset c x) (some x) (fun k => .set (k.rw x)))

/-- REPCMP. -/
def execRepcmp (c : CoreId) (s : State) : Outcome State Fault Refusal := .next (s.startRep c (.repcmp c) none (fun _ => .cmp))

/-- REPSCAN. -/
def execRepscan (c : CoreId) (x : Fin 16) (s : State) : Outcome State Fault Refusal :=
  .next (s.startRep c (.repscan c x) (some x) (fun k => .scan (k.rw x)))

/-- REPSCAN.NE. -/
def execRepscanNe (c : CoreId) (x : Fin 16) (s : State) : Outcome State Fault Refusal :=
  .next (s.startRep c (.repscanNe c x) (some x) (fun k => .scanNe (k.rw x)))

/-- How one element ends: done, the core having its new a4, a5 and a6; the instruction stopped at it; waiting for its words, in the
state given; held back; or a precise failure. -/
inductive ElemRes where
  | next (s : State)
  | stop (s : State)
  | wait (s : State)
  | stall
  | fault (s : State) (code : Nat) (addr : Addr)

/-- An element whose read has not given it its word. -/
def NowRes.holds (r : NowRes) (c : CoreId) : ElemRes :=
  match r with
  | .ok s _ => .wait s
  | .wait s => .wait s
  | .stall => .stall
  | .fault s code a => .fault s code a
  | .error s a => .fault s (accessCode c) a

/-- The core after one element done: a4 and a5 moved, a6 one less. -/
def Core.advance (k : Core) (d4 d5 : Addr) : Core :=
  ((k.setA 4 (k.ra 4 + d4)).setA 5 (k.ra 5 + d5)).setA 6 (k.ra 6 - 1)

/-- One element (R121). -/
def State.repElement (s : State) (c : CoreId) (r : Rep) : ElemRes :=
  let k := s.core c
  let copy := fun (d : Addr) =>
    match s.loadNow c (k.ra 4) false with
    | .ok s1 v =>
      match s1.storeAt c (k.ra 5) false v with
      | .stall => ElemRes.stall
      | .fault code a => .fault s1 code a
      | .ok s2 => .next (s2.setCore c ((s2.core c).advance d d))
    | r => r.holds c
  let scan := fun (hit : Word → Bool) =>
    match s.loadNow c (k.ra 4) false with
    | .ok s1 v =>
      if hit (v.setWidth 16) then ElemRes.stop (s1.setCore c ((s1.core c).setZ true))
      else .next (s1.setCore c ((s1.core c).advance 1 0))
    | r => r.holds c
  match r with
  | .mov => copy 1
  | .movD => copy (-1)
  | .set x =>
    match s.storeAt c (k.ra 5) false (x.setWidth 32) with
    | .stall => .stall
    | .fault code a => .fault s code a
    | .ok s1 => .next (s1.setCore c ((s1.core c).advance 0 1))
  | .cmp =>
    match s.loadNow c (k.ra 4) false with
    | .ok s1 v =>
      match s1.loadNow c (k.ra 5) false with
      | .ok s2 u =>
        let x : Word := v.setWidth 16
        let y : Word := u.setWidth 16
        if x ≠ y then .stop (s2.setCore c ((s2.core c).setFlags (subFlags x y false).2))
        else .next (s2.setCore c ((s2.core c).advance 1 1))
      | r => r.holds c
    | r => r.holds c
  | .scan x => scan (fun v => v == x)
  | .scanNe x => scan (fun v => v != x)

/-- Reads of lines that elements to come will need go out while one waits (R122): of up to seven blocks ahead on a stream of `left`
elements at `a`, `down` telling its direction, with no more than eight lines outstanding in all. -/
def State.readAhead (s : State) (c : CoreId) (a : Addr) (down : Bool) (left : Nat) : State :=
  ((List.range 7).filter (fun i => decide (32 * i < left))).foldl (fun t i =>
    let n := (if down then a - BitVec.ofNat 32 (32 * (i + 1)) else a + BitVec.ofNat 32 (32 * (i + 1))).toNat
    match t.access c n false with
    | .mem w =>
      let b := blockOf n w
      if cacheable c w && !(nearTo c w) && ((t.core c).line b).isNone && !((t.core c).misses.any (fun m => m.block == b)) &&
          decide (((t.readsOf c).filter (fun r => r.use == .insn)).length + (t.core c).misses.length < 8) then
        (t.blockWords c .insn b).sent t
      else t
    | _ => t) s

/-- The lines ahead of the elements of a block repeat. -/
def State.repAhead (s : State) (c : CoreId) (r : Rep) : State :=
  let k := s.core c
  let left := (k.ra 6).toNat
  match r with
  | .set _ => s
  | .movD => s.readAhead c (k.ra 4) true left
  | .cmp => (s.readAhead c (k.ra 4) false left).readAhead c (k.ra 5) false left
  | _ => s.readAhead c (k.ra 4) false left

/-- BLOCK_REPEAT_ELEMENT: one element of the block-repeat instruction under way. After the last one, or one that stops
it, the instruction completes; under CST.SS each element is followed by STEP (R124). -/
def execBlockRepeatElement (c : CoreId) (s : State) : Outcome State Fault Refusal :=
  let k := s.core c
  match k.wait with
  | some (.rep r) =>
    if k.stopReq || k.stopping.isSome || k.mode != .running then .next s
    else
      match s.repElement c r with
      | .stall => .next s
      | .wait u => .next (u.repAhead c r)
      | .fault u code a => .next (u.raise c code false k.pc a)
      | .stop s1 => .next (s1.complete c (cstSs k.cst))
      | .next s1 =>
        if (s1.core c).ra 6 = 0 then .next ((s1.setCore c ((s1.core c).repEnd r)).complete c (cstSs k.cst))
        else if cstSs k.cst then .next (s1.boundary c true)
        else .next s1
  | _ => .next s

end Sys2Proof.Machine
end

