-- ==== Sys2Proof/Machine/ScalarMem.lean ====
section
/-! DEFINITION. Scalar loads and stores (spec/04 R111), what follows an outstanding load (R112, R126), and branches and
calls (R110). -/
namespace Sys2Proof.Machine
open Host

/-- An access ends an instruction: carried out, the base register written back. -/
def AccRes.ends (r : AccRes) (s : State) (c : CoreId) (b : Fin 8) (wb : Bool) (off : BitVec 12) : Res :=
  match r with
  | .ok t => .done (t.setCore c ((t.core c).writeBase b wb off))
  | .stall => .stall
  | .fault code a => .exc s code a

/-! ## Loads and stores, OP 0x18–0x1B -/

/-- LD: wd = word at the effective address. -/
def execLd (c : CoreId) (d : Fin 16) (b : Fin 8) (wb : Bool) (off : BitVec 12) (s : State) : Outcome State Fault Refusal :=
  .next (s.runInsn c { word := (Instr.ld c d b wb off).word, ws := [d], as := [b] } (fun t =>
    (t.loadAt c (effAddr ((t.core c).ra b) wb off) false (.w d)).ends t c b wb off))

/-- ST: word at the effective address = ws. -/
def execSt (c : CoreId) (d : Fin 16) (b : Fin 8) (wb : Bool) (off : BitVec 12) (s : State) : Outcome State Fault Refusal :=
  .next (s.runInsn c { word := (Instr.st c d b wb off).word, ws := [d], as := [b] } (fun t =>
    (t.storeAt c (effAddr ((t.core c).ra b) wb off) false (((t.core c).rw d).setWidth 32)).ends t c b wb off))

/-- LDD: ad = 32-bit value at an even effective address. With WB = 1 and ad the base, R111 states no result for the
register: it takes a free value (log entry 2), the instruction waiting for its data, and a failure is imprecise as any load's. (log entry 17, DESIGN CHOICE) -/
def execLdd (c : CoreId) (d b : Fin 8) (wb : Bool) (off : BitVec 12) (s : State) : Outcome State Fault Refusal :=
  .next (s.runInsn c { word := (Instr.ldd c d b wb off).word, as := [d, b] } (fun t =>
    if wb && d == b then
      match t.loadNow c ((t.core c).ra b) true with
      | .ok t1 _ => let f := t1.drawFree; .done (f.2.setCore c ((f.2.core c).setA d (f.1.setWidth 32)))
      | .error t1 a => let f := (t1.pushErr c a).drawFree; .done (f.2.setCore c ((f.2.core c).setA d (f.1.setWidth 32)))
      | r => r.fails c
    else (t.loadAt c (effAddr ((t.core c).ra b) wb off) true (.a d)).ends t c b wb off))

/-- STD: 32-bit store of as at an even effective address. -/
def execStd (c : CoreId) (d b : Fin 8) (wb : Bool) (off : BitVec 12) (s : State) : Outcome State Fault Refusal :=
  .next (s.runInsn c { word := (Instr.std c d b wb off).word, as := [d, b] } (fun t =>
    (t.storeAt c (effAddr ((t.core c).ra b) wb off) true ((t.core c).ra d)).ends t c b wb off))

/-- LOAD_RETURN: the n-th data on their way to a register of the core arrive (R112). -/
def execLoadReturn (c : CoreId) (n : Nat) (s : State) : Outcome State Fault Refusal :=
  let k := s.core c
  match k.returned[n]? with
  | none => .next s
  | some r => .next ((s.setCore c ((({ k with returned := k.returned.eraseIdx n }).deliver r.dst r.value).unawait r.dst)).csyncCheck c)

/-- LINE_FILL: the n-th outstanding miss of the core returns (R187). -/
def execLineFill (c : CoreId) (n : Nat) (s : State) : Outcome State Fault Refusal := .next (s.lineFill c n)

/-- IMPRECISE_ERROR_REPORT: the report with the lowest failing address reaches the core (R126). While EXL is 1, or the
seat has stopped, it is held; else it is taken, ending a wait as an interrupt does, EPC naming the first instruction
not yet issued. CSYNC is no such wait: the report is taken at the boundary after it. (log entry 20, DEDUCED) -/
def execImpreciseErrorReport (c : CoreId) (s : State) : Outcome State Fault Refusal :=
  let k := s.core c
  if k.errs.isEmpty || k.lockup || k.mode == .idle || k.mode == .reset || k.wait == some .csync then .next s
  else
    let a := lowestAddr k.errs
    let s1 := s.setCore c { k with errs := k.errs.erase a }
    if (isSeat c && (k.mode == .stopped || k.stopping.isSome)) || (!(isSeat c) && cstExl k.cst) then
      .next (s1.setCore c { s1.core c with held := k.held ++ [a] })
    else .next (s1.raise c (accessCode c) true k.pc a)

/-! ## Branches and calls -/

/-- The push of a return address (R103): LO at a7 − 2, HI at a7 − 1, a7 moved down by 2. -/
def State.pushReturn (s : State) (c : CoreId) (k : Core) (target : Addr) : Res :=
  match s.storeAt c (k.ra 7 - 2) true (k.pc + 2) with
  | .ok t => .jump (t.setCore c ((t.core c).setA 7 (k.ra 7 - 2))) target
  | .stall => .stall
  | .fault code a => .exc s code a

/-- BC: if the condition holds, PC = address of BC + DISP. Condition 15 and an odd DISP are ILLEGAL (R108, R109). -/
def execBc (c : CoreId) (cc : Fin 16) (disp : BitVec 20) (s : State) : Outcome State Fault Refusal :=
  .next (s.runInsn c { word := (Instr.bc c cc disp).word, transfer := true } (fun t =>
    let k := t.core c
    if cc.val = 15 || disp.getLsbD 0 then .exc t 1 (Instr.bc c cc disp).word
    else if condHolds k.flags cc.val then .jump t (k.pc + disp.signExtend 32)
    else .done t))

/-- CALL: push the address of CALL + 2; PC = address of CALL + DISP. An odd DISP is ILLEGAL (R108). -/
def execCall (c : CoreId) (disp : BitVec 20) (s : State) : Outcome State Fault Refusal :=
  .next (s.runInsn c { word := (Instr.call c disp).word, as := [7], transfer := true } (fun t =>
    let k := t.core c
    if disp.getLsbD 0 then .exc t 1 (Instr.call c disp).word
    else t.pushReturn c k (k.pc + disp.signExtend 32)))

/-- JR: PC = as. -/
def execJr (c : CoreId) (r : Fin 8) (s : State) : Outcome State Fault Refusal :=
  .next (s.runInsn c { word := (Instr.jr c r).word, as := [r], transfer := true } (fun t =>
    .jump t ((t.core c).ra r)))

/-- CALLR: push the return address; PC = as. -/
def execCallr (c : CoreId) (r : Fin 8) (s : State) : Outcome State Fault Refusal :=
  .next (s.runInsn c { word := (Instr.callr c r).word, as := [r, 7], transfer := true } (fun t =>
    let k := t.core c
    t.pushReturn c k (k.ra r)))

/-- RET: pop PC, waiting for the popped words. -/
def execRet (c : CoreId) (s : State) : Outcome State Fault Refusal :=
  .next (s.runInsn c { word := (Instr.ret c).word, as := [7], transfer := true } (fun t =>
    let k := t.core c
    match t.loadNow c (k.ra 7) true with
    | .ok t1 v => .jump (t1.setCore c ((t1.core c).setA 7 (k.ra 7 + 2))) v
    | r => r.fails c))

end Sys2Proof.Machine
end

