-- ==== Sys2Proof/Machine/Dispatch.lean ====
section
/-! DEFINITION. From a command to its meaning, one arm per row of spec/opcode_table.json. -/
namespace Sys2Proof.Machine
open Host

/-- What a command does to everything but the queue of waiting commands. -/
def exec (i : Instr) (s : State) : Host.Outcome State Fault Refusal :=
  match i with
  | .registerWrite who a wide v => Sys2Proof.Machine.execRegisterWrite who a wide v s
  | .clearingRead who a wide => Sys2Proof.Machine.execClearingRead who a wide s
  | .snapshotRead who a => Sys2Proof.Machine.execSnapshotRead who a s
  | .aliasRead who a wide => Sys2Proof.Machine.execAliasRead who a wide s
  | .aliasWrite who a wide v => Sys2Proof.Machine.execAliasWrite who a wide v s
  | .peekWrite who a wide v => Sys2Proof.Machine.execPeekWrite who a wide v s
  | .hostRequest r => Sys2Proof.Machine.execHostRequest r s
  | .strokeEnable ctrl => Sys2Proof.Machine.execStrokeEnable ctrl s
  | .stkApply => Sys2Proof.Machine.execStkApply s
  | .elect => Sys2Proof.Machine.execElect s
  | .catchInstant => Sys2Proof.Machine.execCatchInstant s
  | .driveEntry => Sys2Proof.Machine.execDriveEntry s
  | .finishInstant => Sys2Proof.Machine.execFinishInstant s
  | .recoveryEntry => Sys2Proof.Machine.execRecoveryEntry s
  | .masterLoss => Sys2Proof.Machine.execMasterLoss s
  | .syncListenTimeout => Sys2Proof.Machine.execSyncListenTimeout s
  | .holdoverExpiry => Sys2Proof.Machine.execHoldoverExpiry s
  | .firstStrokeStart => Sys2Proof.Machine.execFirstStrokeStart s
  | .holdLimit => Sys2Proof.Machine.execHoldLimit s
  | .strokeResume crew => Sys2Proof.Machine.execStrokeResume crew s
  | .syncFlit p f => Sys2Proof.Machine.execSyncFlit p f s
  | .upstreamSwitch => Sys2Proof.Machine.execUpstreamSwitch s
  | .add c d x y => Sys2Proof.Machine.execAdd c d x y s
  | .adc c d x y => Sys2Proof.Machine.execAdc c d x y s
  | .sub c d x y => Sys2Proof.Machine.execSub c d x y s
  | .sbc c d x y => Sys2Proof.Machine.execSbc c d x y s
  | .and c d x y => Sys2Proof.Machine.execAnd c d x y s
  | .or c d x y => Sys2Proof.Machine.execOr c d x y s
  | .xor c d x y => Sys2Proof.Machine.execXor c d x y s
  | .not c d x => Sys2Proof.Machine.execNot c d x s
  | .neg c d x => Sys2Proof.Machine.execNeg c d x s
  | .mov c d x => Sys2Proof.Machine.execMov c d x s
  | .cmp c x y => Sys2Proof.Machine.execCmp c x y s
  | .tst c form => Sys2Proof.Machine.execTst c form s
  | .min c d x y => Sys2Proof.Machine.execMin c d x y s
  | .max c d x y => Sys2Proof.Machine.execMax c d x y s
  | .minu c d x y => Sys2Proof.Machine.execMinu c d x y s
  | .maxu c d x y => Sys2Proof.Machine.execMaxu c d x y s
  | .sel c d x y cc => Sys2Proof.Machine.execSel c d x y cc s
  | .shl c d x y => Sys2Proof.Machine.execShl c d x y s
  | .shr c d x y => Sys2Proof.Machine.execShr c d x y s
  | .sar c d x y => Sys2Proof.Machine.execSar c d x y s
  | .rol c d x y => Sys2Proof.Machine.execRol c d x y s
  | .ror c d x y => Sys2Proof.Machine.execRor c d x y s
  | .shli c d x aux => Sys2Proof.Machine.execShli c d x aux s
  | .shri c d x aux => Sys2Proof.Machine.execShri c d x aux s
  | .sari c d x aux => Sys2Proof.Machine.execSari c d x aux s
  | .roli c d x aux => Sys2Proof.Machine.execRoli c d x aux s
  | .rori c d x aux => Sys2Proof.Machine.execRori c d x aux s
  | .clz c d x => Sys2Proof.Machine.execClz c d x s
  | .popc c d x => Sys2Proof.Machine.execPopc c d x s
  | .brev c d x => Sys2Proof.Machine.execBrev c d x s
  | .mul c d x y => Sys2Proof.Machine.execMul c d x y s
  | .mulhs c d x y => Sys2Proof.Machine.execMulhs c d x y s
  | .mulhu c d x y => Sys2Proof.Machine.execMulhu c d x y s
  | .mulwu c d x y => Sys2Proof.Machine.execMulwu c d x y s
  | .adda c d sx y => Sys2Proof.Machine.execAdda c d sx y s
  | .addau c d sx y => Sys2Proof.Machine.execAddau c d sx y s
  | .addaa c d sx t => Sys2Proof.Machine.execAddaa c d sx t s
  | .subaa c d sx t => Sys2Proof.Machine.execSubaa c d sx t s
  | .mova c d sx => Sys2Proof.Machine.execMova c d sx s
  | .moval c d sx => Sys2Proof.Machine.execMoval c d sx s
  | .movah c d sx => Sys2Proof.Machine.execMovah c d sx s
  | .movwa c d x y => Sys2Proof.Machine.execMovwa c d x y s
  | .cmpa c sx t => Sys2Proof.Machine.execCmpa c sx t s
  | .shla c d sx aux => Sys2Proof.Machine.execShla c d sx aux s
  | .extb c d x k => Sys2Proof.Machine.execExtb c d x k s
  | .extbs c d x k => Sys2Proof.Machine.execExtbs c d x k s
  | .insb c d x k => Sys2Proof.Machine.execInsb c d x k s
  | .packb c d x y => Sys2Proof.Machine.execPackb c d x y s
  | .swpb c d x => Sys2Proof.Machine.execSwpb c d x s
  | .addi c d x imm => Sys2Proof.Machine.execAddi c d x imm s
  | .andi c d x imm => Sys2Proof.Machine.execAndi c d x imm s
  | .ori c d x imm => Sys2Proof.Machine.execOri c d x imm s
  | .xori c d x imm => Sys2Proof.Machine.execXori c d x imm s
  | .li c d imm => Sys2Proof.Machine.execLi c d imm s
  | .cmpi c x imm => Sys2Proof.Machine.execCmpi c x imm s
  | .addai c d sx imm => Sys2Proof.Machine.execAddai c d sx imm s
  | .lal c d imm => Sys2Proof.Machine.execLal c d imm s
  | .lah c d imm => Sys2Proof.Machine.execLah c d imm s
  | .ld c d b wb off => Sys2Proof.Machine.execLd c d b wb off s
  | .st c d b wb off => Sys2Proof.Machine.execSt c d b wb off s
  | .ldd c d b wb off => Sys2Proof.Machine.execLdd c d b wb off s
  | .std c d b wb off => Sys2Proof.Machine.execStd c d b wb off s
  | .loadReturn c n => Sys2Proof.Machine.execLoadReturn c n s
  | .impreciseErrorReport c => Sys2Proof.Machine.execImpreciseErrorReport c s
  | .bc c cc disp => Sys2Proof.Machine.execBc c cc disp s
  | .call c disp => Sys2Proof.Machine.execCall c disp s
  | .jr c sx => Sys2Proof.Machine.execJr c sx s
  | .callr c sx => Sys2Proof.Machine.execCallr c sx s
  | .ret c => Sys2Proof.Machine.execRet c s
  | .nop c => Sys2Proof.Machine.execNop c s
  | .mfs c d sr => Sys2Proof.Machine.execMfs c d sr s
  | .mts c sr x => Sys2Proof.Machine.execMts c sr x s
  | .reti c => Sys2Proof.Machine.execReti c s
  | .wfi c => Sys2Proof.Machine.execWfi c s
  | .brk c imm => Sys2Proof.Machine.execBrk c imm s
  | .trap c imm => Sys2Proof.Machine.execTrap c imm s
  | .csync c => Sys2Proof.Machine.execCsync c s
  | .cflush c sx => Sys2Proof.Machine.execCflush c sx s
  | .cinv c sx => Sys2Proof.Machine.execCinv c sx s
  | .cflushA c => Sys2Proof.Machine.execCflushA c s
  | .cinvA c => Sys2Proof.Machine.execCinvA c s
  | .cinvI c => Sys2Proof.Machine.execCinvI c s
  | .lsave c => Sys2Proof.Machine.execLsave c s
  | .lrest c => Sys2Proof.Machine.execLrest c s
  | .lpop c => Sys2Proof.Machine.execLpop c s
  | .loop c count len => Sys2Proof.Machine.execLoop c count len s
  | .repmov c => Sys2Proof.Machine.execRepmov c s
  | .repmovD c => Sys2Proof.Machine.execRepmovD c s
  | .repset c x => Sys2Proof.Machine.execRepset c x s
  | .repcmp c => Sys2Proof.Machine.execRepcmp c s
  | .repscan c x => Sys2Proof.Machine.execRepscan c x s
  | .repscanNe c x => Sys2Proof.Machine.execRepscanNe c x s
  | .blockRepeatElement c => Sys2Proof.Machine.execBlockRepeatElement c s
  | .hlea c d x t => Sys2Proof.Machine.execHlea c d x t s
  | .hail c d sx y n => Sys2Proof.Machine.execHail c d sx y n s
  | .hailAccept c => Sys2Proof.Machine.execHailAccept c s
  | .tend c => Sys2Proof.Machine.execTend c s
  | .cga c g => Sys2Proof.Machine.execCga c g s
  | .cgw c g => Sys2Proof.Machine.execCgw c g s
  | .cls c n => Sys2Proof.Machine.execCls c n s
  | .clc c n => Sys2Proof.Machine.execClc c n s
  | .clt c d n => Sys2Proof.Machine.execClt c d n s
  | .clw c n => Sys2Proof.Machine.execClw c n s
  | .interrupt c => Sys2Proof.Machine.execInterrupt c s
  | .seatStop crew sx => Sys2Proof.Machine.execSeatStop crew sx s
  | .vld c d b wb off pr => Sys2Proof.Machine.execVld c d b wb off pr s
  | .vldB c d b wb off pr => Sys2Proof.Machine.execVldB c d b wb off pr s
  | .vst c d b wb off pr => Sys2Proof.Machine.execVst c d b wb off pr s
  | .vlds c d b wb off sr pr => Sys2Proof.Machine.execVlds c d b wb off sr pr s
  | .vsts c d b wb off sr pr => Sys2Proof.Machine.execVsts c d b wb off sr pr s
  | .tld c t b wb stride => Sys2Proof.Machine.execTld c t b wb stride s
  | .zld c z b wb stride => Sys2Proof.Machine.execZld c z b wb stride s
  | .zst c z b wb stride => Sys2Proof.Machine.execZst c z b wb stride s
  | .tilePathTransfer c => Sys2Proof.Machine.execTilePathTransfer c s
  | .matrixQueueOperation c => Sys2Proof.Machine.execMatrixQueueOperation c s
  | .vadd c d x y pr ty => Sys2Proof.Machine.execVadd c d x y pr ty s
  | .vsub c d x y pr ty => Sys2Proof.Machine.execVsub c d x y pr ty s
  | .vadds c d x y pr ty => Sys2Proof.Machine.execVadds c d x y pr ty s
  | .vsubs c d x y pr ty => Sys2Proof.Machine.execVsubs c d x y pr ty s
  | .vmul c d x y pr ty => Sys2Proof.Machine.execVmul c d x y pr ty s
  | .vmulh c d x y pr ty => Sys2Proof.Machine.execVmulh c d x y pr ty s
  | .vmin c d x y pr ty => Sys2Proof.Machine.execVmin c d x y pr ty s
  | .vmax c d x y pr ty => Sys2Proof.Machine.execVmax c d x y pr ty s
  | .vand c d x y pr ty => Sys2Proof.Machine.execVand c d x y pr ty s
  | .vor c d x y pr ty => Sys2Proof.Machine.execVor c d x y pr ty s
  | .vxor c d x y pr ty => Sys2Proof.Machine.execVxor c d x y pr ty s
  | .vshl c d x y pr ty => Sys2Proof.Machine.execVshl c d x y pr ty s
  | .vshr c d x y pr ty => Sys2Proof.Machine.execVshr c d x y pr ty s
  | .vabs c d x pr ty => Sys2Proof.Machine.execVabs c d x pr ty s
  | .vmov c d x pr ty => Sys2Proof.Machine.execVmov c d x pr ty s
  | .vmac c d x y pr ty => Sys2Proof.Machine.execVmac c d x y pr ty s
  | .vfadd c d x y pr ty => Sys2Proof.Machine.execVfadd c d x y pr ty s
  | .vfsub c d x y pr ty => Sys2Proof.Machine.execVfsub c d x y pr ty s
  | .vfmul c d x y pr ty => Sys2Proof.Machine.execVfmul c d x y pr ty s
  | .vfma c d x y pr ty => Sys2Proof.Machine.execVfma c d x y pr ty s
  | .vfms c d x y pr ty => Sys2Proof.Machine.execVfms c d x y pr ty s
  | .vfmin c d x y pr ty => Sys2Proof.Machine.execVfmin c d x y pr ty s
  | .vfmax c d x y pr ty => Sys2Proof.Machine.execVfmax c d x y pr ty s
  | .vfabs c d x pr ty => Sys2Proof.Machine.execVfabs c d x pr ty s
  | .vfneg c d x pr ty => Sys2Proof.Machine.execVfneg c d x pr ty s
  | .vfrcp c d x pr ty => Sys2Proof.Machine.execVfrcp c d x pr ty s
  | .vfrsq c d x pr ty => Sys2Proof.Machine.execVfrsq c d x pr ty s
  | .vfexp2 c d x pr ty => Sys2Proof.Machine.execVfexp2 c d x pr ty s
  | .vflog2 c d x pr ty => Sys2Proof.Machine.execVflog2 c d x pr ty s
  | .vcmp c pd x y cond pr ty => Sys2Proof.Machine.execVcmp c pd x y cond pr ty s
  | .vbc c d x pr => Sys2Proof.Machine.execVbc c d x pr s
  | .vins c d x y pr => Sys2Proof.Machine.execVins c d x y pr s
  | .vext c d x y => Sys2Proof.Machine.execVext c d x y s
  | .vperm c d x y pr => Sys2Proof.Machine.execVperm c d x y pr s
  | .vrot c d x y pr => Sys2Proof.Machine.execVrot c d x y pr s
  | .vsel c d x y pr => Sys2Proof.Machine.execVsel c d x y pr s
  | .viota c d pr => Sys2Proof.Machine.execViota c d pr s
  | .vradd c d x pr ty => Sys2Proof.Machine.execVradd c d x pr ty s
  | .vrmin c d x pr ty => Sys2Proof.Machine.execVrmin c d x pr ty s
  | .vrmax c d x pr ty => Sys2Proof.Machine.execVrmax c d x pr ty s
  | .vfradd c d x pr ty => Sys2Proof.Machine.execVfradd c d x pr ty s
  | .vfrmin c d x pr ty => Sys2Proof.Machine.execVfrmin c d x pr ty s
  | .vfrmax c d x pr ty => Sys2Proof.Machine.execVfrmax c d x pr ty s
  | .vcvt c d x dst src h sat => Sys2Proof.Machine.execVcvt c d x dst src h sat s
  | .pand c d x y => Sys2Proof.Machine.execPand c d x y s
  | .por c d x y => Sys2Proof.Machine.execPor c d x y s
  | .pxor c d x y => Sys2Proof.Machine.execPxor c d x y s
  | .pnot c d x => Sys2Proof.Machine.execPnot c d x s
  | .ptail c d y => Sys2Proof.Machine.execPtail c d y s
  | .pcnt c d x => Sys2Proof.Machine.execPcnt c d x s
  | .pmova c d x => Sys2Proof.Machine.execPmova c d x s
  | .pmovp c d sx => Sys2Proof.Machine.execPmovp c d sx s
  | .mma c d a b fresh bfmt ra rb ty => Sys2Proof.Machine.execMma c d a b fresh bfmt ra rb ty s
  | .zzero c d => Sys2Proof.Machine.execZzero c d s
  | .zcvt c t z sh int sat h ty => Sys2Proof.Machine.execZcvt c t z sh int sat h ty s
  | .zmovr c d z r => Sys2Proof.Machine.execZmovr c d z r s
  | .tzero c t => Sys2Proof.Machine.execTzero c t s
  | .ttr c d sx => Sys2Proof.Machine.execTtr c d sx s
  | .tmovr c t x r => Sys2Proof.Machine.execTmovr c t x r s
  | .vmovt c d t r => Sys2Proof.Machine.execVmovt c d t r s
  | .invall crew => Sys2Proof.Machine.execInvall crew s
  | .invrange crew => Sys2Proof.Machine.execInvrange crew s
  | .ccCommandDone crew => Sys2Proof.Machine.execCcCommandDone crew s
  | .ccDisable crew => Sys2Proof.Machine.execCcDisable crew s
  | .ccDisableDone crew => Sys2Proof.Machine.execCcDisableDone crew s
  | .ccEnable crew => Sys2Proof.Machine.execCcEnable crew s
  | .hcas who crew h expect new => Sys2Proof.Machine.execHcas who crew h expect new s
  | .lineFill c n => Sys2Proof.Machine.execLineFill c n s
  | .correctedWriteback addr => Sys2Proof.Machine.execCorrectedWriteback addr s
  | .bankGrant crew row col => Sys2Proof.Machine.execBankGrant crew row col s
  | .memoryZeroingDone kind => Sys2Proof.Machine.execMemoryZeroingDone kind s
  | .cntInc crew cnt amt => Sys2Proof.Machine.execCntInc crew cnt amt s
  | .gateEvaluation crew q => Sys2Proof.Machine.execGateEvaluation crew q s
  | .coxDbellSet crew bits => Sys2Proof.Machine.execCoxDbellSet crew bits s
  | .queueEnable crew q ctrl => Sys2Proof.Machine.execQueueEnable crew q ctrl s
  | .queueDisable crew q ctrl => Sys2Proof.Machine.execQueueDisable crew q ctrl s
  | .tailWrite crew q v => Sys2Proof.Machine.execTailWrite crew q v s
  | .headWrite crew q v => Sys2Proof.Machine.execHeadWrite crew q v s
  | .headFetch crew q => Sys2Proof.Machine.execHeadFetch crew q s
  | .dispatchRound crew => Sys2Proof.Machine.execDispatchRound crew s
  | .taskCompletion crew sx => Sys2Proof.Machine.execTaskCompletion crew sx s
  | .counterAdvanceArrival n => Sys2Proof.Machine.execCounterAdvanceArrival n s
  | .restart crew q => Sys2Proof.Machine.execRestart crew q s
  | .skip crew q => Sys2Proof.Machine.execSkip crew q s
  | .flush crew q => Sys2Proof.Machine.execFlush crew q s
  | .coxSeatStop crew sx => Sys2Proof.Machine.execCoxSeatStop crew sx s
  | .coxSeatResume crew sx => Sys2Proof.Machine.execCoxSeatResume crew sx s
  | .coxSeatAbort crew sx => Sys2Proof.Machine.execCoxSeatAbort crew sx s
  | .dmaStart crew n => Sys2Proof.Machine.execDmaStart crew n s
  | .dmaStop crew n => Sys2Proof.Machine.execDmaStop crew n s
  | .dmaAbort crew n => Sys2Proof.Machine.execDmaAbort crew n s
  | .dmaResume crew n => Sys2Proof.Machine.execDmaResume crew n s
  | .abortComplete crew n => Sys2Proof.Machine.execAbortComplete crew n s
  | .descriptorFetch crew n => Sys2Proof.Machine.execDescriptorFetch crew n s
  | .dmaGateOpen crew n => Sys2Proof.Machine.execDmaGateOpen crew n s
  | .listEntryRead crew n dst => Sys2Proof.Machine.execListEntryRead crew n dst s
  | .dmaBurstGrant crew => Sys2Proof.Machine.execDmaBurstGrant crew s
  | .dmaResponse crew n => Sys2Proof.Machine.execDmaResponse crew n s
  | .descriptorCompletion crew n => Sys2Proof.Machine.execDescriptorCompletion crew n s
  | .dmaTimeout crew n ix => Sys2Proof.Machine.execDmaTimeout crew n ix s
  | .routerArbitration router turn => Sys2Proof.Machine.execRouterArbitration router turn s
  | .meshWrite router => Sys2Proof.Machine.execMeshWrite router s
  | .meshRead router => Sys2Proof.Machine.execMeshRead router s
  | .writeAcknowledge router => Sys2Proof.Machine.execWriteAcknowledge router s
  | .controlTransaction n => Sys2Proof.Machine.execControlTransaction n s
  | .controlTimeout n => Sys2Proof.Machine.execControlTimeout n s
  | .catchGroupCompletion g => Sys2Proof.Machine.execCatchGroupCompletion g s
  | .catchGroupEnable g ctrl => Sys2Proof.Machine.execCatchGroupEnable g ctrl s
  | .catchGroupDisable g ctrl => Sys2Proof.Machine.execCatchGroupDisable g ctrl s
  | .callSet k bits => Sys2Proof.Machine.execCallSet k bits s
  | .callClear k bits => Sys2Proof.Machine.execCallClear k bits s
  | .callDisable n cfg => Sys2Proof.Machine.execCallDisable n cfg s
  | .flitSlot p => Sys2Proof.Machine.execFlitSlot p s
  | .dataFlit p f => Sys2Proof.Machine.execDataFlit p f s
  | .idleFlit p f => Sys2Proof.Machine.execIdleFlit p f s
  | .nakRepeat p => Sys2Proof.Machine.execNakRepeat p s
  | .retryExhaustion p upper => Sys2Proof.Machine.execRetryExhaustion p upper s
  | .degrade p h upper => Sys2Proof.Machine.execDegrade p h upper s
  | .degradeAck p h upper => Sys2Proof.Machine.execDegradeAck p h upper s
  | .degradeTimeout p => Sys2Proof.Machine.execDegradeTimeout p s
  | .los p lanes => Sys2Proof.Machine.execLos p lanes s
  | .ctrlDown p h cause => Sys2Proof.Machine.execCtrlDown p h cause s
  | .creditTimeout p vc => Sys2Proof.Machine.execCreditTimeout p vc s
  | .ident p h id => Sys2Proof.Machine.execIdent p h id s
  | .lightDetect p lanes => Sys2Proof.Machine.execLightDetect p lanes s
  | .lockComplete p lanes => Sys2Proof.Machine.execLockComplete p lanes s
  | .alignComplete p => Sys2Proof.Machine.execAlignComplete p s
  | .trainingTimeout p => Sys2Proof.Machine.execTrainingTimeout p s
  | .downEnd p => Sys2Proof.Machine.execDownEnd p s
  | .heldIdent p => Sys2Proof.Machine.execHeldIdent p s
  | .portEnable p ctrl => Sys2Proof.Machine.execPortEnable p ctrl s
  | .retrain p => Sys2Proof.Machine.execRetrain p s
  | .gwCmdDown p => Sys2Proof.Machine.execGwCmdDown p s
  | .devidWrite sysid v => Sys2Proof.Machine.execDevidWrite sysid v s
  | .routingEntryWrite d v => Sys2Proof.Machine.execRoutingEntryWrite d v s
  | .packetForward p => Sys2Proof.Machine.execPacketForward p s
  | .routingTableBuild => Sys2Proof.Machine.execRoutingTableBuild s
  | .windowOpen w ctrl => Sys2Proof.Machine.execWindowOpen w ctrl s
  | .windowClose w ctrl => Sys2Proof.Machine.execWindowClose w ctrl s
  | .requestSequenced src => Sys2Proof.Machine.execRequestSequenced src s
  | .writePacket p => Sys2Proof.Machine.execWritePacket p s
  | .readPacket p => Sys2Proof.Machine.execReadPacket p s
  | .hailPacket p => Sys2Proof.Machine.execHailPacket p s
  | .rdata p => Sys2Proof.Machine.execRdata p s
  | .ack p => Sys2Proof.Machine.execAck p s
  | .nak p => Sys2Proof.Machine.execNak p s
  | .attemptTimeout sq lane dev seq => Sys2Proof.Machine.execAttemptTimeout sq lane dev seq s
  | .contextClose sq lane dev => Sys2Proof.Machine.execContextClose sq lane dev s
  | .quarantineEnd sq lane dev => Sys2Proof.Machine.execQuarantineEnd sq lane dev s
  | .rateIncrease dev => Sys2Proof.Machine.execRateIncrease dev s
  | .ageDiscard p egress => Sys2Proof.Machine.execAgeDiscard p egress s
  | .rmaTimeoutWrite v => Sys2Proof.Machine.execRmaTimeoutWrite v s
  | .rearm => Sys2Proof.Machine.execRearm s
  | .activate slot => Sys2Proof.Machine.execActivate slot s
  | .release who slot => Sys2Proof.Machine.execRelease who slot s
  | .laneKill who v => Sys2Proof.Machine.execLaneKill who v s
  | .vfKill slot key => Sys2Proof.Machine.execVfKill slot key s
  | .crewAssign crew v => Sys2Proof.Machine.execCrewAssign crew v s
  | .drainEnd slot => Sys2Proof.Machine.execDrainEnd slot s
  | .zeroPassEnd slot => Sys2Proof.Machine.execZeroPassEnd slot s
  | .scrubEnd slot => Sys2Proof.Machine.execScrubEnd slot s
  | .quietReport => Sys2Proof.Machine.execQuietReport s
  | .currentReport vin iin pin dom aux crews => Sys2Proof.Machine.execCurrentReport vin iin pin dom aux crews s
  | .limiterStep power amps crews => Sys2Proof.Machine.execLimiterStep power amps crews s
  | .thermalStep temps => Sys2Proof.Machine.execThermalStep temps s
  | .governorPeriod g => Sys2Proof.Machine.execGovernorPeriod g s
  | .trim t => Sys2Proof.Machine.execTrim t s
  | .short => Sys2Proof.Machine.execShort s
  | .over => Sys2Proof.Machine.execOver s
  | .paceApply => Sys2Proof.Machine.execPaceApply s
  | .pendingSetInForce => Sys2Proof.Machine.execPendingSetInForce s
  | .paceEnable ctrl => Sys2Proof.Machine.execPaceEnable ctrl s
  | .kick => Sys2Proof.Machine.execKick s
  | .paceWatchdogExpiry => Sys2Proof.Machine.execPaceWatchdogExpiry s
  | .staleHoldEnd => Sys2Proof.Machine.execStaleHoldEnd s
  | .uvin mw => Sys2Proof.Machine.execUvin mw s
  | .overpower mw => Sys2Proof.Machine.execOverpower mw s
  | .overvolt mw => Sys2Proof.Machine.execOvervolt mw s
  | .stage mw => Sys2Proof.Machine.execStage mw s
  | .reg dom mw => Sys2Proof.Machine.execReg dom mw s
  | .tjmax mw => Sys2Proof.Machine.execTjmax mw s
  | .shut => Sys2Proof.Machine.execShut s
  | .order mw => Sys2Proof.Machine.execOrder mw s
  | .domainSectionPowerUp sec draw => Sys2Proof.Machine.execDomainSectionPowerUp sec draw s
  | .bhCorerst => Sys2Proof.Machine.execBhCorerst s
  | .wdkick => Sys2Proof.Machine.execWdkick s
  | .bhWatchdogExpiry => Sys2Proof.Machine.execBhWatchdogExpiry s
  | .lockupReset => Sys2Proof.Machine.execLockupReset s
  | .tset => Sys2Proof.Machine.execTset s
  | .timebaseTick => Sys2Proof.Machine.execTimebaseTick s
  | .pllLock => Sys2Proof.Machine.execPllLock s
  | .lossOfLock => Sys2Proof.Machine.execLossOfLock s
  | .boot => Sys2Proof.Machine.execBoot s
  | .erase => Sys2Proof.Machine.execErase s
  | .prog => Sys2Proof.Machine.execProg s
  | .flashDone => Sys2Proof.Machine.execFlashDone s
  | .i3cTimeout port => Sys2Proof.Machine.execI3cTimeout port s
  | .getPaceCommitment eid payload => Sys2Proof.Machine.execGetPaceCommitment eid payload s
  | .proposeCommitment eid payload => Sys2Proof.Machine.execProposeCommitment eid payload s
  | .confirmCommitment eid payload => Sys2Proof.Machine.execConfirmCommitment eid payload s
  | .withdrawProposal eid payload => Sys2Proof.Machine.execWithdrawProposal eid payload s
  | .getPowerReading eid payload => Sys2Proof.Machine.execGetPowerReading eid payload s
  | .firmwareUpdate image => Sys2Proof.Machine.execFirmwareUpdate image s
  | .uartReceive n v frame parity => Sys2Proof.Machine.execUartReceive n v frame parity s
  | .uartDataWrite n v => Sys2Proof.Machine.execUartDataWrite n v s
  | .uartDataRead who n => Sys2Proof.Machine.execUartDataRead who n s
  | .spiDataWrite v => Sys2Proof.Machine.execSpiDataWrite v s
  | .spiFrameDone miso => Sys2Proof.Machine.execSpiFrameDone miso s
  | .tachEdge n width => Sys2Proof.Machine.execTachEdge n width s
  | .tachStall n => Sys2Proof.Machine.execTachStall n s
  | .pwmPeriod n => Sys2Proof.Machine.execPwmPeriod n s
  | .mioFselWrite pin v => Sys2Proof.Machine.execMioFselWrite pin v s
  | .mioSwitchEnd pin => Sys2Proof.Machine.execMioSwitchEnd pin s
  | .ainConversionEnd ch ratio split => Sys2Proof.Machine.execAinConversionEnd ch ratio split s
  | .ainResultPost ch => Sys2Proof.Machine.execAinResultPost ch s
  | .shutin => Sys2Proof.Machine.execShutin s
  | .timerExpiry => Sys2Proof.Machine.execTimerExpiry s
  | .bhDbellSet bits => Sys2Proof.Machine.execBhDbellSet bits s
  | .bypass => Sys2Proof.Machine.execBypass s
  | .idcode => Sys2Proof.Machine.execIdcode s
  | .samplePreload cells => Sys2Proof.Machine.execSamplePreload cells s
  | .extest => Sys2Proof.Machine.execExtest s
  | .clamp => Sys2Proof.Machine.execClamp s
  | .highz => Sys2Proof.Machine.execHighz s
  | .bhdebug op => Sys2Proof.Machine.execBhdebug op s
  | .s0Window x => Sys2Proof.Machine.execS0Window x s
  | .settleEnd => Sys2Proof.Machine.execSettleEnd s
  | .s1Frame x => Sys2Proof.Machine.execS1Frame x s
  | .s2Result lags loc q => Sys2Proof.Machine.execS2Result lags loc q s
  | .verdictPost v => Sys2Proof.Machine.execVerdictPost v s
  | .sensorFail n => Sys2Proof.Machine.execSensorFail n s
  | .sensorRecovery n => Sys2Proof.Machine.execSensorRecovery n s
  | .listenerEnable ctrl => Sys2Proof.Machine.execListenerEnable ctrl s
  | .forceact ctrl => Sys2Proof.Machine.execForceact ctrl s
  | .learnEnd => Sys2Proof.Machine.execLearnEnd s
  | .vbhPowerOn => Sys2Proof.Machine.execVbhPowerOn s
  | .stage1Check => Sys2Proof.Machine.execStage1Check s
  | .packagePowerOn => Sys2Proof.Machine.execPackagePowerOn s
  | .auxLoss => Sys2Proof.Machine.execAuxLoss s
  | .uvinRestart => Sys2Proof.Machine.execUvinRestart s
  | .warm => Sys2Proof.Machine.execWarm s
  | .warmResetDone => Sys2Proof.Machine.execWarmResetDone s
  | .coxCorerst crew => Sys2Proof.Machine.execCoxCorerst crew s
  | .crewrst crew => Sys2Proof.Machine.execCrewrst crew s
  | .crewResetDone crew => Sys2Proof.Machine.execCrewResetDone crew s
  | .run crew => Sys2Proof.Machine.execRun crew s
  | .lddata crew v => Sys2Proof.Machine.execLddata crew v s
  | .coxLoad host => Sys2Proof.Machine.execCoxLoad host s
  | .fabricBringup devid sysid => Sys2Proof.Machine.execFabricBringup devid sysid s
  | .linkTraining speed width flit => Sys2Proof.Machine.execLinkTraining speed width flit s
  | .pf0Reset kind => Sys2Proof.Machine.execPf0Reset kind s
  | .vfReset k => Sys2Proof.Machine.execVfReset k s
  | .bmeClear fn bme => Sys2Proof.Machine.execBmeClear fn bme s
  | .vfAccess k r => Sys2Proof.Machine.execVfAccess k r s
  | .vfDbell k bits crew => Sys2Proof.Machine.execVfDbell k bits crew s
  | .irqSend v => Sys2Proof.Machine.execIrqSend v s
  | .hdmaStart fn => Sys2Proof.Machine.execHdmaStart fn s
  | .hdmaAbort fn => Sys2Proof.Machine.execHdmaAbort fn s
  | .hdmaDescriptorFetch fn data => Sys2Proof.Machine.execHdmaDescriptorFetch fn data s
  | .hdmaCompletion fn data failed => Sys2Proof.Machine.execHdmaCompletion fn data failed s
  | .degradeRepeat p => Sys2Proof.Machine.execDegradeRepeat p s
  | .voltageRise crew => Sys2Proof.Machine.execVoltageRise crew s
  | .ccc port code => Sys2Proof.Machine.execCcc port code s
  | .setEndpointId port eid => Sys2Proof.Machine.execSetEndpointId port eid s
  | .platformMonitoringRequest eid query => Sys2Proof.Machine.execPlatformMonitoringRequest eid query s
  | .uartByteSent n => Sys2Proof.Machine.execUartByteSent n s
  | .testLogicReset => Sys2Proof.Machine.execTestLogicReset s
  | .d3hot fn on => Sys2Proof.Machine.execD3hot fn on s
  | .vfEnable on => Sys2Proof.Machine.execVfEnable on s
  | .cplto fn => Sys2Proof.Machine.execCplto fn s

end Sys2Proof.Machine
end

