-- ==== Sys2Proof/Safety.lean ====
section
/-! DEFINITION. What a state must satisfy to be safe, and the terms in which claims are stated: the canonical form of the
state, and when a core carries an instruction out. -/
namespace Sys2Proof.Machine

/-- Equal contents are equal data: memory, flash, register words and cores are held in their canonical form. -/
def State.canonical (s : State) : Prop :=
  Memory.wf s.mem = true ∧ mapWf flashDefault s.flash = true ∧ mapWf regReset s.regs = true ∧
  mapWf coreDefault s.cores = true

/-- What the fetch of an instruction leaves (R165, R177, R185). -/
def State.fetched (s : State) (c : CoreId) : State := (s.fetch c).1

/-- The instruction at the pc of core c is i: the fetch finds its word (R101, R108). -/
def State.holds (s : State) (c : CoreId) (i : Instr) : Prop := (s.fetch c).2 = .word i.word

/-- Core c carries out the instruction at its pc if that reads or writes these registers: it executes instructions, and none of the
registers is awaited (R101, R112, R158). -/
def State.able (s : State) (c : CoreId) (ws : List (Fin 16)) (as : List (Fin 8)) (vs : List (Fin 16)) : Prop :=
  s.issues c = true ∧
  (∀ r ∈ ws, ((s.fetched c).core c).busyW.getLsbD r.val = false) ∧
  (∀ r ∈ as, ((s.fetched c).core c).busyA.getLsbD r.val = false) ∧
  (∀ r ∈ vs, ((s.fetched c).core c).vPending r = false)

/-- The instruction in hand completes from `t` without a control transfer (R117, R131). -/
def State.ran (s : State) (c : CoreId) (t : State) : State := t.complete c (cstSs ((s.fetched c).core c).cst)

/-- The instruction in hand completes from `t` with a transfer to `pc` (R101, R119). -/
def State.went (s : State) (c : CoreId) (t : State) (pc : Addr) : State :=
  t.completeAt c pc (cstSs ((s.fetched c).core c).cst)

/-- Command i, the instruction at the pc of core c, completes there, f being its whole effect on the core and no other part of the
state being changed but by the fetch and the boundary that follows. -/
def State.changes (s : State) (c : CoreId) (i : Instr) (f : Core → Core) : Prop :=
  s.holds c i → exec i s = .next (s.ran c ((s.fetched c).setCore c (f ((s.fetched c).core c))))

/-- The instruction in hand raises an exception at its own address (R125), from `t`. -/
def State.traps (s : State) (c : CoreId) (t : State) (code : Nat) (eval : Addr) : State :=
  t.raise c code false ((s.fetched c).core c).pc eval

/-- The registers that a read of memory may write when it meets a memory error or an unpowered crew (R175, R176, R268):
COX_MEM_ERR, COX_MEM_CECNT and COX_MEM_ERRADDR of a crew, BH_MEMERR and MESH_ERR. -/
def errorReg (a : Nat) : Prop :=
  a = R.BH_MEMERR ∨ ∃ n, n < 96 ∧ (a = R.COX_MEM_ERR n ∨ a = R.COX_MEM_CECNT n ∨ a = R.COX_MEM_ERRADDR_LO n ∨
    a = R.COX_MEM_ERRADDR_LO n + 1 ∨ a = R.MESH_ERR n)

/-- The instruction at the pc of core c does not lie in register space, a read of which may have effects of its own (R46). -/
def State.codeInMemory (s : State) (c : CoreId) : Prop := ∀ r, s.access c (s.core c).pc.toNat false ≠ .reg r

/-- Nothing but the registers that report memory errors, the core itself, and what is on the mesh and at the store banks differs
between two states. -/
def State.sameButCore (s t : State) (c : CoreId) : Prop :=
  (∀ a, ¬ errorReg a → t.reg a = s.reg a) ∧ (∀ c', c' ≠ c → t.core c' = s.core c') ∧
  { t with regs := [], cores := [], outReads := [], meshWait := [], routers := [], exits := [], banks := [] } =
    { s with regs := [], cores := [], outReads := [], meshWait := [], routers := [], exits := [], banks := [] }

/-- The scalar instructions that act on registers alone: their core, the w register and the a register they write. SEL with
the reserved condition 15 is none. -/
def scalarDest (i : Instr) : Option (CoreId × Option (Fin 16) × Option (Fin 8)) :=
  match i with
  | .add c d _ _ | .adc c d _ _ | .sub c d _ _ | .sbc c d _ _ | .and c d _ _ | .or c d _ _ | .xor c d _ _ | .not c d _
  | .neg c d _ | .mov c d _ | .min c d _ _ | .max c d _ _ | .minu c d _ _ | .maxu c d _ _ | .shl c d _ _ | .shr c d _ _
  | .sar c d _ _ | .rol c d _ _ | .ror c d _ _ | .shli c d _ _ | .shri c d _ _ | .sari c d _ _ | .roli c d _ _ | .rori c d _ _
  | .clz c d _ | .popc c d _ | .brev c d _ | .mul c d _ _ | .mulhs c d _ _ | .mulhu c d _ _ | .moval c d _ | .movah c d _
  | .extb c d _ _ | .extbs c d _ _ | .insb c d _ _ | .packb c d _ _ | .swpb c d _ | .addi c d _ _ | .andi c d _ _
  | .ori c d _ _ | .xori c d _ _ | .li c d _ => some (c, some d, none)
  | .sel c d _ _ cc => if cc.val = 15 then none else some (c, some d, none)
  | .cmp c _ _ | .tst c (.scalar _ _) | .cmpa c _ _ | .cmpi c _ _ | .nop c => some (c, none, none)
  | .mulwu c d _ _ | .adda c d _ _ | .addau c d _ _ | .addaa c d _ _ | .subaa c d _ _ | .mova c d _ | .movwa c d _ _
  | .shla c d _ _ | .addai c d _ _ | .lal c d _ | .lah c d _ => some (c, none, some d)
  | _ => none

/-- LD or LDD, by the register loaded. -/
def loadInstr (c : CoreId) (dst : LoadDst) (b : Fin 8) (wb : Bool) (off : BitVec 12) : Instr :=
  match dst with
  | .w d => .ld c d b wb off
  | .a d => .ldd c d b wb off

/-- ST or STD, by the register stored. -/
def storeInstr (c : CoreId) (src : LoadDst) (b : Fin 8) (wb : Bool) (off : BitVec 12) : Instr :=
  match src with
  | .w d => .st c d b wb off
  | .a d => .std c d b wb off

/-- A load or store of 32 bits. -/
def LoadDst.wide (d : LoadDst) : Bool := match d with | .w _ => false | .a _ => true

/-- The register as a w register or an a register of a list. -/
def LoadDst.ws (d : LoadDst) : List (Fin 16) := match d with | .w r => [r] | .a _ => []

/-- The a register, if it is one. -/
def LoadDst.as (d : LoadDst) : List (Fin 8) := match d with | .w _ => [] | .a r => [r]

/-- The value of a register named by a store, its upper half 0 for a w register. -/
def Core.valueOf (k : Core) (d : LoadDst) : BitVec 32 := match d with | .w r => (k.rw r).setWidth 32 | .a r => k.ra r

/-- The core is able to load or store this register with this base. -/
def State.ableMem (s : State) (c : CoreId) (d : LoadDst) (b : Fin 8) : Prop := s.able c d.ws (b :: d.as) []

/-- The word, or the two words, at word address w of memory, LO first. -/
def State.value (s : State) (w : Nat) (wide : Bool) : BitVec 32 := if wide then s.word (w + 1) ++ s.word w else (s.word w).setWidth 32

/-- The packets at a local input of a router on a channel, and those that wait there for room, oldest first (R253, R266). -/
def State.atInput (s : State) (r input vc : Nat) : List Packet := s.meshIn r input vc ++ mapGet (fun _ => []) s.meshWait (meshKey r input vc)

/-- From s to t, who sends a transport packet into the mesh, to the router of a port (R256, R319). -/
def State.entersMesh (s t : State) (who : MeshReq) (port : Nat) (q : TQueued) : Prop :=
  ∃ a : Packet, t.atInput who.router who.input q.pkt.ptype.meshVc = s.atInput who.router who.input q.pkt.ptype.meshVc ++ [a] ∧
    a.load = some { q with flits := 0 } ∧ a.dst = portCrew port ∧ a.exit = .port ∧ a.req = who ∧ a.poison = false ∧
    a.kind = (match q.pkt.ptype with | .write => .write | .read => .read | .hail => .hail | .rdata => .readData | .ack => .writeAck | .nak => .error)

/-- From s to t, a transport packet goes on its way: to this device itself, or into the mesh to the port its route selects (R319, R327). -/
def State.sendsPacket (s t : State) (who : MeshReq) (a : Tpkt) : Prop :=
  (a.dst = s.devId → t.ownIn.getLast? = some ⟨a, s.time, none, 0, 0⟩) ∧
  (∀ r : Fin 32, a.dst ≠ s.devId → a.hops ≠ 0 → s.routePort a.dst a.flow = some r.val → s.entersMesh t who r.val ⟨a, s.time, none, 0, 0⟩)

/-- From s to t, a request that another device sent is answered (R332, R349). -/
def State.answersRequest (s t : State) (who : MeshReq) (k : Tpkt) (wash : Bool) (ty : TType) (seq : BitVec 32) (param : Word) (data : List Word) :
    Prop :=
  s.sendsPacket t who ⟨ty, 3, k.lane, k.src, s.devId, k.win, false, false, k.sq, false, wash, k.epoch, seq, 0, k.offset, param, k.tag, data⟩

/-- The words of a load or store hold no memory error, and the memory that holds them answers (R31, R174). -/
def State.sound (s : State) (w : Nat) (wide : Bool) : Prop :=
  ∀ v, v = w ∨ (wide = true ∧ v = w + 1) → s.answers v = true ∧ s.eccOne.contains v = false ∧ s.eccTwo.contains v = false

end Sys2Proof.Machine
end

