-- ==== Sys2Proof/Certificates/Slice0/Obligations.lean ====
section
/-! DEFINITION. The statements about the block, for the provers. -/
open Sys2Proof Sys2Proof.Machine

/-! ## The block -/

/-- A step takes the command at the front of the queue and runs it with the queue's rest. On an empty queue the block idles: the
step answers the state as it is (log entry 3, the model's choice). -/
def Obligations.StepRunsTheFrontCommand : Prop :=
  (∀ (c : Instr) (rest : List Instr) (s : State), s.pending = c :: rest → step s = exec c { s with pending := rest }) ∧
  (∀ s : State, s.pending = [] → step s = .next s)

/-! ## Scalar instructions (spec/04) -/

/-- R110, OP 0x01: what each instruction writes, and its flags. -/
def Obligations.IntegerArithmeticAndLogic : Prop :=
  ∀ (s : State) (c : CoreId) (d x y : Fin 16), s.able c [d, x, y] [] [] →
    s.changes c (.add c d x y) (fun k =>
      let r := k.rw x + k.rw y
      (k.setW d r).setFlags ⟨r == 0, r.msb, decide (65536 ≤ (k.rw x).toNat + (k.rw y).toNat),
        (k.rw x).msb == (k.rw y).msb && r.msb != (k.rw x).msb⟩) ∧
    s.changes c (.adc c d x y) (fun k =>
      let r := k.rw x + k.rw y + (if k.flags.c then 1 else 0)
      (k.setW d r).setFlags ⟨r == 0, r.msb, decide (65536 ≤ (k.rw x).toNat + (k.rw y).toNat + (if k.flags.c then 1 else 0)),
        (k.rw x).msb == (k.rw y).msb && r.msb != (k.rw x).msb⟩) ∧
    s.changes c (.sub c d x y) (fun k =>
      let r := k.rw x - k.rw y
      (k.setW d r).setFlags ⟨r == 0, r.msb, decide ((k.rw y).toNat ≤ (k.rw x).toNat),
        (k.rw x).msb != (k.rw y).msb && r.msb != (k.rw x).msb⟩) ∧
    s.changes c (.sbc c d x y) (fun k =>
      let r := k.rw x - k.rw y - (if k.flags.c then 0 else 1)
      (k.setW d r).setFlags ⟨r == 0, r.msb, decide ((k.rw y).toNat + (if k.flags.c then 0 else 1) ≤ (k.rw x).toNat),
        (k.rw x).msb != (k.rw y).msb && r.msb != (k.rw x).msb⟩) ∧
    s.changes c (.and c d x y) (fun k =>
      let r := k.rw x &&& k.rw y
      (k.setW d r).setFlags ⟨r == 0, r.msb, false, false⟩) ∧
    s.changes c (.or c d x y) (fun k =>
      let r := k.rw x ||| k.rw y
      (k.setW d r).setFlags ⟨r == 0, r.msb, false, false⟩) ∧
    s.changes c (.xor c d x y) (fun k =>
      let r := k.rw x ^^^ k.rw y
      (k.setW d r).setFlags ⟨r == 0, r.msb, false, false⟩) ∧
    s.changes c (.not c d x) (fun k =>
      let r := 0xFFFF - k.rw x
      (k.setW d r).setFlags { k.flags with z := r == 0, n := r.msb }) ∧
    s.changes c (.neg c d x) (fun k =>
      let r := 0 - k.rw x
      (k.setW d r).setFlags ⟨r == 0, r.msb, k.rw x == 0, k.rw x == 0x8000⟩) ∧
    s.changes c (.mov c d x) (fun k => k.setW d (k.rw x)) ∧
    s.changes c (.cmp c x y) (fun k =>
      let r := k.rw x - k.rw y
      k.setFlags ⟨r == 0, r.msb, decide ((k.rw y).toNat ≤ (k.rw x).toNat),
        (k.rw x).msb != (k.rw y).msb && r.msb != (k.rw x).msb⟩) ∧
    s.changes c (.tst c (.scalar x y)) (fun k =>
      let r := k.rw x &&& k.rw y
      k.setFlags ⟨r == 0, r.msb, false, false⟩) ∧
    s.changes c (.min c d x y) (fun k =>
      let r := if (k.rw x).toInt ≤ (k.rw y).toInt then k.rw x else k.rw y
      (k.setW d r).setFlags { k.flags with z := r == 0, n := r.msb }) ∧
    s.changes c (.max c d x y) (fun k =>
      let r := if (k.rw x).toInt ≤ (k.rw y).toInt then k.rw y else k.rw x
      (k.setW d r).setFlags { k.flags with z := r == 0, n := r.msb }) ∧
    s.changes c (.minu c d x y) (fun k =>
      let r := if (k.rw x).toNat ≤ (k.rw y).toNat then k.rw x else k.rw y
      (k.setW d r).setFlags { k.flags with z := r == 0, n := r.msb }) ∧
    s.changes c (.maxu c d x y) (fun k =>
      let r := if (k.rw x).toNat ≤ (k.rw y).toNat then k.rw y else k.rw x
      (k.setW d r).setFlags { k.flags with z := r == 0, n := r.msb }) ∧
    (∀ cc : Fin 16, cc.val < 15 → s.changes c (.sel c d x y cc) (fun k =>
      k.setW d (if condHolds k.flags cc.val then k.rw x else k.rw y)))

/-- R110, OP 0x02: shifts by bits 3:0 of a register or of AUX, with the last bit out in C when the amount is not 0;
rotates; counts of bits; reversal of the bit order. -/
def Obligations.ShiftsAndBitCounts : Prop :=
  ∀ (s : State) (c : CoreId) (d x y : Fin 16) (aux : BitVec 8), s.able c [d, x, y] [] [] →
    let left := fun (k : Machine.Core) (n : Nat) =>
      let r : Word := BitVec.ofNat 16 ((k.rw x).toNat * 2 ^ n)
      (k.setW d r).setFlags { k.flags with z := r == 0, n := r.msb,
                                           c := if n = 0 then k.flags.c else (k.rw x).toNat / 2 ^ (16 - n) % 2 == 1 }
    let right := fun (k : Machine.Core) (n : Nat) =>
      let r : Word := BitVec.ofNat 16 ((k.rw x).toNat / 2 ^ n)
      (k.setW d r).setFlags { k.flags with z := r == 0, n := r.msb,
                                           c := if n = 0 then k.flags.c else (k.rw x).toNat / 2 ^ (n - 1) % 2 == 1 }
    let arith := fun (k : Machine.Core) (n : Nat) =>
      let r : Word := BitVec.ofInt 16 ((k.rw x).toInt / 2 ^ n)
      (k.setW d r).setFlags { k.flags with z := r == 0, n := r.msb,
                                           c := if n = 0 then k.flags.c else (k.rw x).toNat / 2 ^ (n - 1) % 2 == 1 }
    let rotLeft := fun (k : Machine.Core) (n : Nat) =>
      let r : Word := BitVec.ofNat 16 ((k.rw x).toNat * 2 ^ n + (k.rw x).toNat / 2 ^ (16 - n))
      (k.setW d r).setFlags { k.flags with z := r == 0, n := r.msb }
    let rotRight := fun (k : Machine.Core) (n : Nat) =>
      let r : Word := BitVec.ofNat 16 ((k.rw x).toNat / 2 ^ n + (k.rw x).toNat * 2 ^ (16 - n))
      (k.setW d r).setFlags { k.flags with z := r == 0, n := r.msb }
    let bits := fun (v : Word) (f : Nat → Nat) => ((List.range 16).map (fun i => v.toNat / 2 ^ i % 2 * f i)).sum
    s.changes c (.shl c d x y) (fun k => left k ((k.rw y).toNat % 16)) ∧
    s.changes c (.shr c d x y) (fun k => right k ((k.rw y).toNat % 16)) ∧
    s.changes c (.sar c d x y) (fun k => arith k ((k.rw y).toNat % 16)) ∧
    s.changes c (.rol c d x y) (fun k => rotLeft k ((k.rw y).toNat % 16)) ∧
    s.changes c (.ror c d x y) (fun k => rotRight k ((k.rw y).toNat % 16)) ∧
    s.changes c (.shli c d x aux) (fun k => left k (aux.toNat % 16)) ∧
    s.changes c (.shri c d x aux) (fun k => right k (aux.toNat % 16)) ∧
    s.changes c (.sari c d x aux) (fun k => arith k (aux.toNat % 16)) ∧
    s.changes c (.roli c d x aux) (fun k => rotLeft k (aux.toNat % 16)) ∧
    s.changes c (.rori c d x aux) (fun k => rotRight k (aux.toNat % 16)) ∧
    s.changes c (.clz c d x) (fun k =>
      let r : Word := if k.rw x = 0 then 16 else BitVec.ofNat 16 (15 - Nat.log2 (k.rw x).toNat)
      (k.setW d r).setFlags { k.flags with z := r == 0 }) ∧
    s.changes c (.popc c d x) (fun k =>
      let r : Word := BitVec.ofNat 16 (bits (k.rw x) (fun _ => 1))
      (k.setW d r).setFlags { k.flags with z := r == 0 }) ∧
    s.changes c (.brev c d x) (fun k => k.setW d (BitVec.ofNat 16 (bits (k.rw x) (fun i => 2 ^ (15 - i)))))

/-- R110, OP 0x03 and 0x04: products, and arithmetic on address registers, modulo 2³². -/
def Obligations.MultiplyAndAddressArithmetic : Prop :=
  ∀ (s : State) (c : CoreId) (d x y : Fin 16) (p q r : Fin 8) (aux : BitVec 8), s.able c [d, x, y] [p, q, r] [] →
    let product := fun (k : Machine.Core) (v : Word) => (k.setW d v).setFlags { k.flags with z := v == 0, n := v.msb }
    s.changes c (.mul c d x y) (fun k => product k (BitVec.ofNat 16 ((k.rw x).toNat * (k.rw y).toNat))) ∧
    s.changes c (.mulhs c d x y) (fun k => product k (BitVec.ofInt 16 ((k.rw x).toInt * (k.rw y).toInt / 65536))) ∧
    s.changes c (.mulhu c d x y) (fun k => product k (BitVec.ofNat 16 ((k.rw x).toNat * (k.rw y).toNat / 65536))) ∧
    s.changes c (.mulwu c p x y) (fun k => k.setA p (BitVec.ofNat 32 ((k.rw x).toNat * (k.rw y).toNat))) ∧
    s.changes c (.adda c p q y) (fun k => k.setA p (BitVec.ofInt 32 ((k.ra q).toInt + (k.rw y).toInt))) ∧
    s.changes c (.addau c p q y) (fun k => k.setA p (BitVec.ofNat 32 ((k.ra q).toNat + (k.rw y).toNat))) ∧
    s.changes c (.addaa c p q r) (fun k => k.setA p (k.ra q + k.ra r)) ∧
    s.changes c (.subaa c p q r) (fun k => k.setA p (k.ra q - k.ra r)) ∧
    s.changes c (.mova c p q) (fun k => k.setA p (k.ra q)) ∧
    s.changes c (.moval c d q) (fun k => k.setW d (BitVec.ofNat 16 (k.ra q).toNat)) ∧
    s.changes c (.movah c d q) (fun k => k.setW d (BitVec.ofNat 16 ((k.ra q).toNat / 65536))) ∧
    s.changes c (.movwa c p x y) (fun k => k.setA p (BitVec.ofNat 32 ((k.rw x).toNat * 65536 + (k.rw y).toNat))) ∧
    s.changes c (.cmpa c q r) (fun k =>
      let v := k.ra q - k.ra r
      k.setFlags ⟨v == 0, v.msb, decide ((k.ra r).toNat ≤ (k.ra q).toNat), (k.ra q).msb != (k.ra r).msb && v.msb != (k.ra q).msb⟩) ∧
    s.changes c (.shla c p q aux) (fun k => k.setA p (BitVec.ofNat 32 ((k.ra q).toNat * 2 ^ (aux.toNat % 32))))

/-- R110, OP 0x05 and 0x10–0x13: packed bytes and immediate forms. -/
def Obligations.PackedBytesAndImmediates : Prop :=
  ∀ (s : State) (c : CoreId) (d x y : Fin 16) (p q : Fin 8) (n : Fin 2) (imm : Word), s.able c [d, x, y] [p, q] [] →
    let byte := fun (v : Word) (i : Nat) => v.toNat / 256 ^ i % 256
    let bitwise := fun (k : Machine.Core) (v : Word) => (k.setW d v).setFlags ⟨v == 0, v.msb, false, false⟩
    s.changes c (.extb c d x n) (fun k => k.setW d (BitVec.ofNat 16 (byte (k.rw x) n.val))) ∧
    s.changes c (.extbs c d x n) (fun k =>
      k.setW d (BitVec.ofNat 16 (byte (k.rw x) n.val + if byte (k.rw x) n.val < 128 then 0 else 0xFF00))) ∧
    s.changes c (.insb c d x n) (fun k =>
      k.setW d (BitVec.ofNat 16 (byte (k.rw x) 0 * 256 ^ n.val + byte (k.rw d) (1 - n.val) * 256 ^ (1 - n.val)))) ∧
    s.changes c (.packb c d x y) (fun k => k.setW d (BitVec.ofNat 16 (byte (k.rw y) 0 * 256 + byte (k.rw x) 0))) ∧
    s.changes c (.swpb c d x) (fun k => k.setW d (BitVec.ofNat 16 (byte (k.rw x) 0 * 256 + byte (k.rw x) 1))) ∧
    s.changes c (.addi c d x imm) (fun k =>
      let r := k.rw x + imm
      (k.setW d r).setFlags ⟨r == 0, r.msb, decide (65536 ≤ (k.rw x).toNat + imm.toNat),
        (k.rw x).msb == imm.msb && r.msb != (k.rw x).msb⟩) ∧
    s.changes c (.andi c d x imm) (fun k => bitwise k (k.rw x &&& imm)) ∧
    s.changes c (.ori c d x imm) (fun k => bitwise k (k.rw x ||| imm)) ∧
    s.changes c (.xori c d x imm) (fun k => bitwise k (k.rw x ^^^ imm)) ∧
    s.changes c (.li c d imm) (fun k => k.setW d imm) ∧
    s.changes c (.cmpi c x imm) (fun k =>
      let r := k.rw x - imm
      k.setFlags ⟨r == 0, r.msb, decide (imm.toNat ≤ (k.rw x).toNat), (k.rw x).msb != imm.msb && r.msb != (k.rw x).msb⟩) ∧
    s.changes c (.addai c p q imm) (fun k => k.setA p (BitVec.ofInt 32 ((k.ra q).toInt + imm.toInt))) ∧
    s.changes c (.lal c p imm) (fun k => k.setA p (BitVec.ofNat 32 ((k.ra p).toNat / 65536 * 65536 + imm.toNat))) ∧
    s.changes c (.lah c p imm) (fun k => k.setA p (BitVec.ofNat 32 ((k.ra p).toNat % 65536 + imm.toNat * 65536)))

/-! ## The course of an instruction -/

/-- The fetch of an instruction from memory, flash or boot ROM changes nothing but the L1 instruction cache and the fetch buffer of its
core, its requests at the store banks and on the mesh, and, on a memory error, the registers that report it; the words of memory stay as
they are (R165, R177, R185). -/
def Obligations.FetchChangesNoData : Prop :=
  ∀ (s : State) (c : CoreId), s.codeInMemory c → s.sameButCore (s.fetched c) c ∧
    { (s.fetched c).core c with l1i := [], fbuf := none } = { s.core c with l1i := [], fbuf := none }

/-- R117: the end test of hardware loops after an instruction: the levels that end together, innermost first, then the level
that goes back to its start, or the next instruction; and the STEP exception after it under CST.SS (R131), before which a stop request
of a seat goes. -/
def Obligations.CompletionAppliesTheEndTest : Prop :=
  (∀ (s : State) (c : CoreId), let k := s.core c
    k.held = [] → s.bh.step = false → (∀ r ∈ s.readsOf c, r.use ≠ .insn) →
    let ld := cstLd k.cst
    ∀ ends : Nat, ends ≤ ld → ld ≤ 4 → (∀ m : Fin 4, ld - ends ≤ m.val → m.val < ld → k.le.get m = k.pc ∧ k.lc.get m = 1) →
      let ended := { k with wait := none, cst := withLd k.cst (ld - ends),
                            lc := Vector.ofFn (fun m : Fin 4 => if ld - ends ≤ m.val ∧ m.val < ld then 0 else k.lc.get m) }
      ((∀ m : Fin 4, m.val + 1 = ld - ends → k.le.get m ≠ k.pc) → s.complete c false = s.setCore c { ended with pc := k.pc + 2 }) ∧
      (∀ m : Fin 4, m.val + 1 = ld - ends → k.le.get m = k.pc → k.lc.get m ≠ 1 →
        s.complete c false = s.setCore c { ended with lc := ended.lc.set m (k.lc.get m - 1), pc := k.ls.get m &&& 0xFFFFFFFE })) ∧
  (∀ (crew : Fin 96) (n : Fin 8) (s : State), let c : CoreId := .seat crew n
    let k := s.core c
    cstLd k.cst = 0 → (∀ r ∈ s.readsOf c, r.use ≠ .insn) →
    (k.stopReq = false →
      s.complete c true = s.setCore c { k with pc := k.pc + 2, wait := none, stopping := some ⟨9, false, k.pc + 2, 0⟩ }) ∧
    (k.stopReq = true → s.complete c true = s.setCore c { k with pc := k.pc + 2, wait := none, stepDue := true })) ∧
  (∀ (crew : Fin 96) (s : State), let c : CoreId := .cox crew
    let k := s.core c
    cstLd k.cst = 0 → cstExl k.cst = false → (∀ r ∈ s.readsOf c, r.use ≠ .insn) →
    s.complete c true =
      s.setCore c { k with pc := k.ivb + 36, wait := none, ecst := k.cst, ecause := 9, epc := k.pc + 2, eval := 0,
                           cst := cstEntry k.cst })

/-- What a scalar instruction on registers, whose code lies in memory, leaves as it is: every register but the one it writes, every
other core, and all of memory; and, where the core carries it out with no STEP and no held report following, every register of
exceptions too. -/
def Obligations.ScalarFrame : Prop :=
  ∀ (i : Instr) (c : CoreId) (dw : Option (Fin 16)) (da : Option (Fin 8)) (s t : State),
    scalarDest i = some (c, dw, da) → s.codeInMemory c → exec i s = .next t →
    (∀ r, dw ≠ some r → (t.core c).rw r = (s.core c).rw r) ∧ (∀ r, da ≠ some r → (t.core c).ra r = (s.core c).ra r) ∧
    ((t.core c).v = (s.core c).v ∧ (t.core c).p = (s.core c).p ∧ (t.core c).t = (s.core c).t ∧ (t.core c).z = (s.core c).z ∧
      (t.core c).latchA = (s.core c).latchA ∧ (t.core c).latchB = (s.core c).latchB ∧ (t.core c).ls = (s.core c).ls ∧
      (t.core c).le = (s.core c).le ∧ (t.core c).ivb = (s.core c).ivb ∧ (t.core c).l1d = (s.core c).l1d) ∧
    (∀ c', c' ≠ c → t.core c' = s.core c') ∧
    (∀ a, mapGet memDefault t.mem a = mapGet memDefault s.mem a) ∧ (∀ a, ¬ errorReg a → t.reg a = s.reg a) ∧
    (s.holds c i → cstSs (s.core c).cst = false → (s.core c).held = [] →
      (t.core c).ecst = (s.core c).ecst ∧ (t.core c).ecause = (s.core c).ecause ∧ (t.core c).epc = (s.core c).epc ∧
      (t.core c).eval = (s.core c).eval ∧ (t.core c).cst &&& 0xF8F0 = (s.core c).cst &&& 0xF8F0)

/-- R111, R112, R126: where a load takes its data from, the register it writes, the base register, and the exceptions of a load that
cannot issue. Of LDD with write-back into its own base register the value is left open (log entry 17). -/
def Obligations.LoadForms : Prop :=
  ∀ (s : State) (c : CoreId) (d : LoadDst) (b : Fin 8) (wb : Bool) (off : BitVec 12),
    let i := loadInstr c d b wb off
    s.ableMem c d b → s.holds c i →
    let F := s.fetched c
    let K := F.core c
    let a := effAddr (K.ra b) wb off
    let places := [a] ++ if d.wide then [a + 1] else []
    let done := fun (t : State) => exec i s = .next (s.ran c (t.setCore c ((t.core c).writeBase b wb off)))
    (d.wide = true → a.getLsbD 0 = true → exec i s = .next (s.traps c F 5 a)) ∧
    ((d.wide && a.getLsbD 0) = false → F.behindTile c false places = true → exec i s = .next s) ∧
    ((d.wide && a.getLsbD 0) = false → F.behindTile c false places = false →
      (F.access c a.toNat false = .unmapped → exec i s = .next (s.traps c F (accessCode c) a)) ∧
      ((wb = true → d ≠ .a b) →
        (∀ w, F.access c a.toNat false = .mem w → F.access c (a.toNat + if d.wide then 1 else 0) false = .mem (w + if d.wide then 1 else 0) →
          (cacheable c w = false → F.sound w d.wide →
            done (F.setCore c (K.deliver d (F.value w d.wide)))) ∧
          (cacheable c w = true → ∀ l, K.line (blockOf a.toNat w) = some l → l.bad = 0 →
            done (F.setCore c ((K.putLine l).deliver d
              (if d.wide then l.get (w % 32 + 1) ++ l.get (w % 32) else (l.get (w % 32)).setWidth 32)))) ∧
          (cacheable c w = true → K.line (blockOf a.toNat w) = none → K.misses = [] → F.ccServes (crewNum c) = false →
            ((nearTo c w = true ∨ F.coreClogged c = false) →
              let F1 := F.setCore c { K with misses := [⟨blockOf a.toNat w, [.load d (w % 32)], none⟩] }
              let F2 := (F1.blockWords c .miss (blockOf a.toNat w)).sent F1
              done (F2.setCore c ((F2.core c).await d))) ∧
            (nearTo c w = false → F.coreClogged c = true → exec i s = .next s))) ∧
        (∀ r r', F.access c a.toNat false = .reg r → F.access c (a.toNat + if d.wide then 1 else 0) false = .reg r' →
          done ((F.pushCtl (coreRequester c) (.core (BitVec.ofNat 32 r) d.wide none (some d))).setCore c (K.await d))) ∧
        (∀ f f', F.access c a.toNat false = .flash f → F.access c (a.toNat + if d.wide then 1 else 0) false = .flash f' →
          done (F.setCore c (K.deliver d (if d.wide then F.flashWord (f + 2) ++ F.flashWord f else (F.flashWord f).setWidth 32)))) ∧
        (∀ w w', F.access c a.toNat false = .rom w → F.access c (a.toNat + if d.wide then 1 else 0) false = .rom w' →
          done (F.setCore c (K.deliver d
            (if d.wide then Config.bootRom (w + 1) ++ Config.bootRom w else (Config.bootRom w).setWidth 32)))))) ∧
    (∀ w, wb = true → d = .a b → a.getLsbD 0 = false → F.behindTile c false places = false →
      F.access c a.toNat false = .mem w → F.access c (a.toNat + 1) false = .mem (w + 1) → cacheable c w = false → F.sound w true →
      ∃ v, exec i s = .next (s.ran c ({ F with freeCtr := F.freeCtr + 1 }.setCore c (K.setA b v))))

/-- R111, R112, R126: where a store puts its words. -/
def Obligations.StoreForms : Prop :=
  ∀ (s : State) (c : CoreId) (d : LoadDst) (b : Fin 8) (wb : Bool) (off : BitVec 12),
    let i := storeInstr c d b wb off
    s.ableMem c d b → s.holds c i →
    let F := s.fetched c
    let K := F.core c
    let a := effAddr (K.ra b) wb off
    let places := [a] ++ if d.wide then [a + 1] else []
    let v := K.valueOf d
    let lo : Word := v.setWidth 16
    let hi : Word := (v >>> 16).setWidth 16
    let done := fun (t : State) => exec i s = .next (s.ran c (t.setCore c ((t.core c).writeBase b wb off)))
    (d.wide = true → a.getLsbD 0 = true → exec i s = .next (s.traps c F 5 a)) ∧
    ((d.wide && a.getLsbD 0) = false → F.behindTile c true places = true → exec i s = .next s) ∧
    ((d.wide && a.getLsbD 0) = false → F.behindTile c true places = false →
      (F.access c a.toNat true = .unmapped → exec i s = .next (s.traps c F (accessCode c) a)) ∧
      (∀ w, F.access c a.toNat true = .mem w → F.access c (a.toNat + if d.wide then 1 else 0) true = .mem (w + if d.wide then 1 else 0) →
        (cacheable c w = false → done (F.writeWords ((w, lo) :: if d.wide then [(w + 1, hi)] else []))) ∧
        (cacheable c w = true → ∀ l, K.line (blockOf a.toNat w) = some l → l.bad = 0 →
          done (F.setCore c ((K.putLine l).putLine
            (if d.wide then (l.put (w % 32) lo).put (w % 32 + 1) hi else l.put (w % 32) lo)))) ∧
        (cacheable c w = true → K.line (blockOf a.toNat w) = none → K.misses = [] → F.ccServes (crewNum c) = false →
          ((nearTo c w = true ∨ F.coreClogged c = false) →
            let F1 := F.setCore c { K with misses := [⟨blockOf a.toNat w,
              .store (w % 32) lo :: (if d.wide then [.store (w % 32 + 1) hi] else []), none⟩] }
            done ((F1.blockWords c .miss (blockOf a.toNat w)).sent F1)) ∧
          (nearTo c w = false → F.coreClogged c = true → exec i s = .next s))) ∧
      (∀ r r', F.access c a.toNat true = .reg r → F.access c (a.toNat + if d.wide then 1 else 0) true = .reg r' →
        done (F.pushCtl (coreRequester c) (.core (BitVec.ofNat 32 r) d.wide (some v) none))))

/-- What a store, whose code lies in memory, leaves as it is: every byte of memory outside the two or four bytes at its address, when
the address lies in memory that the core reaches without its data cache; all of memory, when the line is in the cache or the address is
one of register space; and every register but the base. -/
def Obligations.StoreFrame : Prop :=
  ∀ (s t : State) (c : CoreId) (d : LoadDst) (b : Fin 8) (wb : Bool) (off : BitVec 12),
    s.codeInMemory c → exec (storeInstr c d b wb off) s = .next t →
    let F := s.fetched c
    let a := effAddr ((F.core c).ra b) wb off
    (∀ r, (t.core c).rw r = (s.core c).rw r) ∧ (∀ r, (wb = true → r ≠ b) → (t.core c).ra r = (s.core c).ra r) ∧
    (∀ c', c' ≠ c → t.core c' = s.core c') ∧
    (∀ w, F.access c a.toNat true = .mem w → cacheable c w = false → ∀ x,
      ¬ (2 * w ≤ x ∧ x < 2 * w + if d.wide then 4 else 2) → mapGet memDefault t.mem x = mapGet memDefault s.mem x) ∧
    (∀ w, F.access c a.toNat true = .mem w → cacheable c w = true →
      (∀ l, (F.core c).line (blockOf a.toNat w) = some l → l.bad = 0) → ∀ x, mapGet memDefault t.mem x = mapGet memDefault s.mem x) ∧
    ((∀ w, F.access c a.toNat true ≠ .mem w) → ∀ x, mapGet memDefault t.mem x = mapGet memDefault s.mem x)

/-! ## What follows a load, branches, system instructions, loops and block repeat -/

/-- R112, R126, R187: data on their way reach their register; a line that returns is installed with the waiting stores merged
and gives the waiting loads their data; an error report is taken as an imprecise exception, or held. -/
def Obligations.OutstandingLoadsAndErrors : Prop :=
  (∀ (s : State) (c : CoreId) (n : Nat) (r : Returned), (s.core c).returned[n]? = some r → (s.core c).wait ≠ some .csync →
    exec (.loadReturn c n) s = .next (s.setCore c
      (({ s.core c with returned := (s.core c).returned.eraseIdx n }.deliver r.dst r.value).unawait r.dst))) ∧
  (∀ (s : State) (c : CoreId) (n : Nat) (m : Miss), let k := s.core c
    k.misses[n]? = some m → k.wait ≠ some .csync → k.victim m.block = none →
    let filled := fun (t : State) (ws : List Word) =>
      let r := applyMissOps m.ops ⟨m.block, ws, 0, 0⟩ []
      t.setCore c { ({ k with misses := k.misses.filter (fun x => x.block != m.block) } : Machine.Core).putLine r.1 with
        returned := k.returned ++ r.2 }
    (∀ ws, m.data = some ws → exec (.lineFill c n) s = .next (filled s ws)) ∧
    (∀ ps : List Nat, m.data = none → ps.length = 32 →
      (∀ i, i < 32 → ∃ w, ps[i]? = some w ∧ s.resolve c (m.block * 32 + i) = .mem w ∧ nearTo c w = true ∧ s.zeroing w = false ∧
        s.sound w false) →
      exec (.lineFill c n) s = .next (filled (s.bankUse (useRank c .miss) false ps) (ps.map s.word)))) ∧
  (∀ (s : State) (c : CoreId) (a : Addr) (rest : List Addr), let k := s.core c
    let q := s.dropReads c .insn
    k.errs = a :: rest → lowestAddr k.errs = a → k.mode = .running → k.lockup = false → k.wait ≠ some .csync →
    (∀ crew n, c = .seat crew n → k.stopping = none →
      exec (.impreciseErrorReport c) s =
        .next (q.setCore c { k with errs := rest, stopping := some ⟨3, true, k.pc, a⟩, wait := none })) ∧
    (∀ crew, c = .cox crew → cstExl k.cst = false →
      exec (.impreciseErrorReport c) s = .next (q.setCore c
        { k with errs := rest, ecst := k.cst, epc := k.pc, ecause := 0x4004, eval := a, cst := cstEntry k.cst,
                 pc := k.ivb + 16, wait := none })) ∧
    (∀ crew, c = .cox crew → cstExl k.cst = true →
      exec (.impreciseErrorReport c) s = .next (s.setCore c { k with errs := rest, held := k.held ++ [a] })))

/-- R109: the condition codes, as BC and SEL test them; condition 15 raises ILLEGAL. -/
def Obligations.ConditionsOfBcAndSel : Prop :=
  ∀ (s : State) (c : CoreId) (d x y cc : Fin 16) (disp : BitVec 20), s.able c [d, x, y] [] [] →
    let F := s.fetched c
    let K := F.core c
    let z := K.cst.getLsbD 0
    let n := K.cst.getLsbD 1
    let carry := K.cst.getLsbD 2
    let v := K.cst.getLsbD 3
    let holds := [true, z, !z, n != v, n == v, z || n != v, !z && n == v, !carry, carry, !carry || z, carry && !z,
      n, !n, v, !v, false].getD cc.val false
    let target := K.pc + disp.signExtend 32
    (cc.val < 15 → s.changes c (.sel c d x y cc) (fun k => k.setW d (if holds then k.rw x else k.rw y))) ∧
    (s.holds c (.sel c d x y cc) → cc.val = 15 →
      exec (.sel c d x y cc) s = .next (s.traps c F 1 (encA 0x01 d.val x.val y.val 0x10 15))) ∧
    (s.holds c (.bc c cc disp) → atLoopEnd K = false →
      (cc.val < 15 → disp.getLsbD 0 = false → target.getLsbD 0 = false →
        exec (.bc c cc disp) s = .next (if holds then s.went c F target else s.ran c F)) ∧
      (cc.val = 15 ∨ disp.getLsbD 0 = true → exec (.bc c cc disp) s = .next (s.traps c F 1 (encB 0x20 cc.val disp))))

/-- R101, R103, R114: where calls, jumps and returns go, what they push and pop, and the ALIGN exception of an odd target. -/
def Obligations.CallsJumpsAndReturns : Prop :=
  ∀ (s t : State) (c : CoreId) (r : Fin 8) (disp : BitVec 20) (v : Addr), s.able c [] [r, 7] [] →
    let F := s.fetched c
    let K := F.core c
    let sp := K.ra 7 - 2
    let popped := State.setCore t c ((t.core c).setA 7 (K.ra 7 + 2))
    let pushed := State.setCore t c ((t.core c).setA 7 sp)
    atLoopEnd K = false →
    let goes := fun (i : Instr) (u : State) => s.holds c i → exec i s = .next u
    ((K.ra r).getLsbD 0 = false → goes (.jr c r) (s.went c F (K.ra r))) ∧
    ((K.ra r).getLsbD 0 = true → goes (.jr c r) (s.traps c F 5 (K.ra r))) ∧
    (F.storeAt c sp true (K.pc + 2) = .ok t → (K.ra r).getLsbD 0 = false → goes (.callr c r) (s.went c pushed (K.ra r))) ∧
    (F.storeAt c sp true (K.pc + 2) = .ok t → disp.getLsbD 0 = false → (K.pc + disp.signExtend 32).getLsbD 0 = false →
      goes (.call c disp) (s.went c pushed (K.pc + disp.signExtend 32))) ∧
    (F.loadNow c (K.ra 7) true = .ok t v → v.getLsbD 0 = false → goes (.ret c) (s.went c popped v)) ∧
    (F.loadNow c (K.ra 7) true = .ok t v → v.getLsbD 0 = true → goes (.ret c) (s.traps c F 5 v)) ∧
    (isSeat c = false → K.epc.getLsbD 0 = false → goes (.reti c) (s.went c (F.setCore c { K with cst := K.ecst }) K.epc)) ∧
    (isSeat c = false → K.epc.getLsbD 0 = true → goes (.reti c) (s.traps c F 5 K.epc)) ∧
    (isSeat c = true → goes (.reti c) (s.traps c F 2 (encA 0x06 0 0 0 0x03 0)))

/-- R102: a 32-bit data access at an odd effective address raises ALIGN, and accesses nothing. -/
def Obligations.OddWideAccessesRaiseAlign : Prop :=
  ∀ (s : State) (c : CoreId) (d b : Fin 8) (wb : Bool) (off : BitVec 12) (r : Fin 8) (disp : BitVec 20),
    s.able c [] [d, b, r, 7] [] →
    let F := s.fetched c
    let K := F.core c
    let a := effAddr (K.ra b) wb off
    let align := fun (i : Instr) (a : Addr) => s.holds c i → exec i s = .next (s.traps c F 5 a)
    (a.getLsbD 0 = true → align (.ldd c d b wb off) a ∧ align (.std c d b wb off) a) ∧
    ((K.ra 7).getLsbD 0 = true →
      (atLoopEnd K = false →
        align (.ret c) (K.ra 7) ∧ align (.callr c r) (K.ra 7 - 2) ∧ (disp.getLsbD 0 = false → align (.call c disp) (K.ra 7 - 2))) ∧
      (cstLd K.cst ≠ 0 → align (.lsave c) (K.ra 7 - 2)) ∧
      (cstLd K.cst < 4 → align (.lrest c) (K.ra 7)))

/-- R118: a transfer at the last instruction of the innermost active loop raises ILLEGAL; a block-repeat instruction may stand
there, and the end test applies when it completes. -/
def Obligations.TransfersMayNotEndALoopBody : Prop :=
  ∀ (s : State) (c : CoreId) (cc x : Fin 16) (disp : BitVec 20) (r : Fin 8) (imm : BitVec 8) (n : LoopCount) (len : BitVec 12),
    s.able c (x :: match n with | .w q => [q] | _ => []) (4 :: 5 :: 6 :: 7 :: r :: match n with | .a q => [q] | _ => []) [] →
    let F := s.fetched c
    let K := F.core c
    let illegal := fun (i : Instr) (word : BitVec 32) => s.holds c i → exec i s = .next (s.traps c F 1 word)
    let ends := fun (i : Instr) => s.holds c i → exec i s = .next (s.ran c F)
    atLoopEnd K = true →
    (illegal (.bc c cc disp) (encB 0x20 cc.val disp) ∧ illegal (.call c disp) (encB 0x21 0 disp) ∧
      illegal (.callr c r) (encA 0x06 0 r.val 0 0x09 0) ∧ illegal (.jr c r) (encA 0x06 0 r.val 0 0x08 0) ∧
      illegal (.ret c) (encA 0x06 0 0 0 0x0A 0) ∧ illegal (.reti c) (encA 0x06 0 0 0 0x03 0) ∧
      illegal (.loop c n len) (encL 0x24 (loopField n).1 (loopField n).2 len) ∧
      illegal (.brk c imm) (encA 0x06 0 0 0 0x05 imm.toNat) ∧ illegal (.trap c imm) (encA 0x06 0 0 0 0x06 imm.toNat)) ∧
    (K.ra 6 = 0 → ends (.repmov c) ∧ ends (.repmovD c) ∧ ends (.repset c x) ∧
      s.changes c (.repcmp c) (fun k => k.setFlags { k.flags with z := true }) ∧
      s.changes c (.repscan c x) (fun k => k.setFlags { k.flags with z := false }) ∧
      s.changes c (.repscanNe c x) (fun k => k.setFlags { k.flags with z := false })) ∧
    (∀ (e u : State) (rep : Rep), let k := e.core c
      k.wait = some (.rep rep) → k.mode = .running → k.stopReq = false → k.stopping = none → k.ra 6 = 1 →
      e.repElement c rep = .next u →
      exec (.blockRepeatElement c) e = .next ((u.setCore c ((u.core c).repEnd rep)).complete c (cstSs k.cst)))

/-- R104, R105, R106: what MFS reads and MTS writes, number by number; what seat level may not reach; unlisted numbers. -/
def Obligations.SpecialRegisters : Prop :=
  ∀ (s : State) (c : CoreId) (d x : Fin 16) (sr : BitVec 8), s.able c [d, x] [] [] →
    let F := s.fetched c
    let K := F.core c
    let v := K.rw x
    let lo := fun (a : BitVec 32) => (BitVec.ofNat 16 a.toNat : Word)
    let hi := fun (a : BitVec 32) => (BitVec.ofNat 16 (a.toNat / 65536) : Word)
    let low := fun (a : BitVec 32) (w : Word) => (BitVec.ofNat 32 (a.toNat / 65536 * 65536 + w.toNat) : BitVec 32)
    let high := fun (a : BitVec 32) (w : Word) => (BitVec.ofNat 32 (w.toNat * 65536 + a.toNat % 65536) : BitVec 32)
    let read := fun (n : BitVec 8) (w : Word) => s.changes c (.mfs c d n) (fun k => k.setW d w)
    let wrote := fun (n : BitVec 8) (k : Machine.Core) => s.holds c (.mts c n x) → exec (.mts c n x) s = .next (s.ran c (F.setCore c k))
    let denied := fun (i : Instr) (code : Nat) (word : BitVec 32) => s.holds c i → exec i s = .next (s.traps c F code word)
    s.changes c (.nop c) id ∧
    (∀ n : Fin 8, read (BitVec.ofNat 8 n.val) ([0x0011, 0x3F41, 0x37FF, 0x0FFC, 0x9544, 0xC860, 0x0437, 0x0120].getD n.val 0)) ∧
    read 0x10 K.cst ∧
    s.changes c (.mfs c d 0x1A) (fun k => { k.setW d (lo (F.cycle c)) with cycleHi := some (hi (F.cycle c)) }) ∧
    s.changes c (.mfs c d 0x1B) (fun k => { k.setW d (k.cycleHi.getD (hi (F.cycle c))) with cycleHi := none }) ∧
    read 0x1C (match c with
      | .seat crew n => BitVec.ofNat 16 (n.val + crew.val * 32)
      | .cox crew => BitVec.ofNat 16 (8 + crew.val * 32)
      | .boathouse => 16) ∧
    (∀ n : Fin 4, read (BitVec.ofNat 8 (0x20 + 2 * n.val)) (lo (K.ls.get n)) ∧ read (BitVec.ofNat 8 (0x21 + 2 * n.val)) (hi (K.ls.get n)) ∧
      read (BitVec.ofNat 8 (0x28 + 2 * n.val)) (lo (K.le.get n)) ∧ read (BitVec.ofNat 8 (0x29 + 2 * n.val)) (hi (K.le.get n)) ∧
      read (BitVec.ofNat 8 (0x30 + 2 * n.val)) (lo (K.lc.get n)) ∧ read (BitVec.ofNat 8 (0x31 + 2 * n.val)) (hi (K.lc.get n))) ∧
    (isSeat c = false →
      (read 0x11 K.ecst ∧ read 0x12 K.ecause ∧ read 0x14 (lo K.epc) ∧ read 0x15 (hi K.epc) ∧ read 0x16 (lo K.eval) ∧
        read 0x17 (hi K.eval) ∧ read 0x18 (lo K.ivb) ∧ read 0x19 (hi K.ivb)) ∧
      (wrote 0x10 { K with cst := cstStore K.cst v } ∧ wrote 0x11 { K with ecst := cstStore K.ecst v } ∧
        wrote 0x12 { K with ecause := v &&& 0xC03F } ∧ wrote 0x14 { K with epc := low K.epc v } ∧ wrote 0x15 { K with epc := high K.epc v } ∧
        wrote 0x16 { K with eval := low K.eval v } ∧ wrote 0x17 { K with eval := high K.eval v } ∧
        wrote 0x18 { K with ivb := low K.ivb (v &&& 0xFF00) } ∧ wrote 0x19 { K with ivb := high K.ivb v } ∧
        wrote 0x1A K ∧ wrote 0x1B K ∧ wrote 0x1C K ∧ (∀ n : Fin 8, wrote (BitVec.ofNat 8 n.val) K)) ∧
      (∀ n : Fin 4, wrote (BitVec.ofNat 8 (0x20 + 2 * n.val)) { K with ls := K.ls.set n (low (K.ls.get n) v) } ∧
        wrote (BitVec.ofNat 8 (0x21 + 2 * n.val)) { K with ls := K.ls.set n (high (K.ls.get n) v) } ∧
        wrote (BitVec.ofNat 8 (0x28 + 2 * n.val)) { K with le := K.le.set n (low (K.le.get n) v) } ∧
        wrote (BitVec.ofNat 8 (0x29 + 2 * n.val)) { K with le := K.le.set n (high (K.le.get n) v) } ∧
        wrote (BitVec.ofNat 8 (0x30 + 2 * n.val)) { K with lc := K.lc.set n (low (K.lc.get n) v) } ∧
        wrote (BitVec.ofNat 8 (0x31 + 2 * n.val)) { K with lc := K.lc.set n (high (K.lc.get n) v) })) ∧
    (isSeat c = true →
      (∀ n, n ∈ [0x11, 0x12, 0x14, 0x15, 0x16, 0x17, 0x18, 0x19] → denied (.mfs c d (BitVec.ofNat 8 n)) 2 (encA 0x06 d.val 0 0 0x01 n)) ∧
      (srListed sr.toNat = true → sr ≠ 0x10 → denied (.mts c sr x) 2 (encA 0x06 0 x.val 0 0x02 sr.toNat)) ∧
      (cstStore K.cst v &&& 0xFFF0 = K.cst &&& 0xFFF0 → wrote 0x10 { K with cst := (K.cst &&& 0xFFF0) ||| (v &&& 0x000F) }) ∧
      (cstStore K.cst v &&& 0xFFF0 ≠ K.cst &&& 0xFFF0 → denied (.mts c 0x10 x) 2 (encA 0x06 0 x.val 0 0x02 0x10))) ∧
    ((8 ≤ sr.toNat ∧ sr.toNat < 0x10 ∨ sr.toNat = 0x13 ∨ 0x1D ≤ sr.toNat ∧ sr.toNat < 0x20 ∨ 0x38 ≤ sr.toNat) →
      denied (.mfs c d sr) 1 (encA 0x06 d.val 0 0 0x01 sr.toNat) ∧ denied (.mts c sr x) 1 (encA 0x06 0 x.val 0 0x02 sr.toNat))

/-- R125, R127, R128, R130: BRK, TRAP and an interrupt enter the handler of a control core, or stop a seat; a seat whose queues have drained
stops with its state held. The word of ECAUSE, the frame of exception entry, and CST at entry (R105, R127): IE, SS and LD are 0, EXL is 1,
flags and PL are kept. -/
def Obligations.ExceptionEntryAndStops : Prop :=
  (
    (∀ (s : State) (c : CoreId) (imm : BitVec 8), s.able c [] [] [] →
      let K := (s.fetched c).core c
      let F := (s.fetched c).dropReads c .insn
      let goes := fun (i : Instr) (k : Machine.Core) => s.holds c i → exec i s = .next (F.setCore c k)
      atLoopEnd K = false →
      (isCox c = true → cstExl K.cst = false →
        goes (.brk c imm) { K with ecst := K.cst, epc := K.pc, ecause := 7, eval := imm.setWidth 32,
                                   cst := cstEntry K.cst, pc := K.ivb + 28, wait := none } ∧
        goes (.trap c imm) { K with ecst := K.cst, epc := K.pc + 2, ecause := 8, eval := imm.setWidth 32,
                                    cst := cstEntry K.cst, pc := K.ivb + 32, wait := none }) ∧
      (isCox c = true → cstExl K.cst = true → goes (.brk c imm) { K with lockup := true, wait := none }) ∧
      (isSeat c = true →
        goes (.brk c imm) { K with stopping := some ⟨7, false, K.pc, imm.setWidth 32⟩, wait := none } ∧
        goes (.trap c imm) { K with stopping := some ⟨8, false, K.pc + 2, imm.setWidth 32⟩, wait := none })) ∧
    (∀ (s : State) (crew : Fin 96) (n : Nat) (rest : List Nat), let c : CoreId := .cox crew
      let k := s.core c
      s.enabledSources c = n :: rest → k.mode = .running → k.lockup = false → cstIe k.cst = true → waitYields k.wait = true →
      k.held = [] →
      exec (.interrupt c) s = .next ((s.dropReads c .insn).setCore c
        { k with ecst := k.cst, epc := k.pc, ecause := BitVec.ofNat 16 (0x8010 + n), eval := 0, cst := cstEntry k.cst,
                 pc := k.ivb + BitVec.ofNat 32 (64 + 4 * n), wait := none })) ∧
    (∀ (s : State) (crew : Fin 96) (n : Fin 8) (st : Stop), let c : CoreId := .seat crew n
      let k := s.core c
      s.crewUp crew.val = true → k.mode = .running → k.stopping = some st → k.tileQ = [] → k.matQ = [] →
      exec (.seatStop crew n) s = .next ((s.dropReads c .insn).setCore c
        { k with mode := .stopped, stopping := none, stopReq := false, wait := none, halted := k.halted && st.code == 10,
                 ecst := k.cst, ecause := causeWord st.code st.imp, epc := st.epc, eval := st.eval }))) ∧
  (
    ∀ (cst : Word), let e := cstEntry cst
      cstIe e = false ∧ cstSs e = false ∧ cstExl e = true ∧ cstLd e = 0 ∧ flagsOf e = flagsOf cst ∧ e.getLsbD 5 = cst.getLsbD 5 ∧
      (∀ v : Word, let x := cstStore cst v
        cstLd x ≤ 4 ∧ x.getLsbD 5 = cst.getLsbD 5 ∧ x &&& 0xF800 = 0 ∧ flagsOf x = flagsOf v ∧ cstIe x = cstIe v ∧
        cstSs x = cstSs v ∧ cstExl x = cstExl v ∧ (cstLd v ≤ 4 → cstLd x = cstLd v)))

/-- R114, R187, R188: waiting for an interrupt source, for memory; cleaning and invalidating the caches of a core. R187: the write-back of a
dirty line of a control core's own crew store: its masked words reach memory, and the line stays, clean. -/
def Obligations.WaitsAndCaches : Prop :=
  (
    ∀ (s : State) (c : CoreId) (r : Fin 8), s.able c [] [r] [] →
      let F := s.fetched c
      let K := F.core c
      let b := lineBlock c (K.ra r).toNat
      let goes := fun (i : Instr) (u : State) => s.holds c i → exec i s = .next u
      let waits := fun (i : Instr) (w : Wait) => goes i (F.setCore c { K with wait := some w })
      (isSeat c = false → F.enabledSources c = [] → waits (.wfi c) .wfi) ∧
      (isSeat c = false → F.enabledSources c ≠ [] → goes (.wfi c) (s.ran c F)) ∧
      (isSeat c = true → goes (.wfi c) (s.traps c F 2 (encA 0x06 0 0 0 0x04 0))) ∧
      (F.memIdle c = true → goes (.csync c) (s.ran c (F.setCore c { K with fbuf := none }))) ∧
      (F.memIdle c = false → waits (.csync c) .csync) ∧
      (F.lineBusy c b = true → goes (.cflush c r) s ∧ goes (.cinv c r) s) ∧
      (F.lineBusy c b = false → F.coreClogged c = false →
        (K.line b = none → goes (.cflush c r) (s.ran c F)) ∧
        (∀ l, K.line b = some l → l.dirty = 0 → goes (.cflush c r) (s.ran c F)) ∧
        (∀ l, K.line b = some l → l.dirty ≠ 0 → l.bad = 0 → goes (.cflush c r) (s.ran c (F.flushLine c b)))) ∧
      (F.lineBusy c b = false → s.changes c (.cinv c r) (fun k => k.dropLine b)) ∧
      (F.cacheBusy c = true → goes (.cflushA c) s ∧ goes (.cinvA c) s) ∧
      (F.cacheBusy c = false → F.coreClogged c = false →
        (K.dirtyBlocks = [] → goes (.cflushA c) (s.ran c F)) ∧
        goes (.cflushA c) (s.ran c (K.dirtyBlocks.foldl (fun t q => t.flushLine c q) F))) ∧
      (F.coreClogged c = true → goes (.cflush c r) s ∧ goes (.cflushA c) s) ∧
      (F.cacheBusy c = false → s.changes c (.cinvA c) (fun k => { k with l1d := [] })) ∧
      s.changes c (.cinvI c) (fun k => { k with l1i := [] })) ∧
  (
    ∀ (s : State) (crew : Fin 96) (b : Nat) (l : Line), let c : CoreId := .cox crew
      (s.core c).line b = some l → l.block = b → l.dirty ≠ 0 → l.bad = 0 →
      storeBase crew.val ≤ 32 * b → 32 * b + 32 ≤ storeBase (crew.val + 1) → s.ccOn crew.val = false → s.crewKilled crew.val = false →
      (∀ o, o < 32 → s.zeroing (32 * b + o) = false) →
      let t := s.flushLine c b
      (∀ o, o < 32 → l.dirty.getLsbD o = true → t.word (32 * b + o) = l.get o) ∧
      (∀ w, ¬ (∃ o, o < 32 ∧ l.dirty.getLsbD o = true ∧ w = 32 * b + o) → t.word w = s.word w) ∧
      (t.core c).line b = some { l with dirty := 0 })

/-- R116, R119, R120: opening, skipping and ending hardware loops, and saving and restoring a level. R121, R123: a block-repeat instruction
with elements left begins to wait for them; one element moves, sets, compares or scans a word, moves the address registers and counts a6
down; the last element, or one that stops it, completes the instruction. -/
def Obligations.LoopsAndBlockRepeat : Prop :=
  (
    ∀ (s : State) (c : CoreId) (n : LoopCount) (len : BitVec 12),
      s.able c (match n with | .w q => [q] | _ => []) (7 :: match n with | .a q => [q] | _ => []) [] →
      let F := s.fetched c
      let K := F.core c
      let ld := cstLd K.cst
      let count : BitVec 32 := match n with | .imm v => BitVec.ofNat 32 v.toNat | .w r => BitVec.ofNat 32 (K.rw r).toNat | .a r => K.ra r
      let last := K.pc + BitVec.ofNat 32 (2 * len.toNat)
      let sp := K.ra 7
      let goes := fun (i : Instr) (u : State) => s.holds c i → exec i s = .next u
      (atLoopEnd K = false →
        (len = 0 → goes (.loop c n len) (s.traps c F 1 (encL 0x24 (loopField n).1 (loopField n).2 len))) ∧
        (len ≠ 0 → count = 0 → (last + 2).getLsbD 0 = false → goes (.loop c n len) (s.went c F (last + 2))) ∧
        (len ≠ 0 → count ≠ 0 → 4 ≤ ld → goes (.loop c n len) (s.traps c F 6 0)) ∧
        (∀ m : Fin 4, len ≠ 0 → count ≠ 0 → ld = m.val →
          s.changes c (.loop c n len) (fun k => { k with ls := k.ls.set m (k.pc + 2), le := k.le.set m last, lc := k.lc.set m count,
                                                         cst := withLd k.cst (m.val + 1) }))) ∧
      (ld = 0 → goes (.lpop c) (s.traps c F 1 (encA 0x06 0 0 0 0x1A 0)) ∧
        goes (.lsave c) (s.traps c F 1 (encA 0x06 0 0 0 0x18 0))) ∧
      (ld ≠ 0 → s.changes c (.lpop c) (fun k => { k with cst := withLd k.cst (ld - 1) })) ∧
      (∀ t1 t2 t3, ld ≠ 0 → F.storeAt c (sp - 2) true (K.lc.get 0) = .ok t1 → t1.storeAt c (sp - 4) true (K.le.get 0) = .ok t2 →
        t2.storeAt c (sp - 6) true (K.ls.get 0) = .ok t3 →
        goes (.lsave c) (s.ran c (t3.setCore c ({ t3.core c with
          ls := #v[K.ls.get 1, K.ls.get 2, K.ls.get 3, 0], le := #v[K.le.get 1, K.le.get 2, K.le.get 3, 0],
          lc := #v[K.lc.get 1, K.lc.get 2, K.lc.get 3, 0], cst := withLd K.cst (ld - 1) }.setA 7 (sp - 6))))) ∧
      (∀ t1 t2 t3 x y z, ld < 4 → F.loadNow c sp true = .ok t1 x → t1.loadNow c (sp + 2) true = .ok t2 y →
        t2.loadNow c (sp + 4) true = .ok t3 z →
        goes (.lrest c) (s.ran c (t3.setCore c ({ t3.core c with
          ls := #v[x, K.ls.get 0, K.ls.get 1, K.ls.get 2], le := #v[y, K.le.get 0, K.le.get 1, K.le.get 2],
          lc := #v[z, K.lc.get 0, K.lc.get 1, K.lc.get 2], cst := withLd K.cst (ld + 1) }.setA 7 (sp + 6))))) ∧
      (ld = 4 → goes (.lrest c) (s.traps c F 6 0))) ∧
  (
    (∀ (s : State) (c : CoreId) (x : Fin 16), s.able c [x] [4, 5, 6] [] →
      let F := s.fetched c
      let K := F.core c
      let begins := fun (i : Instr) (r : Rep) => s.holds c i → exec i s = .next (F.setCore c { K with wait := some (.rep r) })
      K.ra 6 ≠ 0 → begins (.repmov c) .mov ∧ begins (.repmovD c) .movD ∧ begins (.repset c x) (.set (K.rw x)) ∧
        begins (.repcmp c) .cmp ∧ begins (.repscan c x) (.scan (K.rw x)) ∧ begins (.repscanNe c x) (.scanNe (K.rw x))) ∧
    (∀ (s t u : State) (c : CoreId) (v v' : BitVec 32) (x : Word), let k := s.core c
      k.mode = .running → k.stopReq = false → k.stopping = none → cstSs k.cst = false →
      let e := Instr.blockRepeatElement c
      let moved := fun (q : State) (d4 d5 : Addr) =>
        q.setCore c ((((q.core c).setA 4 ((q.core c).ra 4 + d4)).setA 5 ((q.core c).ra 5 + d5)).setA 6 ((q.core c).ra 6 - 1))
      let ends := fun (q : State) => Host.Outcome.next (φ := Fault) (ρ := Refusal) (q.complete c false)
      let flag := fun (q : State) (z : Bool) => q.setCore c ((q.core c).setFlags { (q.core c).flags with z := z })
      let after := fun (q : State) (f : State → State) => if (q.core c).ra 6 = 0 then ends (f q) else .next q
      (∀ d, (k.wait = some (.rep .mov) ∧ d = 1) ∨ (k.wait = some (.rep .movD) ∧ d = -1) → s.loadNow c (k.ra 4) false = .ok t v →
        t.storeAt c (k.ra 5) false v = .ok u → exec e s = after (moved u d d) (fun q => q.setCore c (q.core c))) ∧
      (k.wait = some (.rep (.set x)) → s.storeAt c (k.ra 5) false (x.setWidth 32) = .ok t →
        exec e s = after (moved t 0 1) (fun q => q.setCore c (q.core c))) ∧
      (k.wait = some (.rep .cmp) → s.loadNow c (k.ra 4) false = .ok t v → t.loadNow c (k.ra 5) false = .ok u v' →
        ((BitVec.ofNat 16 v.toNat : Word) = BitVec.ofNat 16 v'.toNat → exec e s = after (moved u 1 1) (fun q => flag q true)) ∧
        ((BitVec.ofNat 16 v.toNat : Word) ≠ BitVec.ofNat 16 v'.toNat → exec e s = ends (u.setCore c
          ((u.core c).setFlags (subFlags (BitVec.ofNat 16 v.toNat : Word) (BitVec.ofNat 16 v'.toNat) false).2)))) ∧
      (k.wait = some (.rep (.scan x)) → s.loadNow c (k.ra 4) false = .ok t v →
        exec e s = if (BitVec.ofNat 16 v.toNat : Word) = x then ends (flag t true) else after (moved t 1 0) (fun q => flag q false)) ∧
      (k.wait = some (.rep (.scanNe x)) → s.loadNow c (k.ra 4) false = .ok t v →
        exec e s = if (BitVec.ofNat 16 v.toNat : Word) = x then after (moved t 1 0) (fun q => flag q false) else ends (flag t true))))

/-! ## Handles, catch groups and calls on a core -/

/-- R114, R115, R179: HLEA forms an address from a handle, HAIL puts a hail at the crew's port or waits for room; their checks. R114, R273,
R275, R278, R281: arriving at and waiting for a catch group, setting, clearing, testing and waiting for a call, the end of a task; and the
ACCESS of a group or call that is not enabled for the core's lane. -/
def Obligations.HandleAndSyncInstructions : Prop :=
  (
    (∀ (s : State) (c : CoreId) (d t : Fin 8) (x : Fin 16), c ≠ .boathouse → s.able c [x] [d, t] [] →
      let F := s.fetched c
      let K := F.core c
      let w := K.rw x
      let h := w.toNat % 256
      let crew := if w.getLsbD 15 then w.toNat / 256 % 128 else crewNum c
      let off := K.ra t
      let good := crew < 96 ∧ F.crewOn crew = true ∧ F.hUse (crewNum c) crew h off.toNat = true ∧ F.hKind crew h ≠ 2
      (good → s.changes c (.hlea c d x t) (fun k => k.setA d (F.reg32 (R.HT_BASE_LO crew h) + off))) ∧
      (¬ good → s.holds c (.hlea c d x t) → exec (.hlea c d x t) s = .next (s.traps c F 3 (off.setWidth 16 ++ w)))) ∧
    (∀ (s : State) (c : CoreId) (d y : Fin 16) (a : Fin 8) (n : Fin 4), c ≠ .boathouse →
      s.able c (List.finRange 16) [a] [] →
      let F := s.fetched c
      let K := F.core c
      let w := K.rw d
      let h := w.toNat / 256
      let crew := crewNum c
      let off := K.ra a
      let port := F.schedOf crew
      let good := F.hStateUse crew crew h = true ∧ F.hKind crew h = 2 ∧ off.toNat + n.val + 1 ≤ F.hLen crew h
      let hail : Hail :=
        { crew := crew, handle := h, dev := F.fld (R.HT_RDEV crew h) 0 8, win := F.fld (R.HT_RWIN crew h) 0 12
          key := F.reg32 (R.HT_KEY_LO crew h), off := F.reg32 (R.HT_BASE_LO crew h) + off
          data := (List.range (n.val + 1)).map (fun i => K.w.toList.getD (y.val + i) 0)
          cnt := w.toNat % 64, event := w.getLsbD 6, lane := F.laneOf crew, sq := F.hailQueue c, engine := none }
      let goes := fun (u : State) => s.holds c (.hail c d a y n) → exec (.hail c d a y n) s = .next u
      (15 < y.val + n.val → goes (s.traps c F 1 (encA 0x08 d.val a.val y.val 0x01 n.val))) ∧
      (y.val + n.val ≤ 15 → good → port.hails.length < 8 →
        goes (s.ran c (F.setSched crew { port with hails := port.hails ++ [hail] }))) ∧
      (y.val + n.val ≤ 15 → good → 8 ≤ port.hails.length → goes (F.setCore c { K with wait := some (.hail hail) })) ∧
      (y.val + n.val ≤ 15 → ¬ good → goes (s.traps c F 3 (off.setWidth 16 ++ w)))) ∧
    (∀ (s : State) (c : CoreId) (h : Hail), (s.core c).wait = some (.hail h) → (s.schedOf h.crew).hails.length < 8 →
      exec (.hailAccept c) s = .next
        ((s.setSched h.crew { s.schedOf h.crew with hails := (s.schedOf h.crew).hails ++ [h] }).complete c (cstSs (s.core c).cst)))) ∧
  (
    ∀ (s : State) (c : CoreId) (g : Fin 64) (n : Fin 256) (d : Fin 16), c ≠ .boathouse → s.able c [d] [] [] →
      let F := s.fetched c
      let K := F.core c
      let crew := crewNum c
      let goes := fun (i : Instr) (u : State) => s.holds c i → exec i s = .next u
      let waits := fun (i : Instr) (w : Wait) => goes i (F.setCore c { K with wait := some w })
      let arrives := fun (u : State) => goes (.cga c g) (s.ran c (u.setCore c (K.cgwDrop g.val)))
      let openG := F.bit (R.SYN_CGCTRL g.val) 0 = true ∧ F.fld (R.SYN_CGCTRL g.val) 2 10 = F.laneOf crew
      let member := (F.cgMembers crew g.val).getLsbD (cgBit c) = true
      let arrived := F.bit (R.SYN_CGARR crew g.val) (cgBit c) = true
      let early := coreKey c ∈ F.cgEarly g.val
      let openC := F.bit (R.SYN_CALLCFG n.val) 11 = true ∧ F.fld (R.SYN_CALLCFG n.val) 0 10 = F.laneOf crew
      let value := F.bit (R.SYN_CALLVAL (n.val / 16)) (n.val % 16)
      let denied := fun (i : Instr) (e : Word) (v : Nat) =>
        goes i (s.traps c (F.setReg R.SYN_ERR (F.reg R.SYN_ERR ||| e)) 3 (BitVec.ofNat 32 v))
      (isSeat c = true → waits (.tend c) .tend) ∧
      (isSeat c = false → goes (.tend c) (s.traps c F 1 (encA 0x08 0 0 0 0x02 0))) ∧
      (openG → member → ¬ arrived → arrives (F.setBit (R.SYN_CGARR crew g.val) (cgBit c) true)) ∧
      (openG → member → arrived → ¬ early → arrives (F.setEarly g.val (F.cgEarly g.val ++ [coreKey c]))) ∧
      (openG → member → arrived → early → waits (.cga c g) (.cga g.val)) ∧
      (¬ openG → denied (.cga c g) 1 g.val ∧ denied (.cgw c g) 1 g.val) ∧
      (openG → ¬ member → denied (.cga c g) 2 g.val) ∧
      (openG → K.cgwLeft g.val = some 0 → s.changes c (.cgw c g) (fun k => k.cgwDrop g.val)) ∧
      (openG → (∃ m, K.cgwLeft g.val = some (m + 1)) → waits (.cgw c g) (.cgw g.val)) ∧
      (openG → K.cgwLeft g.val = none →
        goes (.cgw c g) (F.setCore c { K with wait := some (.cgw g.val), cgw := K.cgw ++ [(g.val, F.cgwNeed c g.val)] })) ∧
      (openC → F.callSys n.val = false →
        goes (.cls c n) (s.ran c (F.callPut n.val true)) ∧ goes (.clc c n) (s.ran c (F.callPut n.val false))) ∧
      (openC → F.callSys n.val = true → F.runsPhases = false →
        waits (.cls c n) (.callOp n.val true) ∧ waits (.clc c n) (.callOp n.val false)) ∧
      (openC → s.changes c (.clt c d n) (fun k => k.setW d (if value then 1 else 0))) ∧
      (openC → value = true → goes (.clw c n) (s.ran c F)) ∧
      (openC → value = false → waits (.clw c n) (.clw n.val)) ∧
      (¬ openC → denied (.cls c n) 1 n.val ∧ denied (.clc c n) 1 n.val ∧ denied (.clt c d n) 1 n.val ∧ denied (.clw c n) 1 n.val))

/-! ## Vector and matrix units (spec/05) -/

/-- R136, R140, R146, OP 0x28: integer lanes under a predicate; 8-bit types act on each byte; types a row does not allow raise
ILLEGAL. -/
def Obligations.VectorIntegerLanes : Prop :=
  ∀ (s : State) (crew : Fin 96) (n : Fin 8) (d x y : Fin 16) (pr : Fin 4) (ty : ElemTy), let c : CoreId := .seat crew n
    s.able c [] [] [d, x, y] →
    let lane := fun (f : Word → Word → Word → Word) (k : Machine.Core) =>
      k.setV d (Vector.ofFn (fun i : Fin 32 =>
        if (k.rp pr).getLsbD i.val then f ((k.rv d).get i) ((k.rv x).get i) ((k.rv y).get i) else (k.rv d).get i))
    let val := fun (v : Word) => if ty = .i16 then v.toInt else (v.toNat : Int)
    let held := fun (v : Int) => if ty = .i16 then max (-32768) (min 32767 v) else max 0 (min 65535 v)
    let held8 := fun (v : Int) => if ty = .i8 then max (-128) (min 127 v) else max 0 (min 255 v)
    let wide := fun (f : Int → Int → Int) (p q : Word) => (BitVec.ofInt 16 (f (val p) (val q)) : Word)
    let bytes := fun (f : Int → Int → Int) (p q : Word) =>
      let e := fun (v : Word) (k : Nat) =>
        let b : Int := v.toNat / 256 ^ k % 256
        if ty = .i8 ∧ 128 ≤ b then b - 256 else b
      (BitVec.ofInt 16 (f (e p 0) (e q 0) % 256 + 256 * (f (e p 1) (e q 1) % 256)) : Word)
    let vadd := Instr.vadd c d x y pr ty
    let vsub := Instr.vsub c d x y pr ty
    let vadds := Instr.vadds c d x y pr ty
    let vsubs := Instr.vsubs c d x y pr ty
    let vmin := Instr.vmin c d x y pr ty
    let vmax := Instr.vmax c d x y pr ty
    let illegal := fun (i : Instr) (fn t : Nat) =>
      s.holds c i → exec i s = .next (s.traps c (s.fetched c) 1 (encX 0x28 d.val x.val t pr.val fn (tyCode ty)))
    ((ty = .i16 ∨ ty = .u16) →
      s.changes c vadd (lane (fun _ p q => p + q)) ∧ s.changes c vsub (lane (fun _ p q => p - q)) ∧
      s.changes c vadds (lane (fun _ => wide (fun a b => held (a + b)))) ∧
      s.changes c vsubs (lane (fun _ => wide (fun a b => held (a - b)))) ∧
      s.changes c (.vmul c d x y pr ty) (lane (fun _ p q => p * q)) ∧
      s.changes c (.vmulh c d x y pr ty) (lane (fun _ => wide (fun a b => a * b / 65536))) ∧
      s.changes c vmin (lane (fun _ => wide min)) ∧ s.changes c vmax (lane (fun _ => wide max)) ∧
      s.changes c (.vshl c d x y pr ty) (lane (fun _ p q => BitVec.ofNat 16 (p.toNat * 2 ^ (q.toNat % 16)))) ∧
      s.changes c (.vshr c d x y pr ty) (lane (fun _ p q => BitVec.ofInt 16 (val p / 2 ^ (q.toNat % 16)))) ∧
      s.changes c (.vmac c d x y pr ty) (lane (fun o p q => o + p * q))) ∧
    ((ty = .i8 ∨ ty = .u8) →
      s.changes c vadd (lane (fun _ => bytes (fun a b => a + b))) ∧ s.changes c vsub (lane (fun _ => bytes (fun a b => a - b))) ∧
      s.changes c vadds (lane (fun _ => bytes (fun a b => held8 (a + b)))) ∧
      s.changes c vsubs (lane (fun _ => bytes (fun a b => held8 (a - b)))) ∧
      s.changes c vmin (lane (fun _ => bytes min)) ∧ s.changes c vmax (lane (fun _ => bytes max)) ∧
      illegal (.vmul c d x y pr ty) 0x04 y.val ∧ illegal (.vmulh c d x y pr ty) 0x05 y.val ∧
      illegal (.vshl c d x y pr ty) 0x0B y.val ∧ illegal (.vshr c d x y pr ty) 0x0C y.val ∧ illegal (.vmac c d x y pr ty) 0x0F y.val) ∧
    (ty ∈ [.i16, .u16, .i8, .u8] →
      s.changes c (.vand c d x y pr ty) (lane (fun _ p q => p &&& q)) ∧ s.changes c (.vor c d x y pr ty) (lane (fun _ p q => p ||| q)) ∧
      s.changes c (.vxor c d x y pr ty) (lane (fun _ p q => p ^^^ q)) ∧ s.changes c (.vmov c d x pr ty) (lane (fun _ p _ => p))) ∧
    (ty = .i16 → s.changes c (.vabs c d x pr ty) (lane (fun _ p _ => if p.msb then 0 - p else p))) ∧
    (ty = .i8 → s.changes c (.vabs c d x pr ty) (lane (fun _ p _ => bytes (fun a _ => max a (-a)) p p))) ∧
    (ty ∉ [.i16, .i8] → illegal (.vabs c d x pr ty) 0x0D 0) ∧
    (ty ∈ [.f16, .bf16, .e4m3, .e5m2] → illegal vadd 0 y.val ∧ illegal vsub 1 y.val ∧ illegal vadds 2 y.val ∧ illegal vsubs 3 y.val ∧
      illegal (.vmul c d x y pr ty) 4 y.val ∧ illegal (.vmulh c d x y pr ty) 5 y.val ∧ illegal vmin 6 y.val ∧ illegal vmax 7 y.val ∧
      illegal (.vand c d x y pr ty) 8 y.val ∧ illegal (.vor c d x y pr ty) 9 y.val ∧ illegal (.vxor c d x y pr ty) 10 y.val ∧
      illegal (.vshl c d x y pr ty) 11 y.val ∧ illegal (.vshr c d x y pr ty) 12 y.val ∧ illegal (.vmov c d x pr ty) 14 0 ∧
      illegal (.vmac c d x y pr ty) 15 y.val)

/-- R146, R155, OP 0x29: floating-point lanes: exact operation, one rounding to nearest even; the sign operations act on the bits; other
types raise ILLEGAL. R155: the special results of the lane operations: canonical NaNs, infinities, signed zeros. -/
def Obligations.VectorFloatLanes : Prop :=
  (
    ∀ (s : State) (crew : Fin 96) (n : Fin 8) (d x y : Fin 16) (pr : Fin 4) (ty : ElemTy), let c : CoreId := .seat crew n
      s.able c [] [] [d, x, y] →
      let f := if ty = .f16 then fmtF16 else fmtBf16
      let lane := fun (g : Word → Word → Word → Word) (k : Machine.Core) =>
        k.setV d (Vector.ofFn (fun i : Fin 32 =>
          if (k.rp pr).getLsbD i.val then g ((k.rv d).get i) ((k.rv x).get i) ((k.rv y).get i) else (k.rv d).get i))
      let v := fun (w : Word) => f.decode w.toNat
      let rounded := fun (q : FVal) => (BitVec.ofNat 16 (f.encode false q) : Word)
      let code := fun (m : Nat) => (BitVec.ofNat 16 m : Word)
      let illegal := fun (i : Instr) (fn t : Nat) =>
        s.holds c i → exec i s = .next (s.traps c (s.fetched c) 1 (encX 0x29 d.val x.val t pr.val fn (tyCode ty)))
      ((ty = .f16 ∨ ty = .bf16) →
        s.changes c (.vfadd c d x y pr ty) (lane (fun _ p q => rounded ((v p).add (v q)))) ∧
        s.changes c (.vfsub c d x y pr ty) (lane (fun _ p q => rounded ((v p).add (v q).neg))) ∧
        s.changes c (.vfmul c d x y pr ty) (lane (fun _ p q => rounded ((v p).mul (v q)))) ∧
        s.changes c (.vfma c d x y pr ty) (lane (fun o p q => rounded ((v o).add ((v p).mul (v q))))) ∧
        s.changes c (.vfms c d x y pr ty) (lane (fun o p q => rounded ((v o).add ((v p).mul (v q)).neg))) ∧
        s.changes c (.vfmin c d x y pr ty) (lane (fun _ p q =>
          if v p = .nan ∨ v q = .nan then code f.nan else if (v p).lt (v q) ∨ (¬ (v q).lt (v p) ∧ p.msb) then p else q)) ∧
        s.changes c (.vfmax c d x y pr ty) (lane (fun _ p q =>
          if v p = .nan ∨ v q = .nan then code f.nan else if (v p).lt (v q) ∨ (¬ (v q).lt (v p) ∧ p.msb) then q else p)) ∧
        s.changes c (.vfabs c d x pr ty) (lane (fun _ p _ => if p.msb then p - 0x8000 else p)) ∧
        s.changes c (.vfneg c d x pr ty) (lane (fun _ p _ => p + 0x8000)) ∧
        s.changes c (.vfrcp c d x pr ty) (lane (fun _ p _ => code (f.rcp p.toNat))) ∧
        s.changes c (.vfrsq c d x pr ty) (lane (fun _ p _ => code (f.rsq p.toNat))) ∧
        s.changes c (.vfexp2 c d x pr ty) (lane (fun _ p _ => code (f.exp2 p.toNat))) ∧
        s.changes c (.vflog2 c d x pr ty) (lane (fun _ p _ => code (f.log2 p.toNat)))) ∧
      (ty ≠ .f16 → ty ≠ .bf16 →
        illegal (.vfadd c d x y pr ty) 0 y.val ∧ illegal (.vfsub c d x y pr ty) 1 y.val ∧ illegal (.vfmul c d x y pr ty) 2 y.val ∧
        illegal (.vfma c d x y pr ty) 3 y.val ∧ illegal (.vfms c d x y pr ty) 4 y.val ∧ illegal (.vfmin c d x y pr ty) 5 y.val ∧
        illegal (.vfmax c d x y pr ty) 6 y.val ∧ illegal (.vfabs c d x pr ty) 7 0 ∧ illegal (.vfneg c d x pr ty) 8 0 ∧
        illegal (.vfrcp c d x pr ty) 9 0 ∧ illegal (.vfrsq c d x pr ty) 10 0 ∧ illegal (.vfexp2 c d x pr ty) 11 0 ∧
        illegal (.vflog2 c d x pr ty) 12 0)) ∧
  (
    ∀ f ∈ [fmtF16, fmtBf16], ∀ x y : Nat, x < 65536 → y < 65536 →
      let inf := if f = fmtF16 then 0x7C00 else 0x7F80
      let nan := if f = fmtF16 then 0x7E00 else 0x7FC0
      let isNan := fun (v : Nat) => inf < v % 32768
      (isNan x → f.encode false ((f.decode x).add (f.decode y)) = nan ∧ f.encode false ((f.decode y).mul (f.decode x)) = nan ∧
        f.min2 x y = nan ∧ f.max2 y x = nan ∧ f.rcp x = nan ∧ f.rsq x = nan ∧ f.exp2 x = nan ∧ f.log2 x = nan) ∧
      (x = inf → y = inf + 32768 → f.encode false ((f.decode x).add (f.decode y)) = nan) ∧
      (x % 32768 = 0 → y % 32768 = inf → f.encode false ((f.decode x).mul (f.decode y)) = nan) ∧
      (32768 < x → x ≤ 32768 + inf → f.rsq x = nan ∧ f.log2 x = nan) ∧
      f.rcp 0 = inf ∧ f.rcp 32768 = 32768 + inf ∧ f.rsq 0 = inf ∧ f.rsq 32768 = 32768 + inf ∧
      f.log2 0 = 32768 + inf ∧ f.log2 32768 = 32768 + inf ∧
      (¬ isNan x → f.encode false (f.decode x) = x))

/-- R146, OP 0x2A and 0x2B: what a compare writes, and the moves and permutes. -/
def Obligations.VectorComparesAndMoves : Prop :=
  ∀ (s : State) (crew : Fin 96) (n : Fin 8) (d x y : Fin 16) (pd pr : Fin 4) (cond : Fin 6) (ty : ElemTy), let c : CoreId := .seat crew n
    s.able c [d, x, y] [] [d, x, y] →
    let on := fun (k : Machine.Core) (i : Fin 32) => (k.rp pr).getLsbD i.val
    let put := fun (k : Machine.Core) (f : Fin 32 → Word) =>
      k.setV d (Vector.ofFn (fun i : Fin 32 => if on k i then f i else (k.rv d).get i))
    let at32 := fun (v : VReg) (m : Nat) => v.get ⟨m % 32, Nat.mod_lt _ (by decide)⟩
    let holds := fun (p q : Word) =>
      let a := (if ty = .bf16 then fmtBf16 else fmtF16).decode p.toNat
      let b := (if ty = .bf16 then fmtBf16 else fmtF16).decode q.toNat
      if ty = .i16 then [decide (p = q), decide (p ≠ q), p.slt q, p.sle q, q.slt p, q.sle p].getD cond.val false
      else if ty = .u16 then [decide (p = q), decide (p ≠ q), p.ult q, p.ule q, q.ult p, q.ule p].getD cond.val false
      else [a.eq b, !(a.eq b), a.lt b, a.lt b || a.eq b, b.lt a, b.lt a || a.eq b].getD cond.val false
    (ty ∈ [.i16, .u16, .f16, .bf16] → ∃ bits : BitVec 32,
      (∀ i : Fin 32, let K := (s.fetched c).core c
        bits.getLsbD i.val = (on K i && holds ((K.rv x).get i) ((K.rv y).get i))) ∧
      s.changes c (.vcmp c pd x y cond pr ty) (fun k => if pd = 0 then k else { k with p := k.p.set pd bits })) ∧
    (ty ∉ [.i16, .u16, .f16, .bf16] → s.holds c (.vcmp c pd x y cond pr ty) → exec (.vcmp c pd x y cond pr ty) s =
      .next (s.traps c (s.fetched c) 1 (encX 0x2A pd.val x.val y.val pr.val cond.val (tyCode ty)))) ∧
    s.changes c (.vbc c d x pr) (fun k => put k (fun _ => k.rw x)) ∧
    s.changes c (.vins c d x y pr) (fun k => put k (fun i => if i.val = (k.rw y).toNat % 32 then k.rw x else (k.rv d).get i)) ∧
    s.changes c (.vext c d x y) (fun k => k.setW d (at32 (k.rv x) (k.rw y).toNat)) ∧
    s.changes c (.vperm c d x y pr) (fun k => put k (fun i => at32 (k.rv x) ((k.rv y).get i).toNat)) ∧
    s.changes c (.vrot c d x y pr) (fun k => put k (fun i => at32 (k.rv x) (i.val + (k.rw y).toNat))) ∧
    s.changes c (.vsel c d x y pr) (fun k =>
      k.setV d (Vector.ofFn (fun i : Fin 32 => if on k i then (k.rv x).get i else (k.rv y).get i))) ∧
    s.changes c (.viota c d pr) (fun k => put k (fun i => BitVec.ofNat 16 i.val))

/-- R146, R147, R156, OP 0x2C and 0x2D: reductions over the lanes that take part, and conversions between element types. R133, R146, OP
0x2E: predicate operations; p0 reads as ones and is not written. -/
def Obligations.ReductionsConversionsPredicates : Prop :=
  (
    ∀ (s : State) (crew : Fin 96) (n : Fin 8) (d x : Fin 16) (pr : Fin 4) (ty src : ElemTy) (h sat : Bool), let c : CoreId := .seat crew n
      s.able c [d] [] [d, x] →
      let K := (s.fetched c).core c
      let on := (List.finRange 32).filter (fun i => (K.rp pr).getLsbD i.val)
      let val := fun (i : Fin 32) => if ty = .i16 then ((K.rv x).get i).toInt else (((K.rv x).get i).toNat : Int)
      let fval := fun (i : Fin 32) => ((K.rv x).get i).toNat
      let f := if ty = .f16 then fmtF16 else fmtBf16
      let inf := if ty = .f16 then 0x7C00 else 0x7F80
      let add := fun (a b : Nat) => f.encode false ((f.decode a).add (f.decode b))
      let gives := fun (i : Instr) (P : Word → Prop) => ∃ v, P v ∧ s.changes c i (fun k => k.setW d v)
      let illegal := fun (i : Instr) (fn : Nat) =>
        s.holds c i → exec i s = .next (s.traps c (s.fetched c) 1 (encX 0x2C d.val x.val 0 pr.val fn (tyCode ty)))
      ((ty = .i16 ∨ ty = .u16) →
        gives (.vradd c d x pr ty) (fun v => v = BitVec.ofInt 16 ((on.map val).sum)) ∧
        gives (.vrmin c d x pr ty) (fun v =>
          let r := if ty = .i16 then v.toInt else (v.toNat : Int)
          (∀ i ∈ on, r ≤ val i) ∧ (on ≠ [] → ∃ i ∈ on, r = val i) ∧ (on = [] → v = if ty = .i16 then 32767 else 65535)) ∧
        gives (.vrmax c d x pr ty) (fun v =>
          let r := if ty = .i16 then v.toInt else (v.toNat : Int)
          (∀ i ∈ on, val i ≤ r) ∧ (on ≠ [] → ∃ i ∈ on, r = val i) ∧ (on = [] → v = if ty = .i16 then 0x8000 else 0)) ∧
        illegal (.vfradd c d x pr ty) 4 ∧ illegal (.vfrmin c d x pr ty) 5 ∧ illegal (.vfrmax c d x pr ty) 6) ∧
      ((ty = .f16 ∨ ty = .bf16) →
        gives (.vfradd c d x pr ty) (fun v =>
          let e := fun (i : Nat) => if (K.rp pr).getLsbD i then ((K.rv x).toList.getD i 0).toNat else 32768
          let r1 := fun (i : Nat) => add (e i) (e (i + 16))
          let r2 := fun (i : Nat) => add (r1 i) (r1 (i + 8))
          let r3 := fun (i : Nat) => add (r2 i) (r2 (i + 4))
          let r4 := fun (i : Nat) => add (r3 i) (r3 (i + 2))
          v = BitVec.ofNat 16 (if on = [] then 0 else add (r4 0) (r4 1))) ∧
        gives (.vfrmin c d x pr ty) (fun v => (on = [] → v = BitVec.ofNat 16 inf) ∧
          (on ≠ [] → (∀ j ∈ on, fval j % 32768 ≤ inf) → (∃ i ∈ on, v = (K.rv x).get i) ∧ ∀ j ∈ on, ¬ (f.decode (fval j)).lt (f.decode v.toNat)) ∧
          ((∃ i ∈ on, inf < fval i % 32768) → v = BitVec.ofNat 16 f.nan)) ∧
        gives (.vfrmax c d x pr ty) (fun v => (on = [] → v = BitVec.ofNat 16 (32768 + inf)) ∧
          (on ≠ [] → (∀ j ∈ on, fval j % 32768 ≤ inf) → (∃ i ∈ on, v = (K.rv x).get i) ∧ ∀ j ∈ on, ¬ (f.decode v.toNat).lt (f.decode (fval j))) ∧
          ((∃ i ∈ on, inf < fval i % 32768) → v = BitVec.ofNat 16 f.nan)) ∧
        illegal (.vradd c d x pr ty) 0 ∧ illegal (.vrmin c d x pr ty) 1 ∧ illegal (.vrmax c d x pr ty) 2) ∧
      (let conv := cvtElem src ty sat
       let at' := fun (m : Nat) => ((K.rv x).toList.getD m 0).toNat
       let base := if h then 16 else 0
       let vcvt := Instr.vcvt c d x ty src h sat
       let sets := fun (g : Fin 32 → Word) => s.changes c vcvt (fun k => k.setV d (Vector.ofFn g))
       let stops := s.holds c vcvt → exec vcvt s = .next (s.traps c (s.fetched c) 1
         (encX 0x2D d.val x.val 0 0 (tyCode src + (if h then 16 else 0) + if sat then 32 else 0) (tyCode ty)))
       ((src, ty) ∈ [(.f16, .bf16), (.bf16, .f16), (.i16, .f16), (.i16, .bf16), (.f16, .i16), (.bf16, .i16)] →
         (h = false → sets (fun i => BitVec.ofNat 16 (conv (at' i.val)))) ∧ (h = true → stops)) ∧
       ((src, ty) ∈ [(.i8, .i16), (.u8, .i16), (.i8, .f16), (.i8, .bf16), (.u8, .f16), (.u8, .bf16), (.e4m3, .f16), (.e4m3, .bf16),
           (.e5m2, .f16), (.e5m2, .bf16)] →
         sets (fun i => BitVec.ofNat 16 (conv (at' (base + i.val / 2) / 256 ^ (i.val % 2) % 256)))) ∧
       ((src, ty) ∈ [(.f16, .e4m3), (.f16, .e5m2), (.bf16, .e4m3), (.bf16, .e5m2), (.i16, .i8), (.u16, .u8)] →
         sets (fun i => if base ≤ i.val ∧ i.val < base + 16 then
           BitVec.ofNat 16 (conv (at' (2 * (i.val - base))) % 256 + 256 * (conv (at' (2 * (i.val - base) + 1)) % 256)) else (K.rv d).get i)) ∧
       (cvtShape src ty = .none → stops))) ∧
  (
    ∀ (s : State) (crew : Fin 96) (n : Fin 8) (d x y : Fin 4) (w : Fin 16) (a : Fin 8), let c : CoreId := .seat crew n
      s.able c [w] [a] [] →
      let K := (s.fetched c).core c
      let read := fun (r : Fin 4) (i : Nat) => decide (i < 32) && (decide (r = 0) || (K.p.get r).getLsbD i)
      let put := fun (i : Instr) (f : Nat → Bool) => ∃ bits : BitVec 32, (∀ j, j < 32 → bits.getLsbD j = f j) ∧
        s.changes c i (fun k => if d = 0 then k else { k with p := k.p.set d bits })
      put (.pand c d x y) (fun i => read x i && read y i) ∧ put (.por c d x y) (fun i => read x i || read y i) ∧
      put (.pxor c d x y) (fun i => read x i != read y i) ∧ put (.pnot c d x) (fun i => !(read x i)) ∧
      put (.ptail c d w) (fun i => decide (i < (K.rw w).toNat)) ∧ put (.pmovp c d a) (fun i => (K.ra a).getLsbD i) ∧
      s.changes c (.pcnt c w x) (fun k => k.setW w (BitVec.ofNat 16 ((List.range 32).filter (read x)).length)) ∧
      (∃ bits : BitVec 32, (∀ j, j < 32 → bits.getLsbD j = read x j) ∧ s.changes c (.pmova c a x) (fun k => k.setA a bits)))

/-- R143, R144: vector loads and stores of words of the own seat memory, lane by lane under the predicate; the ACCESS of an
address that leads to no memory, with nothing read or written. -/
def Obligations.VectorLoadsAndStores : Prop :=
  ∀ (s : State) (crew : Fin 96) (n : Fin 8) (d : Fin 16) (b : Fin 8) (wb : Bool) (off : BitVec 12) (sr pr : Fin 4)
    (place : Fin 32 → Nat), let c : CoreId := .seat crew n
    s.able c [strideReg sr] [b] [d] →
    let F := s.fetched c
    let K := F.core c
    let ea := if wb then K.ra b else K.ra b + off.signExtend 32
    let step := BitVec.ofInt 32 (K.rw ⟨12 + sr.val, by omega⟩).toInt
    let based := fun (k : Machine.Core) => if wb then k.setA b (K.ra b + off.signExtend 32) else k
    let on := (List.finRange 32).filter (fun i => (K.rp pr).getLsbD i.val)
    let loads : List (Instr × (Fin 32 → Addr)) :=
      [(.vld c d b wb off pr, fun i => ea + BitVec.ofNat 32 i.val), (.vldB c d b wb off pr, fun _ => ea),
       (.vlds c d b wb off sr pr, fun i => ea + BitVec.ofNat 32 i.val * step)]
    let stores : List (Instr × (Fin 32 → Addr)) :=
      [(.vst c d b wb off pr, fun i => ea + BitVec.ofNat 32 i.val), (.vsts c d b wb off sr pr, fun i => ea + BitVec.ofNat 32 i.val * step)]
    let fails := fun (write : Bool) (a : Addr) => ∀ w, F.access c a.toNat write ≠ .mem w
    let goes := fun (i : Instr) (u : State) => s.holds c i → exec i s = .next u
    K.misses = [] →
    (∀ i addr, (i, addr) ∈ loads →
      (F.behindTile c false (on.map addr) = true → goes i s) ∧
      (F.behindTile c false (on.map addr) = false →
        ((∀ l ∈ on, F.access c (addr l).toNat false = .mem (place l) ∧ cacheable c (place l) = false ∧ F.sound (place l) false) →
          goes i (s.ran c (F.setCore c (based (K.setV d (Vector.ofFn (fun l : Fin 32 =>
            if (K.rp pr).getLsbD l.val then F.word (place l) else (K.rv d).get l))))))) ∧
        (∀ l ∈ on, fails false (addr l) → (∀ m ∈ on, fails false (addr m) → (addr l).toNat ≤ (addr m).toNat) →
          goes i (s.traps c F 3 (addr l))))) ∧
    (∀ i addr, (i, addr) ∈ stores →
      (F.behindTile c true (on.map addr) = true → goes i s) ∧
      (F.behindTile c true (on.map addr) = false →
        ((∀ l ∈ on, F.access c (addr l).toNat true = .mem (place l) ∧ cacheable c (place l) = false) →
          goes i (s.ran c ((F.writeWords (on.map (fun l => (place l, (K.rv d).get l)))).setCore c (based K)))) ∧
        (∀ l ∈ on, fails true (addr l) → (∀ m ∈ on, fails true (addr m) → (addr l).toNat ≤ (addr m).toNat) →
          goes i (s.traps c F 3 (addr l)))))

/-- R133, R139, R142, R144, R148, R149: what the tile and accumulator instructions put at the end of the tile path or of the matrix
queue; a full queue stalls; ALIGN, ACCESS and ILLEGAL at issue. -/
def Obligations.TileAndMatrixIssue : Prop :=
  ∀ (s : State) (crew : Fin 96) (n : Fin 8) (t a b' : Fin 8) (z : Fin 4) (b : Fin 8) (wb : Bool) (stride : TileStride) (v r : Fin 16)
    (fresh ra rb int sat h : Bool) (bfmt : Fin 4) (ty : ElemTy), let c : CoreId := .seat crew n
    s.able c (match stride with | .reg q _ => [tileStrideReg q] | .imm _ => []) [b] [v] →
    let F := s.fetched c
    let K := F.core c
    let ea := match stride with | .reg _ off => (if wb then K.ra b else K.ra b + off.signExtend 32) | .imm _ => K.ra b
    let st : Addr := match stride with | .reg q _ => BitVec.ofNat 32 (K.rw (tileStrideReg q)).toNat | .imm m => BitVec.ofNat 32 m.toNat
    let based := fun (k : Machine.Core) => if wb then
      k.setA b (K.ra b + match stride with | .reg _ off => off.signExtend 32 | .imm m => BitVec.ofNat 32 (16 * m.toNat)) else k
    let queued := fun (o : TileOp) => ({ K with tileQ := K.tileQ ++ [(K.seq, o)], seq := K.seq + 1 } : Machine.Core)
    let ops : List (Instr × Nat × Bool × TileOp) :=
      [(.tld c t b wb stride, 16, false, .tld t ea st), (.tst c (.tile t b wb stride), 16, true, .tst t ea st),
       (.zld c z b wb stride, 32, false, .zld z ea st), (.zst c z b wb stride, 32, true, .zst z ea st)]
    let fails := fun (write : Bool) (m : Addr) => ∀ w, F.access c m.toNat write ≠ .mem w
    let word := fun (row col : Nat) => ea + BitVec.ofNat 32 row * st + BitVec.ofNat 32 col
    let goes := fun (i : Instr) (u : State) => s.holds c i → exec i s = .next u
    let other := fun (i : Instr) (o : TileOp) =>
      (K.tileQ.length < 4 → goes i (s.ran c (F.setCore c (queued o)))) ∧ (4 ≤ K.tileQ.length → goes i s)
    let matrix := fun (i : Instr) (o : MatOp) =>
      (K.matQ.length < 4 →
        goes i (s.ran c (F.setCore c ({ K with matQ := K.matQ ++ [(K.seq, o)], seq := K.seq + 1 } : Machine.Core)))) ∧
      (5 ≤ K.matQ.length → goes i s)
    let illegal := fun (i : Instr) (w : BitVec 32) => goes i (s.traps c F 1 w)
    (∀ i row write o, (i, row, write, o) ∈ ops →
      (4 ≤ K.tileQ.length → goes i s) ∧
      (K.tileQ.length < 4 → (row = 16 ∨ (ea.getLsbD 0 = false ∧ st.getLsbD 0 = false)) →
        ((∀ x y, x < 16 → y < row → ¬ fails write (word x y)) → goes i (s.ran c (F.setCore c (based (queued o))))) ∧
        (∀ x y, x < 16 → y < row → fails write (word x y) →
          (∀ x' y', x' < 16 → y' < row → fails write (word x' y') → (word x y).toNat ≤ (word x' y').toNat) →
          goes i (s.traps c F 3 (word x y)))) ∧
      (K.tileQ.length < 4 → row = 32 → ea.getLsbD 0 = true → goes i (s.traps c F 5 ea)) ∧
      (K.tileQ.length < 4 → row = 32 → ea.getLsbD 0 = false → st.getLsbD 0 = true → goes i (s.traps c F 5 (ea + st)))) ∧
    other (.tzero c t) (.tzero t) ∧ other (.ttr c t a) (.ttr t a) ∧
    (r.val % 2 = 0 → other (.tmovr c t v r) (.tmovr t (K.rv v) r) ∧ other (.vmovt c v t r) (.vmovt v t r)) ∧
    (r.val % 2 = 1 → illegal (.tmovr c t v r) (encX 0x32 t.val v.val r.val 0 2 0) ∧
      illegal (.vmovt c v t r) (encX 0x32 v.val t.val r.val 0 3 0)) ∧
    matrix (.zzero c z) (.zzero z) ∧ matrix (.zmovr c v z r) (.zmovr v z r) ∧
    (let mma := Instr.mma c z a b' fresh bfmt ra rb ty
     let w := encX 0x30 z.val a.val b'.val ((if ra then 1 else 0) + if rb then 2 else 0) ((if fresh then 1 else 0) + 2 * bfmt.val) (tyCode ty)
     (ty ≠ .u16 → bfmt = 0 → matrix mma (.mma z a b' fresh ty ra rb ty)) ∧
     ((ty = .e4m3 ∨ ty = .e5m2) → bfmt = 1 → matrix mma (.mma z a b' fresh .e4m3 ra rb ty)) ∧
     ((ty = .e4m3 ∨ ty = .e5m2) → bfmt = 2 → matrix mma (.mma z a b' fresh .e5m2 ra rb ty)) ∧
     ((ty = .u16 ∨ bfmt = 3 ∨ (bfmt ≠ 0 ∧ ty ≠ .e4m3 ∧ ty ≠ .e5m2)) → illegal mma w)) ∧
    (let zcvt := Instr.zcvt c t z r int sat h ty
     let w := encX 0x31 t.val z.val r.val 0 (16 + (if int then 1 else 0) + (if sat then 2 else 0) + if h then 4 else 0) (tyCode ty)
     let legal := (int = true ∧ ty ∈ [.i16, .u16, .i8, .u8] ∨ int = false ∧ ty ∈ [.f16, .bf16, .e4m3, .e5m2] ∧ r = 0) ∧
       (h = true → ty ∉ [.i16, .u16, .f16, .bf16])
     (legal → matrix zcvt (.zcvt t z r int sat h ty)) ∧ (¬ legal → illegal zcvt w))

/-- R137, R139, R149, R150: the operation at the head of the tile path moves a tile or an accumulator between registers and words
of the own seat memory, or rearranges registers; a write to a tile invalidates the latches tagged with it. -/
def Obligations.TilePathTransfers : Prop :=
  ∀ (s : State) (crew : Fin 96) (n : Fin 8) (m : Nat) (o : TileOp) (rest : List (Nat × TileOp)) (place : Nat → Nat → Nat),
    let c : CoreId := .seat crew n
    let k := s.core c
    s.crewUp crew.val = true → k.tileQ = (m, o) :: rest → k.tileReady = true → k.misses = [] → k.wait ≠ some .csync →
    let k' : Machine.Core := { k with tileQ := rest }
    let q := s.dropReads c .tile
    let drop := fun (t : Fin 8) (l : Latch) => match l with | some (g, x) => if g = t then none else some (g, x) | none => none
    let tile := fun (t : Fin 8) (f : Fin 16 → Fin 16 → Word) => exec (.tilePathTransfer c) s = .next (q.setCore c
      { k' with t := k.t.set t (Vector.ofFn (fun i => Vector.ofFn (f i))), latchA := drop t k.latchA, latchB := drop t k.latchB })
    let own := fun (ea st : Addr) (row : Nat) (write : Bool) => ∀ x y, x < 16 → y < row →
      s.access c (ea + BitVec.ofNat 32 x * st + BitVec.ofNat 32 y).toNat write = .mem (place x y) ∧ cacheable c (place x y) = false ∧
      (write = false → s.sound (place x y) false)
    let word := fun (t : Fin 8) (x y : Nat) => ((k.t.get t).toList.getD x (Vector.replicate 16 0)).toList.getD y 0
    let elem := fun (z : Fin 4) (x y : Nat) => ((k.z.get z).toList.getD x (Vector.replicate 16 0)).toList.getD y 0
    ((∃ r ea st, o = .tst r ea st) ∨ (∃ r ea st, o = .zst r ea st) → s.coreClogged c = true → exec (.tilePathTransfer c) s = .next s) ∧
    (∀ t, o = .tzero t → tile t (fun _ _ => 0)) ∧
    (∀ t x, o = .ttr t x → tile t (fun i j => word x j.val i.val)) ∧
    (∀ t (v : VReg) r, o = .tmovr t v r → r.val % 2 = 0 → tile t (fun i j =>
      if i.val = r.val then v.toList.getD j.val 0 else if i.val = r.val + 1 then v.toList.getD (16 + j.val) 0 else word t i.val j.val)) ∧
    (∀ d t r, o = .vmovt d t r → r.val % 2 = 0 → exec (.tilePathTransfer c) s = .next (q.setCore c (k'.setV d
      (Vector.ofFn (fun i => word t (r.val + i.val / 16) (i.val % 16)))))) ∧
    (∀ t ea st, o = .tld t ea st → own ea st 16 false → tile t (fun i j => s.word (place i.val j.val))) ∧
    (∀ z ea st, o = .zld z ea st → own ea st 32 false → exec (.tilePathTransfer c) s = .next (q.setCore c
      { k' with z := k.z.set z (Vector.ofFn (fun i => Vector.ofFn (fun j =>
        s.word (place i.val (2 * j.val + 1)) ++ s.word (place i.val (2 * j.val))))) })) ∧
    (∀ t ea st, o = .tst t ea st → own ea st 16 true → s.coreClogged c = false → exec (.tilePathTransfer c) s = .next ((q.setCore c k').writeWords
      ((List.range 16).flatMap (fun x => (List.range 16).map (fun y => (place x y, word t x y)))))) ∧
    (∀ z ea st, o = .zst z ea st → own ea st 32 true → s.coreClogged c = false → exec (.tilePathTransfer c) s = .next ((q.setCore c k').writeWords
      ((List.range 16).flatMap (fun x => (List.range 32).map (fun y =>
        (place x y, (BitVec.ofNat 16 ((elem z x (y / 2)).toNat / 65536 ^ (y % 2)) : Word)))))))

/-- R138, R148–R150, R152, R154, R156: the operation at the head of the matrix queue: products of tiles added to an accumulator, in
order over k, with the latches its hints use; clearing, converting and moving an accumulator. -/
def Obligations.MatrixQueueOperations : Prop :=
  ∀ (s : State) (crew : Fin 96) (n : Fin 8) (q : Nat) (o : MatOp) (rest : List (Nat × MatOp)), let c : CoreId := .seat crew n
    let k := s.core c
    s.crewUp crew.val = true → k.matQ = (q, o) :: rest → k.matReady = true →
    let k' : Machine.Core := { k with matQ := rest }
    let i := Instr.matrixQueueOperation c
    let word := fun (x : Tile) (r j : Nat) => (x.toList.getD r (Vector.replicate 16 0)).toList.getD j 0
    let elem := fun (z : Fin 4) (x y : Nat) => ((k.z.get z).toList.getD x (Vector.replicate 16 0)).toList.getD y 0
    let small := fun (ty : ElemTy) => decide (ty ∈ [.i8, .u8, .e4m3, .e5m2])
    let byte := fun (w : Word) (j : Nat) => w.toNat / 256 ^ j % 256
    let a := fun (ty : ElemTy) (x : Tile) (m p : Nat) => if small ty then byte (word x m (p / 2)) (p % 2) else (word x m p).toNat
    let b := fun (ty : ElemTy) (x : Tile) (p j : Nat) => if small ty then byte (word x (p / 2) j) (p % 2) else (word x p j).toNat
    let int := fun (ty : ElemTy) (v : Nat) => if ty = .i16 ∧ 32768 ≤ v then (v : Int) - 65536 else if ty = .i8 ∧ 128 ≤ v then (v : Int) - 256 else v
    let flush := fun (v : Nat) => if v / 2 ^ 23 % 256 = 0 then v / 2 ^ 31 * 2 ^ 31 else v
    let taken := fun (hint : Bool) (l : Latch) (t : Fin 8) => match l with
      | some (g, y) => if hint = true ∧ g = t then y else k.t.get t
      | none => k.t.get t
    let left := fun (hint : Bool) (l : Latch) (t : Fin 8) (x : Tile) => if hint then some (t, x) else l
    (∀ d ta tb fresh bty ra rb ty, o = .mma d ta tb fresh bty ra rb ty → (ty ∈ [.i16, .i8, .u8] → bty = ty) →
      let A := taken ra k.latchA ta
      let B := taken rb k.latchB tb
      let K := if small ty then 32 else 16
      let acc := fun (m j : Nat) => if fresh then 0 else elem d m j
      small bty = small ty → exec i s = .next (s.setCore c { k' with
        latchA := left ra k.latchA ta A, latchB := left rb k.latchB tb B
        z := k.z.set d (Vector.ofFn (fun m => Vector.ofFn (fun j =>
          if ty ∈ [.i16, .u16, .i8, .u8] then
            BitVec.ofInt 32 ((acc m.val j.val).toInt + ((List.range K).map (fun p => int ty (a ty A m.val p) * int bty (b bty B p j.val))).sum)
          else
            BitVec.ofNat 32 ((List.range K).foldl (fun t p => flush (fmtF32.encode false ((fmtF32.decode t).add
              (((tyFmt ty).decode (a ty A m.val p)).mul ((tyFmt bty).decode (b bty B p j.val)))))) (flush (acc m.val j.val).toNat))))) })) ∧
    (∀ d, o = .zzero d → exec i s = .next (s.setCore c { k' with z := k.z.set d (Vector.ofFn (fun _ => Vector.ofFn (fun _ => 0))) })) ∧
    (∀ d z r, o = .zmovr d z r → exec i s = .next (s.setCore c (k'.setV d (Vector.ofFn (fun j =>
      BitVec.ofNat 16 ((elem z r.val (j.val / 2)).toNat / 65536 ^ (j.val % 2))))))) ∧
    (∀ (t : Fin 8) (z : Fin 4) (sh : Fin 16) (fromInt sat h : Bool) (ty : ElemTy), o = .zcvt t z sh fromInt sat h ty → ∃ x : Tile, exec i s = .next (s.setCore c (k'.setT t x)) ∧
      (let base := if h then 8 else 0
       let code := fun (m j : Nat) => if small ty then byte (word x m (base + j / 2)) (j % 2) else (word x m j).toNat
       (∀ m j, m < 16 → j < 16 →
         (fromInt = false → ty ∈ [.f16, .bf16, .e4m3, .e5m2] →
           code m j = (tyFmt ty).encode (sat && small ty) (fmtF32.decode (flush (elem z m j).toNat))) ∧
         (fromInt = true → ty ∈ [.i16, .u16, .i8, .u8] → ∃ v : Int,
           2 * ((elem z m j).toInt - v * 2 ^ sh.val).natAbs ≤ 2 ^ sh.val ∧
           (2 * ((elem z m j).toInt - v * 2 ^ sh.val).natAbs = 2 ^ sh.val → v % 2 = 0) ∧
           int ty (code m j) = max (tyRange ty).1 (min (tyRange ty).2 v))) ∧
       (small ty = true → ∀ m j, m < 16 → j < 16 → ¬ (base ≤ j ∧ j < base + 8) → word x m j = word (k.t.get t) m j)))

/-- R99: the cores of the boathouse and the cox implement no vector or matrix instruction: it raises ILLEGAL, EVAL its word. -/
def Obligations.OnlySeatsHaveVectorsAndTiles : Prop :=
  ∀ (s : State) (c : CoreId) (d x y : Fin 16) (pr pd z : Fin 4) (ty : ElemTy) (b t a : Fin 8) (wb : Bool) (off : BitVec 12)
    (stride : TileStride) (h sat : Bool), isSeat c = false →
    s.able c (match stride with | .reg q _ => [tileStrideReg q] | .imm _ => []) [b] [d, x, y] →
    let illegal := fun (i : Instr) (w : BitVec 32) => s.holds c i → exec i s = .next (s.traps c (s.fetched c) 1 w)
    illegal (.vadd c d x y pr ty) (encX 0x28 d.val x.val y.val pr.val 0 (tyCode ty)) ∧
    illegal (.vfma c d x y pr ty) (encX 0x29 d.val x.val y.val pr.val 3 (tyCode ty)) ∧
    illegal (.vcmp c pd x y 0 pr ty) (encX 0x2A pd.val x.val y.val pr.val 0 (tyCode ty)) ∧
    illegal (.vperm c d x y pr) (encX 0x2B d.val x.val y.val pr.val 3 0) ∧
    illegal (.vcvt c d x ty .i16 h sat) (encX 0x2D d.val x.val 0 0 ((if h then 16 else 0) + if sat then 32 else 0) (tyCode ty)) ∧
    illegal (.pand c pd pr z) (encX 0x2E pd.val pr.val z.val 0 0 0) ∧
    illegal (.vld c d b wb off pr) (encM 0x1C d.val b.val wb (pr.val * 4) off) ∧
    illegal (.vst c d b wb off pr) (encM 0x1C d.val b.val wb (16 + pr.val * 4) off) ∧
    illegal (.mma c z t a h 0 sat wb ty) (encX 0x30 z.val t.val a.val ((if sat then 1 else 0) + if wb then 2 else 0) (if h then 1 else 0) (tyCode ty)) ∧
    illegal (.zzero c z) (encX 0x31 z.val 0 0 0 0 0) ∧ illegal (.tzero c t) (encX 0x32 t.val 0 0 0 0 0) ∧
    (∀ w, w = tileFields 0 stride → illegal (.tld c t b wb stride) (encM 0x1D t.val b.val wb w.1 w.2))

/-! ## Crew caches and memory (spec/06) -/

/-- R193, R194, R195: INVALL and INVRANGE mark the lines they will drop and set BUSY, or set IGNORED while BUSY; the end of a
command drops the marked lines and sets DONE; turning the crew cache off drops every line at once, and its storage range is zero
when that ends; turning it on starts empty. That the range is zeroed in one step is the model's reading (log entry 23). -/
def Obligations.CrewCacheCommands : Prop :=
  ∀ (s : State) (crew : Fin 96), s.crewUp crew.val = true →
    let c := crew.val
    let cc := s.cache c
    let ctrl := s.reg (R.COX_CC_CTRL c)
    let stat := s.reg (R.COX_CC_STAT c)
    let base := (s.reg32 (R.COX_CC_RBASE_LO c)).toNat
    let stop := base + (s.reg32 (R.COX_CC_RLEN_LO c)).toNat
    let put := fun (t : State) (k : CrewCache) => { t with cc := mapSet (fun _ => ⟨[], none⟩) t.cc c k }
    let ignored := fun (i : Instr) => exec i s = .next (s.setReg (R.COX_CC_STAT c) (stat ||| 8))
    let starts := fun (i : Instr) (drops : CcLine → Bool) => exec i s = .next
      ((put s ⟨cc.sets.map (fun e => (e.1, e.2.map (fun l => { l with marked := drops l }))), some (.invalidate (s.crewCycles c))⟩).setReg
        (R.COX_CC_STAT c) (stat ||| 1))
    let done := fun (t : State) => t.setReg (R.COX_CC_STAT c) ((stat &&& 0xFFFE) ||| 2)
    (stat.getLsbD 0 = true → ignored (.invall crew) ∧ ignored (.invrange crew) ∧
      (ctrl.getLsbD 0 = true → ignored (.ccDisable crew)) ∧ (ctrl.getLsbD 0 = false → ignored (.ccEnable crew))) ∧
    (stat.getLsbD 0 = false → starts (.invall crew) (fun _ => true) ∧
      starts (.invrange crew) (fun l => decide (max base (32 * l.block) < min stop (32 * l.block + 32)))) ∧
    (∀ since, cc.busy = some (.invalidate since) → exec (.ccCommandDone crew) s = .next (done (put s
      ⟨(cc.sets.map (fun e => (e.1, e.2.filter (fun l => !l.marked)))).filter (fun e => e.2 != []), none⟩))) ∧
    (cc.busy = some .disable → ∃ t, exec (.ccDisableDone crew) s = .next t ∧
      (∀ w, storeBase c + 0x7C0000 ≤ w ∧ w < storeBase c + 0x800000 → t.word w = 0) ∧
      (∀ w, ¬ (storeBase c + 0x7C0000 ≤ w ∧ w < storeBase c + 0x800000) → t.word w = s.word w) ∧
      { t with mem := s.mem, eccOne := s.eccOne, eccTwo := s.eccTwo } = done (put s ⟨cc.sets, none⟩)) ∧
    (stat.getLsbD 0 = false → ctrl.getLsbD 0 = true → exec (.ccDisable crew) s = .next
      ((put (s.setReg (R.COX_CC_CTRL c) (ctrl &&& 2)) ⟨[], some .disable⟩).setReg (R.COX_CC_STAT c) (stat ||| 1))) ∧
    (stat.getLsbD 0 = false → ctrl.getLsbD 0 = false → exec (.ccEnable crew) s = .next
      (((put (s.setReg (R.COX_CC_CTRL c) ((ctrl &&& 2) ||| 1)) ⟨[], none⟩).setReg (R.COX_CC_STAT c)) (stat ||| 2)))

/-- R168, R170, R175, R198: a corrected word is written back; an access to a crew store takes its place at the bank that holds the
word, oldest first and then in the order of the requesters; a bank grants its oldest request, with a read every read of the same
block, and counts the cycles the others wait; zeroing sets memories to zero and releases the crews that have both. That an
access takes effect as it issues and only waits at the bank is the model's choice (log entry 71). -/
def Obligations.MemoryEvents : Prop :=
  (∀ (s : State) (a : Addr), ∃ t, exec (.correctedWriteback a) s = .next t ∧ a.toNat ∉ t.eccOne ∧
    (∀ w, w ≠ a.toNat → (w ∈ t.eccOne ↔ w ∈ s.eccOne)) ∧ { t with eccOne := s.eccOne, banks := s.banks } = s ∧
    t.banks = if a.toNat ∈ s.eccOne then (s.bankUse 23 true [a.toNat]).banks else s.banks) ∧
  (∀ (s : State) (crew : Fin 96) (o rank : Nat) (write : Bool), o < 0x800000 →
    let key := crew.val * 16 + ((o / 32 % 16) ^^^ (o / 512 % 16))
    let queue := fun (t : State) => mapGet (fun _ => []) t.banks key
    queue (s.bankUse rank write [storeBase crew.val + o]) = insertReq ⟨s.crewCycles crew.val, rank, o / 512, write⟩ (queue s)) ∧
  (∀ (l : List BankReq) (r : BankReq),
    let before := fun (x y : BankReq) => x.age < y.age ∨ (x.age = y.age ∧ x.rank ≤ y.rank)
    l.Pairwise before → (insertReq r l).Pairwise before ∧ ∀ x, x ∈ insertReq r l ↔ x = r ∨ x ∈ l) ∧
  (∀ (s : State) (crew : Fin 96) (row col : Fin 4), s.crewUp crew.val = true →
    let c := crew.val
    let left := fun (t : State) => mapGet (fun _ => []) t.banks (c * 16 + (4 * row.val + col.val))
    let waited := fun (t : State) (n : Nat) => t.reg32 (R.COX_BANK_WAIT_LO c) = s.reg32 (R.COX_BANK_WAIT_LO c) + BitVec.ofNat 32 n
    (left s = [] → exec (.bankGrant crew row col) s = .next s) ∧
    (∀ r rest, left s = r :: rest → ∃ t, exec (.bankGrant crew row col) s = .next t ∧ t.mem = s.mem ∧ t.cores = s.cores ∧
      (r.write = true → left t = rest ∧ waited t rest.length) ∧
      (r.write = false → left t = rest.filter (fun x => !(decide (x.write = false ∧ x.block = r.block))) ∧ waited t (left t).length))) ∧
  (∀ (s : State) (crew : Fin 96), s.crewOn crew.val = true → s.seatsZeroed.getLsbD crew.val = false →
    let lo := 0x10000000 + crew.val * 0x100000
    ∃ t, exec (.memoryZeroingDone (.seatMemories crew)) s = .next t ∧ t.seatsZeroed.getLsbD crew.val = true ∧
      (∀ w, lo ≤ w ∧ w < lo + 0x100000 → t.word w = 0) ∧ (∀ w, ¬ (lo ≤ w ∧ w < lo + 0x100000) → t.word w = s.word w) ∧
      (t.inRst.getLsbD crew.val = (s.inRst.getLsbD crew.val && !(s.storeOn.getLsbD crew.val && s.storesZeroed.getLsbD crew.val)))) ∧
  (∀ (s : State), ∃ t, exec (.memoryZeroingDone .crewStores) s = .next t ∧ t.storesZeroed = s.storeOn ∧
    (∀ crew : Fin 96, s.storeOn.getLsbD crew.val = true → s.storesZeroed.getLsbD crew.val = false →
      ∀ w, 0x20000000 + crew.val * 0x800000 ≤ w ∧ w < 0x20800000 + crew.val * 0x800000 → t.word w = 0) ∧
    (∀ crew : Fin 96, s.storeOn.getLsbD crew.val = false ∨ s.storesZeroed.getLsbD crew.val = true →
      ∀ w, 0x20000000 + crew.val * 0x800000 ≤ w ∧ w < 0x20800000 + crew.val * 0x800000 → t.word w = s.word w))

/-! ## Control cores (spec/07) -/

/-- R181, R202, R204, R211, R221: a counter advances modulo 2³², every head record's gates looked at first; the scoreboard latches
the gates of a head record that hold; a handle changes by compare and swap with its result kept for the requester; doorbells.
That conditions are latched before each change is the model's reading (log entry 12). -/
def Obligations.CountersGatesAndHandles : Prop :=
  ∀ (s : State) (crew : Fin 96) (cnt : Fin 64) (amt : BitVec 8) (q : Fin 32) (who : Requester) (h : Fin 256) (expect new : Fin 4)
    (bits : Word), s.crewUp crew.val = true →
    let c := crew.val
    let seen := s.fld (R.HT_CTRL c h.val) 0 2
    let res := fun (t : State) => mapGet (fun _ => 0) t.hcasRes (c * 98 + requesterKey who)
    (s.crewKilled c = false → ∃ t, exec (.cntInc crew cnt amt) s = .next t ∧
      t.reg32 (R.COX_CNT_LO c cnt.val) = s.reg32 (R.COX_CNT_LO c cnt.val) + BitVec.ofNat 32 amt.toNat ∧
      (∀ a, a ≠ R.COX_CNT_LO c cnt.val → a ≠ R.COX_CNT_LO c cnt.val + 1 → t.reg a = s.reg a) ∧ t.mem = s.mem ∧ t.cores = s.cores) ∧
    (s.crewKilled c = true → exec (.cntInc crew cnt amt) s = .next s) ∧
    (s.headOf c q.val = none → exec (.gateEvaluation crew q) s = .next s) ∧
    (∀ b, s.headOf c q.val = some b → ∃ t, exec (.gateEvaluation crew q) s = .next t ∧ ∃ b', t.headOf c q.val = some b' ∧
      b'.words = b.words ∧
      (let gate := fun (n : Nat) => b.words.getD (10 + 3 * n) 0
       let value := fun (n : Nat) => b.words.getD (12 + 3 * n) 0 ++ b.words.getD (11 + 3 * n) 0
       let holds := fun (n : Nat) =>
         let kind := (gate n).toNat % 8
         decide (kind = 0) || (decide (kind = 1) &&
           !(s.reg32 (R.COX_CNT_LO c ((gate n).toNat / 8 % 64)) - value n).msb) ||
         (decide (kind = 2) && s.hState c ((gate n).toNat / 8 % 256) == (gate n).toNat / 2048 % 4)
       b'.g0 = (b.g0 || holds 0) ∧ b'.g1 = (b.g1 || holds 1) ∧ (b.ready = none → (b'.ready.isSome = true ↔ b'.g0 = true ∧ b'.g1 = true)) ∧
       (∀ n, b.ready = some n → b'.ready = some n))) ∧
    (s.crewScrub c = false → ∃ t, exec (.hcas who crew h expect new) s = .next t ∧
      t.fld (R.HT_CTRL c h.val) 0 2 = (if seen = expect.val then new.val else seen) ∧
      res t = BitVec.ofNat 16 (2 * seen + if seen = expect.val then 1 else 0) ∧
      (∀ a, a ≠ R.HT_CTRL c h.val → t.reg a = s.reg a) ∧ t.mem = s.mem) ∧
    (s.crewScrub c = true → ∃ t, exec (.hcas who crew h expect new) s = .next t ∧ res t = 0 ∧ t.regs = s.regs) ∧
    exec (.coxDbellSet crew bits) s = .next (s.setReg (R.COX_DBELL_STAT c) (s.reg (R.COX_DBELL_STAT c) ||| bits))

/-- R206, R207, R209, R217: enabling and disabling a queue, writes of TAIL and HEAD, RESTART, SKIP and FLUSH. -/
def Obligations.QueueCommands : Prop :=
  ∀ (s : State) (crew : Fin 96) (q : Fin 32) (v : Word), s.crewUp crew.val = true →
    let c := crew.val
    let ctrl := s.reg (R.COX_Q_CTRL c q.val)
    let size := min 10 (ctrl.toNat / 256 % 16)
    let newSize := min 10 (v.toNat / 256 % 16)
    let b := (s.reg32 (R.COX_Q_BASE_LO c q.val)).toNat
    let head := s.qHead c q.val
    let tail := s.qTail c q.val
    let count := (tail + 2048 - head) % 2048
    let state := fun (t : State) => t.fld (R.COX_Q_STAT c q.val) 0 2
    let err := fun (t : State) => t.fld (R.COX_Q_STAT c q.val) 2 4
    let gives := fun (i : Instr) (P : State → Prop) => ∃ t, exec i s = .next t ∧ P t ∧ t.mem = s.mem ∧ t.cores = s.cores
    (ctrl.getLsbD 0 = false → 0x100000 ≤ b → b + 16 * 2 ^ newSize ≤ 0x8C0000 → gives (.queueEnable crew q v) (fun t =>
      state t = 1 ∧ t.qHead c q.val = 0 ∧ t.qTail c q.val = 0 ∧ t.headOf c q.val = none ∧
      t.reg (R.COX_Q_CTRL c q.val) = (v ||| 1) &&& 0x0FFF)) ∧
    (ctrl.getLsbD 0 = false → b < 0x100000 → gives (.queueEnable crew q v) (fun t => state t = 2 ∧ err t = 8)) ∧
    (ctrl.getLsbD 0 = true → exec (.queueEnable crew q v) s =
      .next (s.setReg (R.COX_Q_CTRL c q.val) (((v ||| 1) &&& 0x00FD) ||| (ctrl &&& 0x0F02)))) ∧
    gives (.queueDisable crew q v) (fun t => state t = 0 ∧ (t.reg (R.COX_Q_CTRL c q.val)).getLsbD 0 = false ∧ t.headOf c q.val = none ∧
      t.qHead c q.val = head ∧ t.qTail c q.val = tail) ∧
    (ctrl.getLsbD 1 = true → exec (.tailWrite crew q v) s = .next s) ∧
    (ctrl.getLsbD 1 = false →
      ((v.toNat % 2048 + 2048 - head) % 2048 ≤ 2 ^ size → gives (.tailWrite crew q v) (fun t =>
        t.reg (R.COX_Q_TAIL c q.val) = BitVec.ofNat 16 (v.toNat % 2048) ∧ t.qHead c q.val = head ∧ state t = state s)) ∧
      (2 ^ size < (v.toNat % 2048 + 2048 - head) % 2048 → gives (.tailWrite crew q v) (fun t =>
        state t = 2 ∧ err t = 9 ∧ t.qTail c q.val = tail))) ∧
    (ctrl.getLsbD 1 = true → (v.toNat % 2048 + 2048 - head) % 2048 ≤ count →
      exec (.headWrite crew q v) s = .next (s.setReg (R.COX_Q_HEAD c q.val) (BitVec.ofNat 16 (v.toNat % 2048)))) ∧
    ((ctrl.getLsbD 1 = false ∨ count < (v.toNat % 2048 + 2048 - head) % 2048) → exec (.headWrite crew q v) s = .next s) ∧
    (state s ≠ 2 → exec (.restart crew q) s = .next s ∧ exec (.skip crew q) s = .next s) ∧
    (state s = 2 → ctrl.getLsbD 0 = true → err s ≠ 8 →
      gives (.restart crew q) (fun t => state t = 1 ∧ t.headOf c q.val = none ∧ t.qHead c q.val = head) ∧
      gives (.skip crew q) (fun t => state t = 1 ∧ t.headOf c q.val = none ∧
        t.qHead c q.val = if count = 0 then head else (head + 1) % 2048)) ∧
    gives (.flush crew q) (fun t => t.reg (R.COX_Q_HEAD c q.val) = s.reg (R.COX_Q_TAIL c q.val) ∧ t.headOf c q.val = none ∧ state t = state s)

/-- R210, R211, R217: a queue that runs and has a record reads its head record's words from its ring slot, checks them, and holds them in
its head buffer, or enters ERROR. R212, R214: a dispatch round starts a ready head record on the lowest idle seat it names, with the
registers a task starts with, and moves HEAD past it; with no record ready nothing happens. -/
def Obligations.HeadFetchAndDispatch : Prop :=
  (
    ∀ (s : State) (crew : Fin 96) (q : Fin 32), let c := crew.val
      let b := (s.reg32 (R.COX_Q_BASE_LO c q.val)).toNat
      let slot := storeBase c + (b - 0x100000) + 16 * (s.qHead c q.val % 2 ^ s.qSize c q.val)
      let ws := (List.range 16).map (fun n => s.word (slot + n))
      s.crewUp c = true → s.qState c q.val = 1 → s.qEvent c q.val = false → s.headOf c q.val = none → s.qCount c q.val ≠ 0 →
      0x100000 ≤ b → slot + 16 ≤ storeBase c + 0x7C0000 → (∀ n, n < 16 → s.sound (slot + n) false) →
      (∃ t, exec (.headFetch crew q) s = .next t ∧
        (s.recCheck c ws = 0 → ∃ h, t.headOf c q.val = some h ∧ h.words = ws ∧ h.index = s.qHead c q.val ∧ t.qState c q.val = 1 ∧
          t.qHead c q.val = s.qHead c q.val) ∧
        (s.recCheck c ws ≠ 0 → t.qState c q.val = 2 ∧ t.headOf c q.val = none)) ∧
      ((ws.getD 4 0).toNat / 16 ≠ 0 → s.recCheck c ws = 1) ∧
      ((∀ n, n ∈ [4, 5, 6, 7, 8, 10, 11, 12, 13, 14, 15] → ws.getD n 0 = 0) →
        s.recCheck c ws = if (ws.getD 0 0).getLsbD 0 then 2 else 3) ∧
      ((∀ n, n ∈ [4, 6, 7, 8, 10, 11, 12, 13, 14, 15] → ws.getD n 0 = 0) → (ws.getD 0 0).getLsbD 0 = false →
        0 < (ws.getD 5 0).toNat → (ws.getD 5 0).toNat < 256 → s.recCheck c ws = 0)) ∧
  (
    ∀ (s : State) (crew : Fin 96) (q : Fin 32) (n : Fin 8) (h : HeadBuf), let c := crew.val
      s.crewUp c = true → (s.reg (R.COX_CTRL c)).getLsbD 0 = true → s.noDispatch.getLsbD c = false →
      ((∀ p, p < 32 → s.headOf c p = none) → exec (.dispatchRound crew) s = .next s) ∧
      (s.headOf c q.val = some h → (∀ p, p < 32 → p ≠ q.val → s.headOf c p = none) → s.qEvent c q.val = false → s.qState c q.val = 1 →
        h.ready.isSome = true → s.qRunning c q.val < s.fld (R.COX_Q_CTRL c q.val) 5 3 + 1 →
        (∀ m : Fin 8, m < n → (h.words.getD 5 0).getLsbD m.val = false ∨ (s.core (.seat crew m)).mode ≠ .idle) →
        (h.words.getD 5 0).getLsbD n.val = true → (s.core (.seat crew n)).mode = .idle →
        ∃ t, exec (.dispatchRound crew) s = .next t ∧
          (let k := t.core (.seat crew n)
           k.mode = .running ∧ k.task = some ⟨q.val, h.words, h.slot, h.stroke, h.late⟩ ∧ k.pc = h.words.getD 1 0 ++ h.words.getD 0 0 ∧
           k.ra 0 = h.words.getD 3 0 ++ h.words.getD 2 0 ∧ k.ra 1 = h.slot ∧ (∀ r : Fin 8, 1 < r.val → r.val < 7 → k.ra r = 0) ∧
           k.ra 7 = 0x00020000 ∧ k.rw 0 = BitVec.ofNat 16 q.val ∧ k.rw 1 = h.words.getD 9 0 ∧ (∀ r : Fin 16, 1 < r.val → k.rw r = 0) ∧
           k.cst = 0 ∧ k.latchA = none ∧ k.latchB = none ∧ k.v = (s.core (.seat crew n)).v ∧ k.t = (s.core (.seat crew n)).t ∧
           k.z = (s.core (.seat crew n)).z ∧ k.p = (s.core (.seat crew n)).p) ∧
          t.headOf c q.val = none ∧ t.qHead c q.val = (s.qHead c q.val + 1) % 2048 ∧
          t.reg32 (R.COX_DISPATCHED_LO c) = s.reg32 (R.COX_DISPATCHED_LO c) + 1 ∧
          (∀ c', c' ≠ .seat crew n → t.core c' = s.core c') ∧ t.mem = s.mem))

/-- R216, R270: the completion of a task frees its seat and carries out the actions of its record; an advance on the control network
arrives in its turn. The turn is that of the model's round-robin (log entry 73). -/
def Obligations.TaskCompletionActions : Prop :=
  (∀ (s : State) (crew : Fin 96) (n : Fin 8) (t : Task), let c := crew.val
    let k := s.core (.seat crew n)
    let w := fun (m : Nat) => t.words.getD m 0
    let cnt := (w 6).toNat % 64
    let h := (w 8).toNat % 256
    s.crewUp c = true → k.wait = some .tend → k.tileQ = [] → k.matQ = [] → k.task = some t → s.bit (R.COX_STROKE_STAT c) 9 = false →
    s.crewKilled c = false →
    ∃ u, exec (.taskCompletion crew n) s = .next u ∧
      (let k' := u.core (.seat crew n)
       k'.mode = (if k.stopReq = true ∧ k.halted = false then .stopped else .idle) ∧ k'.task = none ∧ k'.wait = none ∧ k'.w = k.w ∧ k'.v = k.v) ∧
      ((w 4).getLsbD 1 = false → (w 4).getLsbD 2 = false → (w 4).getLsbD 3 = false → u.regs = s.regs) ∧
      ((w 4).getLsbD 3 = true → s.hStateUse c c h = true → u.fld (R.HT_CTRL c h) 0 2 = (w 8).toNat / 256 % 4) ∧
      ((w 4).getLsbD 3 = true → s.hStateUse c c h = false →
        u.fld (R.COX_Q_STAT c t.queue) 0 2 = 2 ∧ u.fld (R.COX_Q_STAT c t.queue) 2 4 = 7) ∧
      ((w 4).getLsbD 3 = false → (w 4).getLsbD 2 = true → (w 6).getLsbD 13 = false →
        u.reg32 (R.COX_CNT_LO c cnt) = s.reg32 (R.COX_CNT_LO c cnt) + BitVec.ofNat 32 ((w 7).toNat % 256)) ∧
      ((w 4).getLsbD 3 = false → (w 4).getLsbD 2 = true → (w 6).getLsbD 13 = true → u.ctl = s.ctl ++
        [⟨.cox crew, .advance ⟨c, t.queue, (w 6).toNat / 64 % 128, cnt, (w 7).toNat % 256, (w 4).getLsbD 1⟩, 0, []⟩]) ∧
      ((w 4).getLsbD 3 = false → (w 4).getLsbD 2 = false → (w 4).getLsbD 1 = true → t.queue < 16 →
        (u.reg (R.COX_TDONE_LO c)).getLsbD t.queue = true) ∧
      u.mem = s.mem) ∧
  (∀ (s : State) (n i : Nat) (x : CtlTxn) (a : Advance),
    (s.ctl.zipIdx.filter (fun p => (CtlTxn.advance p.1).isSome))[n]? = some (x, i) → x.kind = .advance a →
    (s.ctlTurn i x = false → exec (.counterAdvanceArrival n) s = .next s) ∧
    (s.ctlTurn i x = true → s.crewUp a.target = true → s.laneOf a.target = s.laneOf a.crew → a.cnt < 64 → s.crewKilled a.target = false →
      ∃ u, exec (.counterAdvanceArrival n) s = .next u ∧ u.ctl = s.ctl.eraseIdx i ∧
        u.reg32 (R.COX_CNT_LO a.target a.cnt) = s.reg32 (R.COX_CNT_LO a.target a.cnt) + BitVec.ofNat 32 a.inc))

/-- R130, R218: the control core stops, resumes and aborts a seat. What an abort leaves queued on the seat is the model's choice
(log entry 22). -/
def Obligations.SeatCommands : Prop :=
  ∀ (s : State) (crew : Fin 96) (n : Fin 8), let c : CoreId := .seat crew n
    let k := s.core c
    let q := s.dropReads c .insn
    let aborted : Machine.Core :=
      { k with mode := .idle, task := none, wait := none, stopReq := false, stopping := none, halted := false, stepDue := false }
    let pc := k.epc &&& 0xFFFFFFFE
    s.crewUp crew.val = true →
    (k.mode = .running → exec (.coxSeatStop crew n) s = .next (s.setCore c { k with stopReq := true, halted := false })) ∧
    (k.mode = .idle → exec (.coxSeatStop crew n) s = .next (s.setCore c { k with mode := .stopped, halted := false })) ∧
    (k.mode = .stopped →
      (∀ t, k.task = some t → exec (.coxSeatResume crew n) s = .next (s.setCore c
        { k with mode := .running, pc := pc, halted := false, stepDue := false,
                 stopping := if k.stepDue = true then some ⟨9, false, pc, 0⟩ else none })) ∧
      (k.task = none → exec (.coxSeatResume crew n) s = .next (s.setCore c { k with mode := .idle, halted := false, stepDue := false }))) ∧
    (k.mode ≠ .stopped → exec (.coxSeatResume crew n) s = .next s) ∧
    ((k.mode = .running ∨ k.mode = .stopped ∧ k.task ≠ none) → (s.reg (R.COX_STROKE_STAT crew.val)).getLsbD 9 = false →
      exec (.coxSeatAbort crew n) s = .next ((q.setCore c aborted).setReg (R.COX_ABORTS crew.val)
        (BitVec.ofNat 16 (min 0xFFFF ((s.reg (R.COX_ABORTS crew.val)).toNat + 1))))) ∧
    (k.mode = .stopped → k.task = none → exec (.coxSeatAbort crew n) s = .next (q.setCore c aborted)) ∧
    ((k.mode = .idle ∨ k.mode = .reset) → exec (.coxSeatAbort crew n) s = .next s)

/-! ## DMA engines (spec/08) -/

/-- R226–R250: the commands of an engine, before which a signal that has come has its completion actions, and the end of an abort;
the fetch of a descriptor; a gate that opens; a burst of reads or writes of words of the own crew; a list entry; the answer to a
read; a request that meets no answer; and the actions that complete a descriptor. What coincides is ordered by the model (log
entry 32). -/
def Obligations.DmaEngines : Prop :=
  ∀ (s : State) (crew : Fin 96) (n : Fin 4), let c := crew.val
    let m := n.val
    let d := s.eng c m
    let ws := d.words
    let w := fun (i : Nat) => ws.getD i 0
    let state := fun (t : State) => t.fld (R.DMA_STAT c m) 0 3
    let cause := fun (t : State) => t.fld (R.DMA_STAT c m) 3 5
    let cur := fun (t : State) => (t.reg32 (R.DMA_CUR_LO c m)).toNat
    let gives := fun (i : Instr) (P : State → Prop) => ∃ t, exec i s = .next t ∧ P t
    let ignored := fun (i : Instr) => exec i s = .next (s.setReg (R.DMA_STAT c m) (s.reg (R.DMA_STAT c m) ||| 0x100))
    let writing := d.out.any DmaReq.isWrite
    let haltsAs := fun (t : State) (k : Nat) => state t = 5 ∧ cause t = k ∧ (t.reg (R.DMA_IRQ c m)).getLsbD 2 = true
    let len := if (w 2).toNat % 4 = 0 then (w 9 ++ w 8).toNat else 0
    let pending := (state s = 3 ∨ state s = 4) ∧ d.halting = none ∧ d.ready = true
    let counts := fun (t : State) => t.reg32 (R.DMA_NDESC_LO c m) = s.reg32 (R.DMA_NDESC_LO c m) + 1 ∧
      ((w 2).getLsbD 14 = true → t.reg32 (R.COX_CNT_LO c ((w 3).toNat % 64)) =
        s.reg32 (R.COX_CNT_LO c ((w 3).toNat % 64)) + BitVec.ofNat 32 ((w 3).toNat / 64 % 256)) ∧
      ((w 2).getLsbD 10 = true → (t.reg (R.DMA_IRQ c m)).getLsbD 1 = true) ∧ t.mem = s.mem
    s.crewUp c = true → s.crewKilled c = false →
    -- the commands
    (pending → (w 2).getLsbD 15 = false → gives (.dmaStop crew n) counts ∧ gives (.dmaAbort crew n) counts) ∧
    ((state s = 0 ∨ state s = 5) → gives (.dmaStart crew n) (fun t => state t = 1 ∧ cause t = 0 ∧
      cur t = (s.reg32 (R.DMA_HEAD_LO c m)).toNat / 16 * 16 ∧ t.reg32 (R.DMA_NDESC_LO c m) = 0 ∧ t.reg32 (R.DMA_WORDS_LO c m) = 0 ∧
      t.mem = s.mem ∧ t.cores = s.cores)) ∧
    (¬ (state s = 0 ∨ state s = 5) → ¬ pending → ignored (.dmaStart crew n)) ∧
    ((state s = 1 ∨ state s = 3 ∨ state s = 4) → ¬ pending → exec (.dmaStop crew n) s = .next (s.setEng c m { d with stop := true })) ∧
    (state s = 2 → writing = false → d.halting = none → gives (.dmaStop crew n) (fun t => haltsAs t 5 ∧ cur t = cur s)) ∧
    ((state s = 0 ∨ 5 ≤ state s) → ignored (.dmaStop crew n)) ∧
    (1 ≤ state s → state s ≤ 5 → ¬ pending → gives (.dmaAbort crew n) (fun t => state t = 6 ∧ (t.eng c m).out = d.out.filter DmaReq.isWrite ∧
      (t.eng c m).buf = [])) ∧
    ((state s = 0 ∨ 6 ≤ state s) → ignored (.dmaAbort crew n)) ∧
    (state s = 5 → gives (.dmaResume crew n) (fun t => state t = 1 ∧ cause t = 0 ∧ cur t = cur s)) ∧
    (state s ≠ 5 → ¬ pending → ignored (.dmaResume crew n)) ∧
    (state s = 6 → d.halting = none → writing = false → gives (.abortComplete crew n) (fun t => state t = 0 ∧
      t.reg (R.DMA_IRQ c m) = s.reg (R.DMA_IRQ c m) ||| 8)) ∧
    -- the fetch
    (∀ a : Nat, state s = 1 → d.halting = none → writing = false → cur s = a → 0x100000 ≤ a → a + 16 ≤ 0x8C0000 →
      (∀ i, i < 16 → s.sound (storeBase c + (a - 0x100000) + i) false) →
      let got := (List.range 16).map (fun i => s.word (storeBase c + (a - 0x100000) + i))
      gives (.descriptorFetch crew n) (fun t => (t.eng c m).words = got ∧ cur t = a ∧
        (descClean got = false → haltsAs t 6) ∧
        (got = ([0, 0, 0x0802, 0, 0, 0, 0, 0, 0, 0, 0, BitVec.ofNat 16 (s.laneOf c), 0, 0, 0, 0] : List Word) →
          state t = 3 ∧ (t.eng c m).ready = true) ∧
        (got = ([0, 0, 0x0802, 0, 0, 0, 0, 0, 0, 0, 0, BitVec.ofNat 16 ((s.laneOf c + 1) % 1024), 0, 0, 0, 0] : List Word) → haltsAs t 8) ∧
        t.mem = s.mem)) ∧
    (state s = 2 → d.halting = none → (w 12).toNat % 4 = 1 →
      ((s.reg32 (R.COX_CNT_LO c ((w 12).toNat / 4 % 64)) - (w 14 ++ w 13)).msb = false ∨ d.opened = true →
        gives (.dmaGateOpen crew n) (fun t => state t = 3 ∧ (t.eng c m).words = ws)) ∧
      ((s.reg32 (R.COX_CNT_LO c ((w 12).toNat / 4 % 64)) - (w 14 ++ w 13)).msb = true → d.opened = false →
        exec (.dmaGateOpen crew n) s = .next s)) ∧
    -- a burst: the only engine that asks for the path copies between incrementing addresses of its own crew
    (∀ place : Nat → Nat, (∀ j : Fin 4, j ≠ n → s.dmaAsks c j.val = false ∧ s.dmaAsksOut c j.val = false) →
      s.clogged 0 (.dma c m) = false → state s = 3 → d.halting = none → d.ready = false →
      d.last = false → (w 2).toNat % 256 = 0 → len ≤ 8192 → d.out = [] → d.src.pat = 0 → d.dst.pat = 0 → d.src.remote = none →
      d.dst.remote = none →
      (d.read = 0 → d.done = 0 → d.buf = [] → 0 < len →
        (∀ i, i < len → s.dmaWord c d.lane ((d.src.base + i) % 2 ^ 32) = .inl (place i) ∧ memCrew (place i) = c ∧ s.sound (place i) false ∧
          s.zeroing (place i) = false) →
        exec (.dmaBurstGrant crew) s = .next ((s.bankUse (17 + m) false ((List.range len).map place)).setEng c m
          { d with read := len, buf := (List.range len).map (fun i => s.word (place i)), since := s.time })) ∧
      (d.read = len → d.done = 0 → d.buf.length = len → 0 < len →
        (∀ i, i < len → s.dmaWord c d.lane ((d.dst.base + i) % 2 ^ 32) = .inl (place i) ∧ memCrew (place i) = c ∧ s.zeroing (place i) = false) →
        gives (.dmaBurstGrant crew) (fun t => t.mem = (s.writeWords ((List.range len).map (fun i => (place i, d.buf.getD i 0)))).mem ∧
          (t.eng c m).done = len ∧ t.reg32 (R.DMA_WORDS_LO c m) = s.reg32 (R.DMA_WORDS_LO c m) + BitVec.ofNat 32 len ∧
          t.reg32 (R.DMA_REMAIN_LO c m) = 0 ∧ (t.eng c m).ready = !((w 2).getLsbD 8) ∧ state t = if (w 2).getLsbD 8 then 4 else 3))) ∧
    -- a list entry
    (∀ (dst : Bool) (a l : Nat), let side := if dst then d.dst else d.src
      state s = 3 → d.halting = none → d.ready = false → d.last = false → (w 2).toNat % 4 = 0 → side.pat = 2 → side.left = 0 →
      (dst = false → d.wantsRead = true) → (dst = true → d.avail ≠ 0) → side.handle = none → side.next % 4 = 0 →
      s.ownRead c side.next 4 = (s, some [BitVec.ofNat 16 a, BitVec.ofNat 16 (a / 65536), BitVec.ofNat 16 l, BitVec.ofNat 16 (l / 65536)]) →
      a < 2 ^ 32 → 0 < l → l < 2 ^ 32 → (if dst then d.done else d.read) + l ≤ len →
      exec (.listEntryRead crew n dst) s = .next (s.setEng c m (if dst
        then { d with dst := { side with next := side.next + 4, cur := a, left := l } }
        else { d with src := { side with next := side.next + 4, cur := a, left := l } }))) ∧
    -- answers and timeouts
    (∀ (p : Packet) (rest : List Packet) (r : DmaReq), s.arrived c = p :: rest → p.req = .dma c m → p.kind = .readData →
      p.poison = false → d.out = [r] → r.tag % 256 = p.tag → r.remote = false → r.kind = .read → r.len = p.words.length → d.halting = none →
      d.last = false → d.src.pat = 0 → gives (.dmaResponse crew n) (fun t => (t.eng c m).buf = d.buf ++ p.words.map Prod.snd ∧
        (t.eng c m).out = [] ∧ (t.eng c m).read = d.read + p.words.length ∧ t.arrived c = rest)) ∧
    (∀ r : DmaReq, d.out = [r] → r.remote = false → 1 ≤ state s → state s ≤ 4 → d.halting = none →
      gives (.dmaTimeout crew n 0) (fun t => haltsAs t 3 ∧ cur t = cur s ∧ (t.eng c m).out = [] ∧ t.mem = s.mem)) ∧
    -- completion
    (pending → (w 2).getLsbD 15 = false →
      let next := (w 1 ++ w 0).toNat
      ((w 2).getLsbD 11 = true → d.out = [] → gives (.descriptorCompletion crew n) (fun t => counts t ∧ state t = 0)) ∧
      ((w 2).getLsbD 11 = false → d.chain < s.chainMax c m →
        (d.halt = false → d.stop = false → gives (.descriptorCompletion crew n) (fun t => counts t ∧ state t = 1 ∧ cur t = next)) ∧
        (d.halt = false → d.stop = true → writing = false →
          gives (.descriptorCompletion crew n) (fun t => counts t ∧ haltsAs t 5 ∧ cur t = next)) ∧
        (d.halt = true → writing = false → gives (.descriptorCompletion crew n) (fun t => counts t ∧ haltsAs t 4 ∧ cur t = next))) ∧
      ((w 2).getLsbD 11 = false → s.chainMax c m ≤ d.chain → writing = false →
        gives (.descriptorCompletion crew n) (fun t => counts t ∧ haltsAs t 1 ∧ cur t = next)))

/-! ## On-chip networks, registers and the host (spec/02, spec/09, spec/10, spec/17) -/

/-- R255, R256, R259, R264, R268–R271: a router grants the head of an input, what a flit error on the link does to it, and where it
leaves the mesh; a write or a read packet takes effect at its crew and is answered; an acknowledgement completes a core's write;
a register access of a core is served in its turn, a 32-bit peek read word by word, or fails. The hold of an output by channel
is the model's reading (log entry 72), the round-robin of the control network its choice (log entry 73). -/
def Obligations.MeshAndControlNetwork : Prop :=
  (∀ (s : State) (r : Fin 96) (out : Fin 7) (i : Nat) (p : Packet) (flaw : LinkFlaw), s.meshUp = true → i < 7 →
    s.meshIn r.val i p.vc = [p] → (∀ j v, (j, v) ≠ (i, p.vc) → s.meshIn r.val j v = []) →
    mapGet (fun _ => []) s.meshWait (meshKey r.val i p.vc) = [] → p.dst < 96 → s.crewMem p.dst = true → p.flits ≤ 8 →
    p.promoted = false → s.overAge p = false → s.holder r.val out.val p.vc = none →
    let sent := s.asArbitrated i p
    (p.kind = .read → r.val ≠ p.dst → routeOut r.val p =
      if r.val % 12 < p.dst % 12 then 1 else if p.dst % 12 < r.val % 12 then 3 else if r.val < p.dst then 2 else 0) ∧
    (routeOut r.val p = out.val → out.val < 4 →
      let e := linkEnd r.val out.val
      s.meshIn e.1 e.2 p.vc = [] → ∃ t, exec (.routerArbitration r ⟨out, flaw⟩) s = .next t ∧
        t.meshIn e.1 e.2 p.vc = [{ sent with poison := p.poison || flaw == .double }] ∧ t.meshIn r.val i p.vc = [] ∧
        t.reg32 (R.MESH_BUSY_LO r.val out.val) = s.reg32 (R.MESH_BUSY_LO r.val out.val) + BitVec.ofNat 32 p.flits ∧
        t.reg (R.MESH_ERR e.1) = s.reg (R.MESH_ERR e.1) ||| (match flaw with | .none => 0 | .single => 1 | .double => 2) ∧ t.mem = s.mem) ∧
    (routeOut r.val p = out.val → out.val = 4 → p.flits ≤ s.credit r.val 4 p → ∃ t, exec (.routerArbitration r ⟨out, flaw⟩) s = .next t ∧
      t.meshIn r.val i p.vc = [] ∧ t.arrived r.val = s.arrived r.val ++ [sent] ∧ t.mem = s.mem) ∧
    (∀ q port, routeOut r.val p = out.val → out.val = 5 → p.load = some q → p.poison = false → p.flits ≤ s.credit r.val 5 p →
      routerPort r.val = some port → s.portActive port = true → ∃ t, exec (.routerArbitration r ⟨out, flaw⟩) s = .next t ∧
        t.meshIn r.val i p.vc = [] ∧ (t.port port).queues.get q.pkt.channel = (s.port port).queues.get q.pkt.channel ++ [q] ∧ t.mem = s.mem)) ∧
  (∀ (s : State) (r : Fin 96) (p : Packet) (rest : List Packet), s.crewMem r.val = true → s.arrived r.val = p :: rest →
    (∀ w ∈ p.touches, s.zeroing w = false) →
    let leaving := fun (t : State) => t.meshIn r.val 0 1 ++ mapGet (fun _ => []) t.meshWait (meshKey r.val 0 1)
    let answered := fun (t : State) (kind : PktKind) (cause : PktCause) (words : List (Nat × Word)) => ∃ a : Packet,
      leaving t = leaving s ++ [a] ∧ a.kind = kind ∧ a.cause = cause ∧ a.words = words ∧ a.dst = p.src ∧
      a.req = p.req ∧ a.tag = p.tag ∧ a.prio = p.prio ∧ a.poison = false ∧ t.arrived r.val = rest
    (p.kind = .write → p.poison = false → (∀ w ∈ p.words, s.globalPlace w.1 = .mem w.1) →
      ∃ t, exec (.meshWrite r) s = .next t ∧ t.mem = (s.writeWords p.words).mem ∧ answered t .writeAck .none []) ∧
    (p.kind = .write → p.poison = true → ∃ t, exec (.meshWrite r) s = .next t ∧ t.mem = s.mem ∧ answered t .error .poisoned []) ∧
    (p.kind = .read → p.poison = false →
      (∀ i, i < p.len → s.globalPlace (p.addr + i) = .mem (p.addr + i) ∧ s.sound (p.addr + i) false) →
      ∃ t, exec (.meshRead r) s = .next t ∧ t.mem = s.mem ∧
        answered t .readData .none ((List.range p.len).map (fun i => (p.addr + i, s.word (p.addr + i))))) ∧
    (p.kind = .read → p.poison = false → p.accepted = false → 0 < p.len → s.globalPlace p.addr = .unmapped →
      ∃ t, exec (.meshRead r) s = .next t ∧ t.mem = s.mem ∧ answered t .error .unmapped []) ∧
    (∀ c, p.req = .core c → s.writesOf c = [(p.tag, true)] → (s.core c).wait ≠ some .csync →
      (p.kind = .writeAck → ∃ t, exec (.writeAcknowledge r) s = .next t ∧ t.writesOf c = [] ∧ t.arrived r.val = rest ∧ t.cores = s.cores ∧
        t.mem = s.mem) ∧
      (p.kind = .error → ∃ t, exec (.writeAcknowledge r) s = .next t ∧ t.writesOf c = [] ∧ t.arrived r.val = rest ∧
        (t.core c).errs = (s.core c).errs ++ [BitVec.ofNat 32 p.addr] ∧ t.mem = s.mem))) ∧
  (∀ (s u : State) (n i : Nat) (x : CtlTxn) (a : Addr) (wide : Bool) (write : Option (BitVec 32)) (dst : Option LoadDst) (v : BitVec 32),
    (s.ctl.zipIdx.filter (fun p => (CtlTxn.advance p.1).isNone))[n]? = some (x, i) → x.kind = .core a wide write dst →
    let c := requesterCore x.who
    (s.core c).wait ≠ some .csync →
    let s' := s.ctlLeave x i
    let peek := a.toNat < 0xF0000000
    let back := fun (t : State) (d : LoadDst) (v : BitVec 32) =>
      t.setCore c { t.core c with returned := (t.core c).returned ++ [⟨d, v⟩] }
    (s.ctlTurn i x = false → exec (.controlTransaction n) s = .next s ∧ exec (.controlTimeout n) s = .next s) ∧
    (s.ctlTurn i x = true → (∀ y ∈ s.ctl, y.at_ % 2 = 1 → y.who = x.who) →
      (∀ d, write = none → dst = some d → ¬ (wide = true ∧ peek) → s'.readAny x.who a.toNat wide = (u, some v) →
        exec (.controlTransaction n) s = .next (back u d v)) ∧
      (∀ d, write = none → dst = some d → wide = true → peek →
        (x.got = [] → exec (.controlTransaction n) s = .next (s.ctlKeep x i 1 [s.view x.who a.toNat])) ∧
        (∀ lo, x.got = [lo] → exec (.controlTransaction n) s = .next (back s' d (s.view x.who (a.toNat + 1) ++ lo)))) ∧
      (write = some v → s'.writeAny x.who a.toNat wide v = (u, true) → (u.core c).wait ≠ some .csync →
        exec (.controlTransaction n) s = .next u)) ∧
    (s.ctlTurn i x = true →
      (identityWord a.toNat = true → exec (.controlTimeout n) s = .next s) ∧
      (identityWord a.toNat = false →
        (write = some v → peek → exec (.controlTimeout n) s = .next s') ∧
        (write = some v → ¬ peek → dst = none → exec (.controlTimeout n) s =
          .next (s'.setCore c { s.core c with errs := (s.core c).errs ++ [a] })) ∧
        (∀ d, write = none → dst = some (.w d) → exec (.controlTimeout n) s = .next (s'.setCore c
          { s.core c with errs := (s.core c).errs ++ [a], busyW := (s.core c).busyW &&& ~~~ BitVec.ofNat 16 (2 ^ d.val) })))))

/-- R308, R319, R322, R323: writes of the device and system identifiers and of a routing entry, and the default routing table. -/
def Obligations.IdentifiersAndRoutingTable : Prop :=
  ∀ (s : State) (v : Word) (d : Fin 256), s.gwAny = true →
    let quiet := ∀ p, p < 32 → s.portState p = 0 ∨ s.portState p = 7 ∨ s.portState p = 8
    let own := s.fld R.GW_DEVID 0 8
    (quiet → exec (.devidWrite true v) s = .next (s.setReg R.GW_SYSID v) ∧
      exec (.devidWrite false v) s = .next (s.setReg R.GW_DEVID (v &&& 0x80FF))) ∧
    (¬ quiet → ∀ b, exec (.devidWrite b v) s = .next (s.setReg R.GW_FEVT (s.reg R.GW_FEVT ||| 2))) ∧
    exec (.routingEntryWrite d v) s = .next (s.setReg (0xF1400000 + 2 * d.val) (v &&& 0x1FFF)) ∧
    (∃ t, exec .routingTableBuild s = .next t ∧ t.mem = s.mem ∧ t.cores = s.cores ∧
      (∀ a, (∀ e, e < 256 → a ≠ 0xF1400000 + 2 * e) → t.reg a = s.reg a) ∧
      (let w := t.reg (0xF1400000 + 2 * d.val)
       let g := own / 16
       let m := own % 16
       let g2 := d.val / 16
       let m2 := d.val % 16
       let first := fun (p : Nat) => w.getLsbD 5 = true ∧ w.toNat % 32 = p
       (d.val = own → w = 0) ∧ (d.val ≠ own → g2 = g → first ((m2 + 15 - m) % 16)) ∧
       (g2 ≠ g → first (15 + (g2 + 15 - g) % 16)) ∧
       (g2 ≠ g → m2 ≠ m → w.getLsbD 11 = true ∧ w.toNat / 64 % 32 = (m2 + 15 - m) % 16)))

/-- R272–R287, R311: a catch group whose members have all arrived completes: its generation advances, arrivals are cleared, and a
core that waits for it goes on; enabling, disabling; setting, clearing and disabling calls. -/
def Obligations.CatchGroupsAndCalls : Prop :=
  (∀ (s : State) (g : Fin 64) (ctrl : Word), s.meshUp = true →
    let gen := fun (t : State) => t.fld (R.SYN_CGSTAT g.val) 0 8
    let old := s.reg (R.SYN_CGCTRL g.val)
    let arrived := ∀ c, c < 96 → s.cgMembers c g.val &&& ~~~ (s.reg (R.SYN_CGARR c g.val)) = 0
    let some_ := ∃ c, c < 96 ∧ s.cgMembers c g.val ≠ 0
    (old.getLsbD 0 = true → old.getLsbD 1 = false →
      (some_ → arrived → ∃ t, exec (.catchGroupCompletion g) s = .next t ∧ gen t = (gen s + 1) % 256 ∧ t.mem = s.mem ∧
        (s.cgEarly g.val = [] → (∀ c, (s.core c).wait ≠ some (.cga g.val)) → ∀ c, c < 96 → t.reg (R.SYN_CGARR c g.val) = 0) ∧
        (∀ c, (s.core c).wait = some (.cgw g.val) → (s.core c).cgw = [(g.val, 1)] → cstSs (s.core c).cst = false →
          (t.core c).wait = none ∧ (t.core c).cgw = [])) ∧
      (¬ (some_ ∧ arrived) → exec (.catchGroupCompletion g) s = .next s)) ∧
    (old.getLsbD 0 = true → exec (.catchGroupEnable g ctrl) s = .next s) ∧
    (old.getLsbD 0 = false → ∃ t, exec (.catchGroupEnable g ctrl) s = .next t ∧ t.reg (R.SYN_CGCTRL g.val) = (ctrl ||| 1) &&& 0x0FFF ∧
      gen t = (if ctrl.getLsbD 1 = true ∧ s.isMaster = true ∧ 2 ≤ s.stkState then gen s else 0) ∧
      (∀ c, c < 96 → t.reg (R.SYN_CGARR c g.val) = 0) ∧ t.cgEarly g.val = [] ∧ t.mem = s.mem) ∧
    (old.getLsbD 0 = false → exec (.catchGroupDisable g ctrl) s = .next (s.setReg (R.SYN_CGCTRL g.val) (ctrl &&& 0x0FFE))) ∧
    (old.getLsbD 0 = true → ∃ t, exec (.catchGroupDisable g ctrl) s = .next t ∧ t.reg (R.SYN_CGCTRL g.val) = old &&& 0xFFFE ∧
      t.mem = s.mem ∧
      ∀ crew n, (s.core (.seat crew n)).wait = some (.cgw g.val) →
        (t.core (.seat crew n)).stopping = some ⟨3, false, (s.core (.seat crew n)).pc, BitVec.ofNat 32 g.val⟩)) ∧
  (∀ (s : State) (n : Fin 256) (cfg : Word), s.meshUp = true →
    let k : Fin 16 := ⟨n.val / 16, by omega⟩
    let bit : Word := BitVec.ofNat 16 (2 ^ (n.val % 16))
    let old := s.reg (R.SYN_CALLCFG n.val)
    let val := fun (t : State) => t.reg (R.SYN_CALLVAL (n.val / 16))
    (old.getLsbD 11 = false → exec (.callSet k bit) s = .next s ∧ exec (.callClear k bit) s = .next s) ∧
    (old.getLsbD 11 = true → (old.getLsbD 10 = false ∨ (2 ≤ s.stkState ∧ s.isMaster = true)) →
      (∃ t, exec (.callSet k bit) s = .next t ∧ val t = val s ||| bit ∧ t.mem = s.mem ∧
        ∀ c, (s.core c).wait = some (.clw n.val) → cstSs (s.core c).cst = false → (t.core c).wait = none) ∧
      (∃ t, exec (.callClear k bit) s = .next t ∧ val t = val s &&& ~~~ bit ∧ t.mem = s.mem ∧ t.cores = s.cores)) ∧
    (old.getLsbD 11 = true → old.getLsbD 10 = true → s.stkState < 2 →
      exec (.callSet k bit) s = .next (s.setReg R.SYN_ERR (s.reg R.SYN_ERR ||| 8))) ∧
    (∃ t, exec (.callDisable n cfg) s = .next t ∧ t.reg (R.SYN_CALLCFG n.val) = cfg &&& 0x07FF ∧
      (old.getLsbD 11 = true → val t = val s &&& ~~~ bit) ∧ t.mem = s.mem))

/-- R10, R11, R36, R43, R45, R52–R57, R62: register accesses of every requester: words that do not answer; a stored word; RC bits
cleared by a read; the snapshot of a four-word quantity; bit aliases; and the peek window, which ignores writes. That a peek
write may record two causes is the model's reading (log entry 25). -/
def Obligations.RegisterAccesses : Prop :=
  ∀ (s : State) (who : Requester) (a : BitVec 27) (wide : Bool) (v : BitVec 32) (crew : Fin 96) (b : Fin 12),
    let base := 0xF0000000
    let noAnswer := fun (i : Instr) => exec i s = .next { s with lastRead := some ⟨.busErr, []⟩ }
    let returns := fun (t : State) (w : Word) =>
      t.lastRead = some ⟨.ok, [BitVec.ofNat 8 (w.toNat % 256), BitVec.ofNat 8 (w.toNat / 256)]⟩
    let same := fun (t : State) (x : Nat) => (∀ y, y ≠ x → t.reg y = s.reg y) ∧ t.mem = s.mem ∧ t.cores = s.cores
    let M := R.MESH_PRIO crew.val
    let E := R.COX_MEM_ERR crew.val
    let off := fun (x : Nat) => (BitVec.ofNat 27 (x - base))
    let aliasOff := fun (x i : Nat) => (BitVec.ofNat 27 (16 * (x - base) + i))
    let hostFails := fun (i : Instr) (x : AccStatus) => s.reg R.HST_ACCERR_STAT = 0 → ∃ t, exec i s = .next t ∧ t.lastRead = some ⟨x, []⟩ ∧
      t.reg R.HST_ACCERR_STAT = 8 ∧ t.reg32 R.HST_ACCERR_ADDR_LO = BitVec.ofNat 32 (base + a.toNat) ∧ t.mem = s.mem ∧ t.cores = s.cores
    let bytes := fun (w : Word) => ([BitVec.ofNat 8 (w.toNat % 256), BitVec.ofNat 8 (w.toNat / 256)] : List Byte)
    let bit := fun (x : Nat) => (if (s.ordWord who (base + x / 16)).getLsbD (x % 16) then 1 else 0 : Word)
    (s.answersAt (base + a.toNat) = false → who ≠ .host → noAnswer (.registerWrite who a wide v) ∧ noAnswer (.clearingRead who a wide) ∧
      noAnswer (.snapshotRead who a)) ∧
    (s.answersAt (base + a.toNat) = false → who = .host → s.mayAccess who = true →
      hostFails (.registerWrite who a wide v) .discarded ∧ hostFails (.clearingRead who a wide) .completerAbort ∧
      hostFails (.snapshotRead who a) .completerAbort) ∧
    (s.mayAccess who = false → exec (.registerWrite who a wide v) s = .next s ∧ exec (.clearingRead who a wide) s = .next s ∧
      exec (.snapshotRead who a) s = .next s ∧ exec (.aliasRead who a wide) s = .next s ∧ exec (.aliasWrite who a wide v) s = .next s) ∧
    (s.mayAccess who = true → s.answersAt (base + a.toNat) = true →
      (∃ t, exec (.registerWrite who a false v) s = .next t ∧ t.lastRead = some ⟨.ok, []⟩) ∧
      (s.answersAt (base + a.toNat + 1) = true → ∃ t, exec (.registerWrite who a true v) s = .next t ∧ t.lastRead = some ⟨.ok, []⟩) ∧
      (∃ t, exec (.clearingRead who a false) s = .next t ∧ t.lastRead = some ⟨.ok, bytes (s.readValue who (base + a.toNat))⟩ ∧ t.mem = s.mem) ∧
      (s.answersAt (base + a.toNat + 1) = true → ∃ t w, exec (.clearingRead who a true) s = .next t ∧
        t.lastRead = some ⟨.ok, bytes (s.readValue who (base + a.toNat)) ++ bytes w⟩ ∧ t.mem = s.mem) ∧
      (∃ t, exec (.snapshotRead who a) s = .next t ∧ t.lastRead = some ⟨.ok, bytes (s.readValue who (base + a.toNat))⟩ ∧ t.mem = s.mem)) ∧
    (s.mayAccess who = true → s.answersAt (0xF8000000 + a.toNat) = true →
      (∃ t, exec (.aliasWrite who a false v) s = .next t ∧ t.lastRead = some ⟨.ok, []⟩) ∧
      (s.answersAt (0xF8000000 + a.toNat + 1) = true → ∃ t, exec (.aliasWrite who a true v) s = .next t ∧ t.lastRead = some ⟨.ok, []⟩) ∧
      (∃ t, exec (.aliasRead who a false) s = .next t ∧ t.lastRead = some ⟨.ok, bytes (bit a.toNat)⟩ ∧ t.mem = s.mem) ∧
      (s.answersAt (0xF8000000 + a.toNat + 1) = true → ∃ t w, exec (.aliasRead who a true) s = .next t ∧
        t.lastRead = some ⟨.ok, bytes (bit a.toNat) ++ bytes w⟩ ∧ t.mem = s.mem)) ∧
    (s.mayAccess who = true → s.crewUp crew.val = true →
      (∃ t, exec (.registerWrite who (off M) false v) s = .next t ∧ t.reg M = (s.reg M &&& 0xF888) ||| (v.setWidth 16 &&& 0x0777) ∧ same t M ∧
        t.lastRead = some ⟨.ok, []⟩) ∧
      (∃ t, exec (.clearingRead who (off E) false) s = .next t ∧ returns t (s.reg E) ∧ t.reg E = s.reg E &&& 0xFFFC ∧ same t E) ∧
      (∃ t, exec (.clearingRead who (off M) false) s = .next t ∧ returns t (s.reg M) ∧ t.reg M = s.reg M ∧ same t M) ∧
      (∃ t, exec (.aliasRead who (aliasOff E 1) false) s = .next t ∧ returns t (if (s.reg E).getLsbD 1 then 1 else 0) ∧
        t.reg E = s.reg E &&& 0xFFFD ∧ same t E) ∧
      (∃ t, exec (.aliasWrite who (aliasOff M b.val) false v) s = .next t ∧ same t M ∧
        ((0x777 : Word).getLsbD b.val = true → s.reg M &&& 0xF888 = 0 → t.reg M = if v.getLsbD 0 then s.reg M ||| BitVec.ofNat 16 (2 ^ b.val)
          else s.reg M &&& ~~~ BitVec.ofNat 16 (2 ^ b.val)) ∧
        ((0x777 : Word).getLsbD b.val = false → t.reg M = s.reg M)) ∧
      (∃ t, exec (.aliasWrite who (aliasOff E 0) false v) s = .next t ∧ t.reg E = s.reg E ∧ same t E)) ∧
    (s.mayAccess who = true → s.warm = false → ∃ t, exec (.snapshotRead who (off 0xF0600030)) s = .next t ∧ returns t (BitVec.ofNat 16 s.time) ∧
      (∀ y, t.reg y = s.reg y) ∧ (∀ u : State, u.snaps = t.snaps → ∀ k : Fin 3,
        u.readValue who (0xF0600031 + k.val) = BitVec.ofNat 16 (s.time / 65536 ^ (k.val + 1)))) ∧
    (∀ p : BitVec 28, (who ≠ .host → exec (.peekWrite who p wide v) s = .next { s with lastRead := some ⟨.ok, []⟩ }) ∧
      (who = .host → s.mayAccess who = false → exec (.peekWrite who p wide v) s = .next s) ∧
      (who = .host → s.mayAccess who = true → ∃ t, exec (.peekWrite who p wide v) s = .next t ∧ t.lastRead = some ⟨.discarded, []⟩ ∧
        t.mem = s.mem ∧ t.cores = s.cores ∧
        (s.reg R.HST_ACCERR_STAT = 0 → t.reg R.HST_ACCERR_STAT = (if s.answersAt (base + p.toNat) then 0x10 else 0x18) ∧
          t.reg32 R.HST_ACCERR_ADDR_LO = BitVec.ofNat 32 (0xE0000000 + p.toNat))))

/-! ## The stroke (spec/03) -/

/-- R65, R66, R73, R74, R91–R95, R97, R98: the catch, the drive entry, the finish instant with its overrun test and policies, and
the recovery entry; what each leaves alone. -/
def Obligations.StrokePhases : Prop :=
  ∀ (s : State) (c : Fin 96),
    let stat := R.COX_STROKE_STAT c.val
    let ready := s.stroke.first = none
    let misses := fun (i : Instr) => ∃ t, exec i s = .next t ∧ t.mem = s.mem ∧ t.reg64 (R.STK_COUNT 0) = s.reg64 (R.STK_COUNT 0) ∧
      (s.crewUp c.val = true → t.reg stat = s.reg stat ||| 8)
    let strikes := fun (t : State) (at_ : Nat) => t.stkPhase = 0 ∧ t.reg64 (R.STK_CATCHTIME 0) = BitVec.ofNat 64 at_ ∧ t.stroke.announce = none ∧
      t.stroke.first = none ∧ t.held = false ∧ t.mem = s.mem
    let eff := s.effParams
    let drive := s.catchTime + 10 * eff.catch_
    let finish := s.catchTime + 10 * (eff.period - eff.recov)
    let next := s.catchTime + 10 * eff.period
    (s.stkState = 0 → exec .catchInstant s = .next s ∧ exec .driveEntry s = .next s ∧ exec .finishInstant s = .next s ∧
      exec .recoveryEntry s = .next s) ∧
    (s.stkState = 1 → misses .driveEntry ∧ misses .finishInstant ∧ misses .recoveryEntry ∧
      (s.following = none → misses .catchInstant) ∧
      (∀ id p m, s.following = some id → s.stroke.upstream = some p → (s.port p).heard = some m → m.announce = 0 → m.hold = false →
        let due := if m.txtime < 8 * m.catchTime then m.catchTime else m.catchTime + 10 * m.eff.period
        let count := if m.txtime < 8 * m.catchTime then m.stroke else m.stroke + 1
        (s.time < due → exec .catchInstant s = .next s) ∧
        (due ≤ s.time → ∃ t, exec .catchInstant s = .next t ∧ t.stkState = 2 ∧ strikes t due ∧
          t.reg64 (R.STK_COUNT 0) = BitVec.ofNat 64 count))) ∧
    (2 ≤ s.stkState → ready →
      (∀ a, s.stkPhase = 3 → ((s.held = false ∧ a = next) ∨ (s.held = true ∧ s.stroke.announce = some a)) →
        (s.time < a → exec .catchInstant s = .next s) ∧
        (a ≤ s.time → ∃ t, exec .catchInstant s = .next t ∧ strikes t a ∧
          t.reg64 (R.STK_COUNT 0) = s.reg64 (R.STK_COUNT 0) + 1 ∧
          (∀ p n, s.stroke.pend = some (p, n) → n ≤ s.stkCount + 1 → t.stroke.pend = none ∧
            t.reg32 R.STK_EFF_PERIOD_LO = BitVec.ofNat 32 p.period ∧ t.reg32 R.STK_EFF_RECOV_LO = BitVec.ofNat 32 p.recov ∧
            t.reg R.STK_EFF_CATCH = BitVec.ofNat 16 p.catch_ ∧ t.reg32 R.STK_EFF_HOLDMAX_LO = BitVec.ofNat 32 p.hold ∧
            t.effParams.auto = p.auto) ∧
          (∀ p n, s.stroke.pend = some (p, n) → s.stkCount + 1 < n → t.stroke.pend = some (p, n) ∧ t.effParams = s.effParams) ∧
          (s.stroke.winner = some s.devId → s.self ≠ none → t.isMaster = true ∧ t.following = some s.devId))) ∧
      (s.stkPhase = 3 → s.held = true → s.stroke.announce = none → exec .catchInstant s = .next s) ∧
      (s.stkPhase ≠ 3 → exec .catchInstant s = .next s) ∧
      (s.stkPhase = 0 → drive ≤ s.time → ∃ t, exec .driveEntry s = .next t ∧ t.stkPhase = 1 ∧ (∀ a, a ≠ R.STK_STAT → t.reg a = s.reg a) ∧
        t.mem = s.mem ∧ t.cores = s.cores) ∧
      (s.time < drive → exec .driveEntry s = .next s) ∧ (s.time < finish → exec .finishInstant s = .next s) ∧
      (s.time < finish + 1000 → exec .recoveryEntry s = .next s) ∧
      (s.stkPhase ≠ 0 → exec .driveEntry s = .next s) ∧
      (s.stkPhase ≠ 1 → exec .finishInstant s = .next s) ∧
      (s.stkPhase = 1 → finish ≤ s.time → ∃ t, exec .finishInstant s = .next t ∧ t.stkPhase = 2 ∧ t.mem = s.mem ∧ (s.crewUp c.val = true →
        ((∀ n : Fin 8, ∀ k, (s.core (.seat c n)).task = some k → (k.words.getD 4 0).getLsbD 0 = false) →
          (∀ h ∈ (s.schedOf c.val).heads, (h.2.words.getD 4 0).getLsbD 0 = false) →
          t.reg stat = s.reg stat ∧ t.reg (R.COX_OVR_COUNT c.val) = s.reg (R.COX_OVR_COUNT c.val)) ∧
        (∀ (n : Fin 8) k, (s.core (.seat c n)).task = some k → (k.words.getD 4 0).getLsbD 0 = true →
          (k.late = true ∨ ∃ m, k.stroke = some m ∧ m ≤ s.stkCount) →
          let policy := s.fld (R.COX_STROKE_CTRL c.val) 0 2
          t.reg (R.COX_OVR_COUNT c.val) = BitVec.ofNat 16 (min 0xFFFF ((s.reg (R.COX_OVR_COUNT c.val)).toNat + 1)) ∧
          (policy = 0 → t.reg stat = s.reg stat ||| 0x0201) ∧
          (policy = 1 → s.stkState = 2 → s.effParams.hold ≠ 0 → t.reg stat = s.reg stat ||| 0x0201 ∧ t.holding.getLsbD c.val = true ∧
            t.held = true) ∧
          (policy = 1 → (s.stkState ≠ 2 ∨ s.effParams.hold = 0) → t.reg stat = s.reg stat ||| 0x0205) ∧
          (policy = 2 → t.reg stat = s.reg stat ||| 0x0301 ∧ t.noDispatch.getLsbD c.val = true)))) ∧
      (s.stkPhase ≠ 2 → exec .recoveryEntry s = .next s) ∧
      (s.stkPhase = 2 → finish + 1000 ≤ s.time → ∃ t, exec .recoveryEntry s = .next t ∧ t.stkPhase = 3 ∧
        t.reg64 (R.PWR_RPTSTK 0) = s.reg64 (R.STK_COUNT 0) ∧
        (∀ g, s.paceOn = true → s.pwr.out = some g → t.pwr.out = none ∧ t.pwr.lo = g.lo ∧ t.pwr.hi = g.hi) ∧
        (s.paceOn = false → t.pwr = s.pwr) ∧ t.mem = s.mem)) ∧
    (s.crewUp c.val = true →
      ((s.reg stat).getLsbD 8 = false → exec (.strokeResume c) s = .next s) ∧
      ((s.reg stat).getLsbD 8 = true → ∃ t, exec (.strokeResume c) s = .next t ∧ t.reg stat = s.reg stat &&& 0xFEFF ∧ t.mem = s.mem ∧
        ∀ n : Fin 8, let k := s.core (.seat c n)
          (k.halted = false → t.core (.seat c n) = k) ∧
          (k.halted = true → k.mode = .running → t.core (.seat c n) = { k with stopReq := false, halted := false, stopping := none }) ∧
          (k.halted = true → k.mode = .stopped → k.task = none → t.core (.seat c n) = { k with mode := .idle, halted := false, stepDue := false }) ∧
          (∀ w, k.halted = true → k.mode = .stopped → k.task = some w →
            let pc := k.epc &&& 0xFFFFFFFE
            t.core (.seat c n) = { k with mode := .running, pc := pc, halted := false, stepDue := false,
                                          stopping := if k.stepDue then some ⟨9, false, pc, 0⟩ else none })))

/-- R68–R73, R76, R81–R91, R98: STK_CTRL and STK_CMD, elections, the loss of the master and holdover, the first stroke, the
announced limit of a hold, and the choice of the upstream port. That 255 is a device ID like any other is the model's reading
(log entry 29). -/
def Obligations.StrokeMasterAndElections : Prop :=
  ∀ (s : State) (ctrl : Word),
    let P := (s.reg32 R.STK_PERIOD_LO).toNat
    let C := (s.reg R.STK_CATCH).toNat
    let Rv := (s.reg32 R.STK_RECOV_LO).toNat
    let H := (s.reg32 R.STK_HOLDMAX_LO).toNat
    let auto := (s.reg R.STK_CTRL).getLsbD 1
    let p := max 2000 (min 2000000 P)
    let own : StkParams := ⟨p, if auto then max 200 (p / 10) else max 200 (min (p / 2) Rv),
      max 50 (min (min 1000 (p / 4)) C), min p H, auto⟩
    let candidate := (s.reg R.STK_CTRL).getLsbD 0 = true ∧ (s.reg R.STK_CTRL).getLsbD 3 = false ∧ (s.reg R.BH_CLK).getLsbD 0 = true
    let elects := fun (t : State) => t.stroke.electing = true ∧ t.stroke.gen = (s.stroke.gen + 1) % 256 ∧
      (candidate → t.stroke.cand = some (s.devId, (s.reg R.STK_CTRL).getLsbD 2)) ∧ (¬ candidate → t.stroke.cand = none) ∧ t.mem = s.mem ∧
      t.cores = s.cores
    let leads := fun (t : State) => t.isMaster = true ∧ t.following = some s.devId ∧ t.stroke.upstream = none ∧ t.mem = s.mem
    (s.warm = false →
      (s.stkState ≠ 0 → ctrl.getLsbD 0 = true → s.stroke.electing = false →
        exec (.strokeEnable ctrl) s = .next (s.setReg R.STK_CTRL (ctrl &&& 0xF))) ∧
      (s.stkState ≠ 0 → ctrl.getLsbD 0 = true → ctrl.getLsbD 3 = true → s.stroke.electing = true → (∃ pin, s.stroke.cand = some (s.devId, pin)) →
        ∃ t, exec (.strokeEnable ctrl) s = .next t ∧ t.reg R.STK_CTRL = ctrl &&& 0xF ∧ t.stroke.cand = none ∧ t.stroke.electing = true ∧
          t.stroke.gen = (s.stroke.gen + 1) % 256 ∧ t.mem = s.mem ∧ t.cores = s.cores) ∧
      (s.stkState = 0 → ctrl.getLsbD 0 = true → ∃ t, exec (.strokeEnable ctrl) s = .next t ∧ t.reg R.STK_CTRL = ctrl &&& 0xF ∧ t.stkState = 1 ∧
        (∀ a, a ≠ R.STK_CTRL → a ≠ R.STK_STAT → t.reg a = s.reg a) ∧ t.mem = s.mem ∧ t.cores = s.cores ∧
        t.stroke = { s.stroke with mark := s.time }) ∧
      (ctrl.getLsbD 0 = false → ∃ t, exec (.strokeEnable ctrl) s = .next t ∧ t.reg R.STK_CTRL = ctrl &&& 0xF ∧ t.stkState = 0 ∧
        t.isMaster = false ∧ t.stkPhase = 0 ∧ t.following = none ∧ t.stroke.pend = none ∧ t.stroke.electing = false ∧
        (∀ a, a ≠ R.STK_CTRL → a ≠ R.STK_STAT → a ≠ R.STK_MASTER → (∀ q, s.stroke.upstream = some q → a ≠ R.GW_STAT q) →
          t.reg a = s.reg a) ∧ t.mem = s.mem ∧ t.cores = s.cores) ∧
      (s.isMaster = false → exec .stkApply s = .next (s.setReg R.STK_EVT (s.reg R.STK_EVT ||| 0x40))) ∧
      (s.isMaster = true → ∃ t, exec .stkApply s = .next t ∧
        t.stroke.pend = some (own, match s.stroke.pend with | some x => x.2 | none => s.stkCount + 2) ∧ (t.reg R.STK_STAT).getLsbD 7 = true ∧
        t.reg R.STK_EVT = (if p ≠ P ∨ own.catch_ ≠ C ∨ (auto = false ∧ own.recov ≠ Rv) ∨ own.hold ≠ H then s.reg R.STK_EVT ||| 0x20
          else s.reg R.STK_EVT) ∧
        (∀ a, a ≠ R.STK_STAT → a ≠ R.STK_EVT → t.reg a = s.reg a) ∧ t.mem = s.mem) ∧
      (s.stkState = 0 → exec .elect s = .next s) ∧
      (s.stkState ≠ 0 → s.activePorts ≠ [] → ∃ t, exec .elect s = .next t ∧ elects t ∧ t.regs = s.regs) ∧
      (s.stkState ≠ 0 → s.stkState ≠ 3 → s.activePorts = [] → candidate → s.following = some s.devId → ∃ t, exec .elect s = .next t ∧
        t.reg R.STK_EVT = s.reg R.STK_EVT ||| 2 ∧ t.stroke.electing = false ∧ t.stkState = s.stkState ∧ t.following = some s.devId ∧
        t.mem = s.mem ∧ t.cores = s.cores)) ∧
    (s.stkState = 2 → s.isMaster = false → s.held = false → s.stroke.mark + max 20 (s.fld R.STK_LOSSTO 0 10) * 1000 ≤ s.time →
      (s.activePorts ≠ [] → ∃ t, exec .masterLoss s = .next t ∧ elects t ∧ t.stkState = 3 ∧ t.following = none ∧ t.stroke.upstream = none ∧
        t.reg R.STK_EVT = s.reg R.STK_EVT ||| 1) ∧
      (s.activePorts = [] → candidate → ∃ t, exec .masterLoss s = .next t ∧ t.stkState = 2 ∧ leads t ∧
        t.reg R.STK_EVT = s.reg R.STK_EVT ||| 3)) ∧
    ((s.stkState ≠ 2 ∨ s.isMaster = true ∨ s.time < s.stroke.mark + max 20 (s.fld R.STK_LOSSTO 0 10) * 1000) →
      exec .masterLoss s = .next s) ∧
    (s.stkState = 1 → s.stroke.electing = false → s.stroke.mark + max 20 (s.fld R.STK_LOSSTO 0 10) * 1000 ≤ s.time →
      (s.activePorts ≠ [] → ∃ t, exec .syncListenTimeout s = .next t ∧ elects t ∧ t.following = none ∧ t.stroke.upstream = none ∧
        t.stkState = 1) ∧
      (s.activePorts = [] → candidate → ∃ t, exec .syncListenTimeout s = .next t ∧ t.stkState = 2 ∧ leads t ∧ t.stroke.electing = false ∧
        t.stroke.first = some ((s.time + 20000 + 9) / 10 * 10)) ∧
      (s.activePorts = [] → ¬ candidate → ∃ t, exec .syncListenTimeout s = .next t ∧ elects t ∧ t.stkState = 1)) ∧
    ((s.stkState ≠ 1 ∨ s.stroke.electing = true ∨ s.time < s.stroke.mark + max 20 (s.fld R.STK_LOSSTO 0 10) * 1000) →
      exec .syncListenTimeout s = .next s) ∧
    (s.stkState = 3 → s.stroke.mark + 50000000 ≤ s.time → s.stroke.upstream = none → s.stroke.evHeld = [] →
      ∃ t, exec .holdoverExpiry s = .next t ∧ t.stkState = 4 ∧ leads t ∧ t.stroke.electing = false ∧
        t.reg R.STK_EVT = s.reg R.STK_EVT ||| 0x80 ∧ t.cores = s.cores) ∧
    (s.time < s.stroke.mark + 50000000 → exec .holdoverExpiry s = .next s) ∧
    (s.stkState ≠ 3 → exec .holdoverExpiry s = .next s) ∧
    (s.stkState = 2 → s.isMaster = true →
      (s.stroke.first = none → exec .firstStrokeStart s = .next s) ∧
      (∀ a, s.stroke.first = some a → s.time < a → exec .firstStrokeStart s = .next s) ∧
      (∀ a, s.stroke.first = some a → a ≤ s.time → s.stroke.pend = none → ∃ t, exec .firstStrokeStart s = .next t ∧ t.stkPhase = 0 ∧
        t.reg64 (R.STK_COUNT 0) = 0 ∧ t.reg64 (R.STK_CATCHTIME 0) = BitVec.ofNat 64 a ∧ t.stroke.first = none ∧
        t.reg32 R.STK_EFF_PERIOD_LO = BitVec.ofNat 32 p ∧ t.reg R.STK_EFF_CATCH = BitVec.ofNat 16 own.catch_ ∧ t.mem = s.mem) ∧
      (s.time + 3000 < s.catchTime + 10 * s.effParams.period + 10 * s.effParams.hold → exec .holdLimit s = .next s) ∧
      (s.held = true → s.stroke.announce = none → s.catchTime + 10 * s.effParams.period + 10 * s.effParams.hold ≤ s.time + 3000 →
        ∃ t, exec .holdLimit s = .next t ∧ t.holding = 0 ∧
        t.stroke.announce = some (s.catchTime + 10 * s.effParams.period + 10 * s.effParams.hold) ∧
        t.reg R.STK_EVT = s.reg R.STK_EVT ||| 0x10 ∧ t.mem = s.mem ∧ t.cores = s.cores ∧
        ∀ c : Fin 96, s.crewUp c.val = true → t.reg (R.COX_STROKE_STAT c.val) =
          s.reg (R.COX_STROKE_STAT c.val) ||| if s.holding.getLsbD c.val then 2 else 0)) ∧
    (∀ q id m, s.isMaster = false → s.following = some id → q ∈ s.activePorts → (s.port q).heard = some m → m.mvalid = true →
      m.master = id → m.hops < 255 → s.stroke.evHeld = [] →
      (∀ r ∈ s.activePorts, ∀ m', r ≠ q → (s.port r).heard = some m' → m'.mvalid = true → m'.master = id → m.hops < m'.hops) →
      (s.stroke.upstream = some q → exec .upstreamSwitch s = .next s) ∧
      (s.stroke.upstream = none → ∃ t, exec .upstreamSwitch s = .next t ∧ t.stroke.upstream = some q ∧ (t.reg (R.GW_STAT q)).getLsbD 15 = true ∧
        (t.port q).evOut = (s.port q).evOut ∧ t.mem = s.mem ∧ t.cores = s.cores) ∧
      (∀ o, s.stroke.upstream = some o → o ≠ q → (s.port q).evOut.length + (s.port o).evOut.length ≤ 128 →
        ∃ t, exec .upstreamSwitch s = .next t ∧ t.stroke.upstream = some q ∧
        (t.reg (R.GW_STAT q)).getLsbD 15 = true ∧ (t.port q).evOut = (s.port q).evOut ++ (s.port o).evOut ∧ (t.port o).evOut = [] ∧
        t.mem = s.mem ∧ t.cores = s.cores))

/-! ## Gweni links (spec/10) -/

/-- R294–R301, R309, R312, R319–R321, R333, R334, R368: flits received in and out of sequence and failed ones; what a flit position
sends; NAK repeats, starved channels, packets forwarded and packets too old. To which packet a flit's buffer belongs is the
model's reading (log entry 36). -/
def Obligations.LinkFlitsAndQueues : Prop :=
  ∀ (s : State) (p : Fin 32) (f : Flit) (vc : Fin 6),
    let n := p.val
    let x := s.port n
    let h := f.hdr
    let count := fun (t : State) (a : Nat) => t.reg a = BitVec.ofNat 16 (min 0xFFFF ((s.reg a).toNat + 1))
    let kept := x.replay.filter (fun e => decide (0 < (e.seq + 4096 - h.ack.toNat) % 4096 ∧ (e.seq + 4096 - h.ack.toNat) % 4096 ≤ 2048))
    let nextSeq := if x.resend = 0 then x.txNext else ((x.replay[x.replay.length - x.resend]?).map TxFlit.seq).getD x.txNext
    let ahead := (h.seq.toNat + 4096 - x.rxNext) % 4096
    -- what the header of a good flit tells
    let headed := fun (t : State) => (t.port n).replay = kept ∧ (t.port n).resend = (if h.nak then kept.length else min x.resend kept.length) ∧
      (∀ c : Fin 6, (t.port n).credit.get c = if c.val = h.cvc.val then h.crdcum.toNat else x.credit.get c) ∧ t.mem = s.mem
    let noNew := fun (t : State) => (t.port n).rxNext = x.rxNext ∧ (t.port n).inbox = x.inbox ∧ (t.port n).rxRest = x.rxRest ∧ t.mem = s.mem
    let gap := fun (t : State) => (t.port n).episode = some (s.time, 1) ∧ (t.port n).nak = true ∧ count t (R.GW_REPLAY n) ∧
      (t.reg (R.GW_STAT n)).getLsbD 14 = true
    let failed := fun (i : Instr) (P : State → Prop) => ∃ t, exec i s = .next t ∧ count t (R.GW_CRCERR n) ∧ noNew t ∧ (t.port n).replay = x.replay ∧
      (x.episode = none → gap t) ∧ P t
    -- what the FEC found with it is counted, by codewords and by lanes
    let clean := f.unc = [] ∧ f.fixed = []
    let fecCounted := fun (i : Instr) => ∃ t, exec i s = .next t ∧
      t.reg (R.GW_FECUNC n) = BitVec.ofNat 16 (min 0xFFFF ((s.reg (R.GW_FECUNC n)).toNat + f.unc.length)) ∧
      (∀ l, l < 8 → t.reg (R.GW_LANECE n l) = BitVec.ofNat 16 (min 0xFFFF ((s.reg (R.GW_LANECE n l)).toNat + f.fixed.getD l 0)))
    let old := fun (q : TQueued) => decide (100000 < s.time - q.arrived)
    let aged := fun (t : State) (m : Nat) => t.reg R.RMA_AGEDROP = BitVec.ofNat 16 (min 0xFFFF ((s.reg R.RMA_AGEDROP).toNat + m))
    (s.gwUp n = true → s.portState n = 5 → x.degrade = none → x.rxNext < 4096 →
      (flitOk .data f = false → failed (.dataFlit p f) (fun _ => True)) ∧
      (flitOk .idle f = false → failed (.idleFlit p f) (fun _ => True)) ∧
      (flitOk .sync f = false → failed (.syncFlit p f) (fun t => count t (R.GW_SYNCLOST n))) ∧
      (flitOk .data f = true → h.fvc.val = vc.val →
        (ahead = 0 → ∃ t, exec (.dataFlit p f) s = .next t ∧ headed t ∧ (t.port n).rxNext = (x.rxNext + 1) % 4096 ∧ (t.port n).episode = none ∧
          (t.port n).nak = false ∧ (t.reg (R.GW_STAT n)).getLsbD 14 = false ∧
          (x.rxRest.get vc = ([], 0) → f.payload.length ≤ 123 → f.payload.getD 0 0 ≠ 0 →
            f.payload.length = 12 + tailLen (f.payload.getD 0 0) (f.payload.getD 10 0) →
            (∀ k, tpktOf f.payload = some k → (t.port n).inbox = x.inbox ++ [⟨k, s.time, some n, vc.val, 1⟩] ∧
              (t.port n).freed = x.freed) ∧
            (tpktOf f.payload = none → (t.port n).inbox = x.inbox ∧ count t R.RMA_BADPKT ∧
              (t.port n).freed.get vc = (x.freed.get vc + 1) % 256))) ∧
        (0 < ahead → ahead < 2048 → x.episode = none → ∃ t, exec (.dataFlit p f) s = .next t ∧ headed t ∧ noNew t ∧ gap t) ∧
        (2048 ≤ ahead → ∃ t, exec (.dataFlit p f) s = .next t ∧ headed t ∧ noNew t ∧ (t.port n).episode = x.episode ∧ (clean → t.regs = s.regs))) ∧
      fecCounted (.dataFlit p f) ∧ fecCounted (.idleFlit p f) ∧ (flitOk .sync f = false → fecCounted (.syncFlit p f)) ∧
      (flitOk .idle f = true → ∃ t, exec (.idleFlit p f) s = .next t ∧ headed t ∧ noNew t ∧
        (0 < ahead → ahead ≤ 2048 → x.episode = none → gap t) ∧ (ahead = 0 → clean → t.regs = s.regs)) ∧
      (flitOk .sync f = true → ∃ t, exec (.syncFlit p f) s = .next t ∧
        (let m := syncOf f.payload
         (t.port n).heard = some m ∧ (t.port n).echo = some (m.txtime, s.time) ∧
         (m.echo ≠ 0 → x.rtts = [] → t.reg (R.GW_RTT n) = BitVec.ofNat 16 (min 0xFFFF ((s.time * 8 - m.echo - m.turn) / 2)))) ∧
        t.mem = s.mem)) ∧
    -- what a flit position sends
    (s.linkUp n = true →
      let active := s.portState n = 5
      let syncSlot := active ∧ x.pos % 64 = 0
      let sends := fun (ty : FType) (seq : Nat) (ws : List Word) (P : Port → Prop) => ∃ t g, exec (.flitSlot p) s = .next t ∧
        (t.port n).last = some (ty, g) ∧ g.hdr.seq = BitVec.ofNat 12 seq ∧ g.hdr.ack = BitVec.ofNat 12 (x.rxNext + 4095) ∧ g.hdr.nak = x.nak ∧
        g.payload = padTo 123 ws ∧ g.crc = flitCrc ty g.hdr g.payload ∧ g.fec = false ∧ (t.port n).nak = false ∧ (t.port n).pos = x.pos + 1 ∧
        (t.port n).cvc = (x.cvc + 1) % 6 ∧ P (t.port n) ∧ t.mem = s.mem
      (syncSlot → sends .sync nextSeq (s.syncOut n).words (fun y => y.replay = x.replay ∧ y.txNext = x.txNext)) ∧
      (¬ syncSlot → ∀ w ws, x.ctrl = w :: ws → sends .ctrl nextSeq w (fun y => y.ctrl = ws ∧ y.txNext = x.txNext)) ∧
      (¬ active → x.ctrl = [] → sends .idle nextSeq [] (fun y => y.txNext = x.txNext ∧ y.queues = x.queues)) ∧
      (active → ¬ syncSlot → x.ctrl = [] →
        (∀ e, 0 < x.resend → x.resend ≤ x.replay.length → x.replay[x.replay.length - x.resend]? = some e →
          sends .data e.seq e.words (fun y => y.resend = x.resend - 1 ∧ y.replay = x.replay ∧ y.txNext = x.txNext)) ∧
        (x.resend = 0 → x.replay.length < 2048 →
          let credit := fun (c : Fin 6) => 128 - (x.sent.get c + 256 - x.credit.get c % 256) % 256
          (∀ q, (∀ c, vc < c → x.rest.get c = [] ∧ ∀ o ∈ x.queues.get c, old o = true) → x.queues.get vc = [q] → x.rest.get vc = [] → 0 < credit vc →
            s.time ≤ q.arrived + 100000 → (q.pkt.words (q.pkt.hops - 1)).length ≤ 123 →
            let ws := q.pkt.words (q.pkt.hops - 1)
            sends .data x.txNext ws (fun y => y.replay = x.replay ++ [⟨x.txNext, vc.val, 0, ws, 1⟩] ∧ y.txNext = (x.txNext + 1) % 4096 ∧
              y.queues.get vc = [] ∧ y.sent.get vc = (x.sent.get vc + 1) % 256)) ∧
          ((∀ c, x.waiting c = false ∨ credit c = 0) →
            sends .idle x.txNext [] (fun y => y.txNext = x.txNext ∧ y.replay = x.replay ∧
              y.queues = x.queues.map (fun l => l.filter (fun q => !(old q)))))))) ∧
    (s.gwUp n = true → s.portState n = 5 →
      (∀ since k, x.episode = some (since, k) →
        (k < 8 → ∃ t, exec (.nakRepeat p) s = .next t ∧ (t.port n).episode = some (since, k + 1) ∧ (t.port n).nak = true ∧
          count t (R.GW_REPLAY n) ∧ noNew t) ∧
        (8 ≤ k → exec (.nakRepeat p) s = exec (.retryExhaustion p false) s))) ∧
    (s.gwUp n = true →
      (∀ q rest, x.inbox = q :: rest → q.pkt.dst ≠ s.devId → q.vc = vc.val →
        (s.clogged q.pkt.ptype.meshVc (.port n) = true → exec (.packetForward p) s = .next s) ∧
        (s.clogged q.pkt.ptype.meshVc (.port n) = false →
          (∀ r : Fin 32, q.pkt.hops ≠ 0 → s.routePort q.pkt.dst q.pkt.flow = some r.val → ∃ t, exec (.packetForward p) s = .next t ∧
            (t.port n).inbox = rest ∧ (t.port n).freed.get vc = (x.freed.get vc + q.flits) % 256 ∧ s.entersMesh t (.port n) r.val q ∧
            t.mem = s.mem) ∧
          (q.pkt.hops = 0 → q.ingress = some n → ∃ t, exec (.packetForward p) s = .next t ∧ (t.port n).inbox = rest ∧ count t (R.GW_HOPDROP n)) ∧
          (q.pkt.hops ≠ 0 → s.routePort q.pkt.dst q.pkt.flow = none → ∃ t, exec (.packetForward p) s = .next t ∧ (t.port n).inbox = rest ∧
            count t R.GW_NOROUTE ∧ (t.reg R.GW_FEVT).getLsbD 0 = true))) ∧
      ((∀ q ∈ x.inbox, q.pkt.dst = s.devId) → exec (.packetForward p) s = .next s)) ∧
    (∃ t, exec (.ageDiscard none false) s = .next t ∧ t.ownIn = s.ownIn.filter (fun q => !(old q)) ∧ aged t (s.ownIn.filter old).length) ∧
    (∃ t, exec (.ageDiscard (some p) true) s = .next t ∧ (t.port n).queues = x.queues.map (fun l => l.filter (fun q => !(old q))) ∧
      aged t (x.queues.toList.flatten.filter old).length ∧ (t.port n).inbox = x.inbox) ∧
    (∃ t, exec (.ageDiscard (some p) false) s = .next t ∧ (t.port n).inbox = x.inbox.filter (fun q => !(old q)) ∧
      aged t (x.inbox.filter old).length ∧ (t.port n).queues = x.queues)

/-- R301–R308, R315: degrade, loss of light, port down, training, identification, and writes of GW_CTRL and GW_CMD. That an
operand chooses between halves of equal counts is the model's choice (log entry 37). -/
def Obligations.LinkTrainingAndFailure : Prop :=
  ∀ (s : State) (p : Fin 32) (h : FlitHdr) (upper : Bool) (lanes : BitVec 8) (vc : Fin 6) (cause : Fin 16) (id : Ident) (ctrl : Word),
    let n := p.val
    let x := s.port n
    let st := s.portState n
    let c := s.reg (R.GW_CTRL n)
    let linked := st ∈ [4, 5, 6, 9]
    let kept := x.replay.filter (fun e => decide (0 < (e.seq + 4096 - h.ack.toNat) % 4096 ∧ (e.seq + 4096 - h.ack.toNat) % 4096 ≤ 2048))
    -- the port is down; packets in flits not acknowledged, and those begun, are lost; a link that exchanges flits carries a DOWN
    let down := fun (t : State) (why : Nat) (held : List TxFlit) => t.portState n = 7 ∧ t.portWidth n = 0 ∧
      t.reg (R.GW_CAUSE n) = BitVec.ofNat 16 why ∧ (t.reg (R.GW_EVT n)).getLsbD 1 = true ∧ (t.port n).replay = [] ∧
      t.reg (R.GW_LOST n) = BitVec.ofNat 16 (min 0xFFFF ((s.reg (R.GW_LOST n)).toNat + ((held.map TxFlit.ends).sum +
        (x.rest.toList.filter (fun r => r ≠ [])).length))) ∧
      (linked → ∃ g, (t.port n).last = some (.ctrl, g) ∧ g.payload = padTo 123 [BitVec.ofNat 16 (4 + 256 * why)] ∧
        g.crc = flitCrc .ctrl g.hdr g.payload ∧ g.hdr.ack = BitVec.ofNat 12 (x.rxNext + 4095) ∧ g.hdr.cvc.val = x.cvc % 8 ∧
        (∀ cv : Fin 6, cv.val = x.cvc → g.hdr.crdcum = BitVec.ofNat 8 (x.freed.get cv)) ∧
        (x.resend = 0 → x.degrade = none → h.nak = false → g.hdr.seq = BitVec.ofNat 12 x.txNext)) ∧
      (¬ linked → (t.port n).last = x.last) ∧ t.mem = s.mem ∧ t.cores = s.cores
    let downs := fun (i : Instr) (why : Nat) => ∃ t, exec i s = .next t ∧ down t why x.replay
    -- a half is chosen, and the partner told
    let degrades := fun (i : Instr) (up asked : Bool) => ∃ t, exec i s = .next t ∧ t.portState n = 9 ∧ t.portWidth n = (if up then 2 else 1) ∧
      (t.port n).degrade = some (up, s.time, asked) ∧ (t.port n).episode = none ∧ (t.reg (R.GW_EVT n)).getLsbD 2 = true ∧
      (t.port n).ctrl = x.ctrl ++ [[BitVec.ofNat 16 ((if asked then 2 else 3) + if up then 256 else 0)]] ∧ t.mem = s.mem ∧ t.cores = s.cores
    let same := fun (i : Instr) => exec i s = .next s
    let mayHalve := s.portWidth n = 3 ∧ c.getLsbD 3 = true
    let halves := fun (i : Instr) (up : Bool) => (mayHalve → degrades i up true) ∧ (¬ mayHalve → downs i 6)
    let quiet := x.queues.toList.flatten = [] ∧ s.stroke.electing = false
    let moves := fun (i : Instr) (next : Nat) (P : State → Prop) => ∃ t, exec i s = .next t ∧ t.portState n = next ∧ P t ∧ t.mem = s.mem
    -- the half with fewer uncorrectable codewords, then with fewer corrected symbols; of equal halves the one named
    let better : Bool := if x.epHigh = x.epLow then upper else decide (x.epHigh.1 < x.epLow.1 ∨ (x.epHigh.1 = x.epLow.1 ∧ x.epHigh.2 < x.epLow.2))
    let named := h.fvc.val < 6 ∧ h.cvc.val < 6
    s.gwUp n = true → quiet →
    (linked → ¬ named → ∀ i ∈ [Instr.degrade p h upper, .degradeAck p h upper, .ctrlDown p h cause, .ident p h id], ∃ t, exec i s = .next t ∧
      t.reg (R.GW_CRCERR n) = BitVec.ofNat 16 (min 0xFFFF ((s.reg (R.GW_CRCERR n)).toNat + 1)) ∧ t.portState n = st ∧
      (t.port n).replay = x.replay ∧ (t.port n).credit = x.credit ∧ (t.port n).degrade = x.degrade ∧ t.mem = s.mem) ∧
    (st = 5 →
      (∀ since k, x.episode = some (since, k) →
        (8 ≤ k ∨ since + 2000 ≤ s.time → halves (.retryExhaustion p upper) better ∧
          ∃ t, exec (.retryExhaustion p upper) s = .next t ∧ (t.reg (R.GW_EVT n)).getLsbD 5 = true) ∧
        (k < 8 → s.time < since + 2000 → same (.retryExhaustion p upper))) ∧
      (x.episode = none → same (.retryExhaustion p upper)) ∧
      (x.degrade = none → named → (mayHalve → degrades (.degrade p h upper) upper false) ∧
        (¬ mayHalve → ∃ t, exec (.degrade p h upper) s = .next t ∧ down t 6 kept)) ∧
      (x.waiting vc = true → 128 ≤ (x.sent.get vc + 256 - x.credit.get vc % 256) % 256 → downs (.creditTimeout p vc) 9) ∧
      (x.waiting vc = false → same (.creditTimeout p vc)) ∧
      ((x.sent.get vc + 256 - x.credit.get vc % 256) % 256 < 128 → same (.creditTimeout p vc)) ∧
      (lanes ≠ 0 → s.portWidth n = 3 →
        (lanes &&& 0x0F ≠ 0 → lanes &&& 0xF0 ≠ 0 → downs (.los p lanes) 5) ∧
        (lanes &&& 0xF0 = 0 → halves (.los p lanes) true) ∧ (lanes &&& 0x0F = 0 → halves (.los p lanes) false)) ∧
      (s.portWidth n = 1 → (lanes &&& 0x0F ≠ 0 → downs (.los p lanes) 5) ∧ (lanes &&& 0x0F = 0 → same (.los p lanes))) ∧
      (s.portWidth n = 2 → (lanes &&& 0xF0 ≠ 0 → downs (.los p lanes) 5) ∧ (lanes &&& 0xF0 = 0 → same (.los p lanes)))) ∧
    (st = 9 →
      (∀ u since, x.degrade = some (u, since, true) → downs (.degradeTimeout p) 6 ∧
        (named → s.devId < s.fld (R.GW_NBR n) 0 8 → same (.degrade p h upper)) ∧
        (named → s.fld (R.GW_NBR n) 0 8 ≤ s.devId → degrades (.degrade p h upper) upper false) ∧
        (named → u ≠ upper → same (.degradeAck p h upper)) ∧
        (named → u = upper → moves (.degradeAck p h upper) 5 (fun t => (t.port n).degrade = none ∧ (t.port n).replay = kept ∧
          (t.port n).resend = kept.length ∧ t.portWidth n = s.portWidth n))) ∧
      (∀ u since asked, x.degrade = some (u, since, asked) → ∃ t, exec (.degradeRepeat p) s = .next t ∧
        (t.port n).ctrl = x.ctrl ++ [[BitVec.ofNat 16 ((if asked then 2 else 3) + if u then 256 else 0)]] ∧ t.regs = s.regs ∧ t.mem = s.mem)) ∧
    (linked → named → ∃ t, exec (.ctrlDown p h cause) s = .next t ∧ down t 8 kept) ∧
    (¬ linked → same (.ctrlDown p h cause)) ∧
    (st ≠ 0 → st ≠ 7 → st ≠ 8 → downs (.gwCmdDown p) 7) ∧
    ((st = 0 ∨ st = 7 ∨ st = 8) → same (.gwCmdDown p)) ∧
    ((st = 5 ∨ st = 6 ∨ st = 9) → ∃ t, exec (.retrain p) s = .next t ∧ down t 7 x.replay ∧ (t.port n).redo = true) ∧
    (st ≠ 5 → st ≠ 6 → st ≠ 7 → st ≠ 9 → same (.retrain p)) ∧
    (st = 7 → moves (.retrain p) 7 (fun t => (t.port n).redo = true ∧ t.regs = s.regs) ∧
      ((c.getLsbD 1 = true ∨ x.redo = true) → moves (.downEnd p) 1 (fun t => (t.port n).redo = false)) ∧
      (c.getLsbD 1 = false → x.redo = false → same (.downEnd p))) ∧
    -- in TEST, with CHK, the bit errors of the pattern are counted by lane
    (st = 8 → ∀ f : Flit, (s.reg (R.GW_TEST n)).getLsbD 1 = true → ∃ t, exec (.idleFlit p f) s = .next t ∧ t.ports = s.ports ∧ t.mem = s.mem ∧
      ∀ l, l < 8 → t.reg (R.GW_LANECE n l) = BitVec.ofNat 16 (min 0xFFFF ((s.reg (R.GW_LANECE n l)).toNat + f.fixed.getD l 0))) ∧
    (st = 1 → (4 ≤ ((List.range 8).filter lanes.getLsbD).length → moves (.lightDetect p lanes) 2 (fun t => (t.port n).lit = lanes)) ∧
      (((List.range 8).filter lanes.getLsbD).length < 4 → same (.lightDetect p lanes))) ∧
    (st = 2 → (x.lit &&& ~~~ lanes = 0 → moves (.lockComplete p lanes) 3 (fun t => t.fld (R.GW_STAT n) 6 8 = lanes.toNat)) ∧
      (x.lit &&& ~~~ lanes ≠ 0 → same (.lockComplete p lanes)) ∧ downs (.trainingTimeout p) 10) ∧
    (st = 3 →
      let locked : BitVec 8 := BitVec.ofNat 8 (s.fld (R.GW_STAT n) 6 8)
      let aligns := fun (w : Nat) => moves (.alignComplete p) 4 (fun t => t.portWidth n = w ∧ (t.port n).ctrl.length = x.ctrl.length + 1)
      (s.bit R.GW_DEVID 15 = false → exec (.alignComplete p) s = .next (s.setReg (R.GW_CAUSE n) 4) ∧ same (.trainingTimeout p)) ∧
      (s.bit R.GW_DEVID 15 = true → (locked = 0xFF → aligns 3) ∧ (locked ≠ 0xFF → locked &&& 0x0F = 0x0F → aligns 1) ∧
        (locked &&& 0x0F ≠ 0x0F → locked &&& 0xF0 = 0xF0 → aligns 2) ∧
        (locked &&& 0x0F ≠ 0x0F → locked &&& 0xF0 ≠ 0xF0 → same (.alignComplete p)) ∧ downs (.trainingTimeout p) 10)) ∧
    (st = 4 → downs (.trainingTimeout p) 10) ∧
    ((st = 4 ∨ st = 6) → named →
      let nbr := BitVec.ofNat 16 (id.id.toNat + id.port.val * 256 + 0x8000)
      let own := s.devId
      let g := own / 16
      let m := own % 16
      let strange := n < 30 ∧ c.getLsbD 2 = true ∧
        (if n < 15 then (g * 16 + (m + n + 1) % 16, 14 - n) else ((g + n - 14) % 16 * 16 + m, 44 - n)) ≠ (id.id.toNat, id.port.val)
      let holds := fun (why : Nat) => moves (.ident p h id) 6 (fun t => t.reg (R.GW_CAUSE n) = BitVec.ofNat 16 why ∧
        (t.reg (R.GW_EVT n)).getLsbD 3 = true ∧ t.reg (R.GW_NBR n) = nbr ∧ t.ports = s.ports)
      (id.sysid ≠ s.reg R.GW_SYSID → holds 1) ∧
      (id.sysid = s.reg R.GW_SYSID → id.id.toNat = own → holds 2) ∧
      (id.sysid = s.reg R.GW_SYSID → id.id.toNat ≠ own → strange → holds 3) ∧
      (id.sysid = s.reg R.GW_SYSID → id.id.toNat ≠ own → ¬ strange → moves (.ident p h id) 5 (fun t =>
        t.reg (R.GW_NBR n) = nbr ∧ (t.reg (R.GW_EVT n)).getLsbD 0 = true ∧ t.portWidth n = s.portWidth n ∧ (t.port n).rxNext = 0 ∧
        (t.port n).txNext = 0 ∧ (t.port n).replay = [] ∧ (t.port n).ctrl = x.ctrl ∧ (t.port n).lastNbr = some (id.id.toNat, id.port.val) ∧
        (∀ q, x.lastNbr = some q → q ≠ (id.id.toNat, id.port.val) → (t.reg (R.GW_EVT n)).getLsbD 4 = true)))) ∧
    (st = 6 → ∃ t, exec (.heldIdent p) s = .next t ∧ (t.port n).ctrl.length = x.ctrl.length + 1 ∧ t.regs = s.regs ∧
      (∀ w, (t.port n).ctrl.getLast? = some w → w.getD 0 0 = BitVec.ofNat 16 (1 + 256 * s.devId))) ∧
    (c.getLsbD 0 = ctrl.getLsbD 0 → exec (.portEnable p ctrl) s = .next (s.setReg (R.GW_CTRL n) (ctrl &&& 0x1F))) ∧
    (c.getLsbD 0 = false → ctrl.getLsbD 0 = true → moves (.portEnable p ctrl) 1 (fun t => t.reg (R.GW_CTRL n) = ctrl &&& 0x1F ∧
      t.reg (R.GW_NBR n) = s.reg (R.GW_NBR n) &&& 0x7FFF)) ∧
    (c.getLsbD 0 = true → ctrl.getLsbD 0 = false → moves (.portEnable p ctrl) (if s.reg (R.GW_TEST n) = 0 then 0 else 8) (fun t =>
      t.reg (R.GW_CTRL n) = ctrl &&& 0x1F ∧ (st ∈ [4, 5, 6, 9] → t.reg (R.GW_CAUSE n) = 7)))

/-! ## Remote memory access (spec/11, spec/12) -/

/-- R327–R338, R341, R342, R345, R349, R368, R380: window entries; the checks of a request at its target, its effect and its answer,
duplicates, gaps and refusals; RMA_TIMEOUT. The refusal of a word of the cox region is the model's reading (log entry 33). -/
def Obligations.RemoteRequestsAtTheirTarget : Prop :=
  (∀ (s : State) (w : Fin 4096) (ctrl : Word), s.meshUp = true →
    let a := R.WIN_CTRL w.val
    let old := s.reg a
    let base := (s.reg32 (R.WIN_BASE_LO w.val)).toNat
    let len := (s.reg32 (R.WIN_LEN_LO w.val)).toNat
    let fails := exec (.windowOpen w ctrl) s = .next ((s.setReg a (((ctrl ||| 1) &&& 0x03FE) ||| (old &&& 0x0400) ||| 0x0800)).setReg R.RMA_EVT
      (s.reg R.RMA_EVT ||| 1))
    (old.getLsbD 0 = false → s.winOk w.val = true → exec (.windowOpen w ctrl) s = .next (s.setReg a ((ctrl ||| 1) &&& 0x03FF))) ∧
    (old.getLsbD 0 = false →
      ((base % 4096 ≠ 0 ∨ len % 4096 ≠ 0 ∨ len = 0 ∨ old.getLsbD 10 = true ∨ s.laneOf (s.fld (R.WIN_HCREW w.val) 0 7) ≠ s.fld (R.WIN_LANE w.val) 0 10 ∨
        s.laneOf (memCrew base) ≠ s.fld (R.WIN_LANE w.val) 0 10 ∧ memCrew base < 96 ∧ memCrew base ≤ memCrew (base + len - 1)) → fails)) ∧
    (old.getLsbD 0 = true → exec (.windowOpen w ctrl) s = .next (s.setReg a (((ctrl ||| 1) &&& 0x03FF) ||| (old &&& 0x0C00)))) ∧
    (∃ t, exec (.windowClose w ctrl) s = .next t ∧ t.reg a = (ctrl &&& 0x03FE) ||| (old &&& 0x0C00) ∧ (∀ y, y ≠ a → t.reg y = s.reg y) ∧
      t.mem = s.mem ∧ (old.getLsbD 0 = true → ∀ e ∈ t.rxc, e.1 % 1024 ≠ s.fld (R.WIN_LANE w.val) 0 10) ∧
      (old.getLsbD 0 = false → t.rxc = s.rxc)) ∧
    (let us := ctrl.toNat % 1024
     ∃ t, exec (.rmaTimeoutWrite ctrl) s = .next t ∧ t.reg R.RMA_TIMEOUT = BitVec.ofNat 16 us ∧ t.reg R.RMA_TMOEFF = BitVec.ofNat 16 (max us 12) ∧
      t.reg R.RMA_EVT = (if us < 12 then s.reg R.RMA_EVT ||| 8 else s.reg R.RMA_EVT) ∧ t.mem = s.mem)) ∧
  (∀ (s : State) (p : Option (Fin 32)) (q : TQueued),
    let k := q.pkt
    let key := (k.src * 32 + k.sq) * 1024 + k.lane
    let ctx := s.rxCtx key
    let ahead := (k.seq - ctx.next).toNat
    let wash := match p with
      | none => false
      | some pp => decide (s.fld R.RMA_WASHTHR 0 10 < (s.port pp.val).requestFlits)
    let ctrl := s.reg (R.WIN_CTRL k.win)
    let start := (s.reg32 (R.WIN_BASE_LO k.win)).toNat + k.offset.toNat
    let addrs := (List.range k.span).map (fun i => start + i)
    let count := fun (t : State) (a : Nat) => t.reg a = BitVec.ofNat 16 (min 0xFFFF ((s.reg a).toNat + 1))
    let who : MeshReq := match p with | none => .own | some pp => .port pp.val
    let answers := fun (t : State) => s.answersRequest t who k wash
    -- its accesses to memory go into the mesh: those of a READ once the accesses of its stream's earlier requests are done
    let earlier := ∃ o ∈ s.ops, o.stream = some (k.src, k.sq, k.lane)
    let begins := fun (t : State) => t.mem = s.mem ∧ t.cores = s.cores ∧ ∃ o : MemOp, t.ops = s.ops ++ [o] ∧ o.who = who ∧
      s.opTag who = some o.tag ∧ o.use = .remote k wash ∧ o.got = [] ∧ o.bad = none ∧
      (0 < k.span → k.ptype = .read → earlier → o.todo ≠ [] ∧ t.atInput who.router who.input 0 = s.atInput who.router who.input 0) ∧
      ((k.ptype = .read → ¬ earlier) → o.todo = [] ∧ (0 < k.span → k.span ≤ 128 → (∀ a ∈ addrs, memCrew a = memCrew start) → o.left = 1 ∧
        ∃ a : Packet, t.atInput who.router who.input 0 = s.atInput who.router who.input 0 ++ [a] ∧ a.req = who ∧ a.tag = o.tag ∧
          a.dst = memCrew start ∧ a.exit = .crew ∧ a.lane = k.lane ∧ a.poison = false ∧
          (k.ptype = .read → a.kind = .read ∧ a.addr = start ∧ a.len = k.span) ∧
          (k.ptype ≠ .read → a.kind = .write ∧ a.words = addrs.zip k.data)))
    let effect := if k.ptype = .write then exec (.writePacket p) s else if k.ptype = .read then exec (.readPacket p) s else exec (.hailPacket p) s
    let gives := fun (P : State → Prop) => ∃ t, effect = .next t ∧ P t
    let taken := fun (t : State) => (t.rxCtx key).next = k.seq + 1 ∧ (t.rxCtx key).epoch = k.epoch
    let refused := fun (code : Nat) => gives (fun t => t.mem = s.mem ∧ t.cores = s.cores ∧ answers t .nak k.seq (BitVec.ofNat 16 code) [] ∧
      count t (R.WIN_NAKS k.win) ∧ count t (R.RMA_NAKTX (code - 1)) ∧ (t.reg R.RMA_EVT).getLsbD 5 = true)
    s.meshUp = true → (p = none → s.ownIn = [q]) → (∀ pp, p = some pp → (s.port pp.val).inbox = [q]) → k.dst = s.devId → k.win < 4096 →
    (k.ptype = .write ∨ k.ptype = .read ∨ k.ptype = .hail) → (∀ o ∈ s.ops, o.todo = []) →
    ((s.opTag who = none ∨ s.clogged 0 who = true) → effect = .next s) ∧
    (s.opTag who ≠ none → s.clogged 0 who = false →
    -- the window's checks, in their order
    (ctrl.getLsbD 10 = true → s.windowCheck k = 6) ∧
    (ctrl.getLsbD 10 = false →
      (ctrl.getLsbD 0 = false → s.windowCheck k = 5) ∧
      (ctrl.getLsbD 0 = true →
        (k.lane ≠ s.fld (R.WIN_LANE k.win) 0 10 → s.windowCheck k = 1) ∧
        (k.lane = s.fld (R.WIN_LANE k.win) 0 10 →
          (k.key ≠ s.reg32 (R.WIN_KEY_LO k.win) → s.windowCheck k = 2) ∧
          (k.key = s.reg32 (R.WIN_KEY_LO k.win) →
            let allowed := (k.ptype = .write ∧ ctrl.getLsbD 2 = true) ∨
              (k.ptype = .read ∧ (ctrl.getLsbD 1 = true ∨ k.verify = true ∧ ctrl.getLsbD 2 = true)) ∨ (k.ptype = .hail ∧ ctrl.getLsbD 3 = true)
            (¬ allowed → s.windowCheck k = 3) ∧
            (allowed → (s.reg32 (R.WIN_LEN_LO k.win)).toNat < k.offset.toNat + k.span → s.windowCheck k = 4) ∧
            (allowed → k.offset.toNat + k.span ≤ (s.reg32 (R.WIN_LEN_LO k.win)).toNat →
              let astray := k.ptype = .hail ∧ s.laneOf (s.fld (R.WIN_HCREW k.win) 0 7) ≠ k.lane
              let closed := k.lane ≠ 0 ∧ ∃ a ∈ addrs, s.inCoxRegion a = true
              (astray → s.windowCheck k = 6) ∧ (¬ astray → closed → s.windowCheck k = 1) ∧
              (¬ astray → ¬ closed → s.windowCheck k = if ∀ a ∈ addrs, s.globalPlace a = .mem a ∧ s.crewMem (memCrew a) = true then 0 else 9)))))) ∧
    (s.time ≤ q.arrived + 100000 →
      (ctx.epoch = k.epoch → ahead = 0 →
        (s.windowCheck k = 0 → gives (fun t => begins t ∧ taken t)) ∧
        (∀ code, s.windowCheck k = code → code ≠ 0 → refused code)) ∧
      (ctx.epoch = k.epoch → 2 ^ 31 ≤ ahead → (∀ e ∈ ctx.naks, e.1 ≠ k.seq.toNat) → gives (fun t => t.mem = s.mem ∧ count t R.RMA_DUP ∧
        answers t .ack k.seq 0x10 [] ∧ (t.rxCtx key).next = ctx.next)) ∧
      (ctx.epoch = k.epoch → 0 < ahead → ahead < 2 ^ 31 →
        (ctx.gapAt = none → gives (fun t => t.mem = s.mem ∧ count t R.RMA_GAP ∧ answers t .ack ctx.next 0x20 [] ∧ (t.rxCtx key).next = ctx.next ∧
          (t.rxCtx key).gapAt = some s.time)) ∧
        (∀ g, ctx.gapAt = some g → s.time < g + 2000 → gives (fun t => t.mem = s.mem ∧ t.regs = s.regs))) ∧
      (ctx.epoch ≠ k.epoch → (k.syn = false ∨ k.seq ≠ 0) → refused 7) ∧
      (ctx.epoch ≠ k.epoch → k.syn = true → k.seq = 0 → s.rxc.length < 4096 → s.windowCheck k = 0 → gives (fun t =>
        begins t ∧ (t.rxCtx key).next = 1 ∧ (t.rxCtx key).epoch = k.epoch))) ∧
    (q.arrived + 100000 < s.time → gives (fun t => t.mem = s.mem ∧ t.rxc = s.rxc ∧ count t R.RMA_AGEDROP)))) ∧
  -- the last answer to its accesses leaves the mesh, and the request is answered
  (∀ (s : State) (r : Fin 96) (i : Nat) (a : Packet) (o : MemOp) (k : Tpkt) (wash : Bool), s.meshUp = true → i < 7 → i ≠ 1 →
    s.meshIn r.val i 1 = [a] → (∀ j v, (j, v) ≠ (i, 1) → s.meshIn r.val j v = []) → mapGet (fun _ => []) s.meshWait (meshKey r.val i 1) = [] →
    a.vc = 1 → a.load = none → routeOut r.val a = 5 → a.flits ≤ 8 → a.promoted = false → s.overAge a = false → s.holder r.val 5 1 = none →
    s.ops = [o] → o.who = a.req → o.tag = a.tag → o.use = .remote k wash → o.todo = [] → o.left = 1 → o.bad = none → k.win < 4096 →
    let addrs := (List.range k.span).map (fun j => (s.reg32 (R.WIN_BASE_LO k.win)).toNat + k.offset.toNat + j)
    let count := fun (t : State) (x : Nat) => t.reg x = BitVec.ofNat 16 (min 0xFFFF ((s.reg x).toNat + 1))
    let hc := s.fld (R.WIN_HCREW k.win) 0 7
    let eq := s.fld (R.WIN_CTRL k.win) 4 5
    let cnt := k.param.toNat / 4 % 64
    let allowed := (s.reg (R.WIN_CTRL k.win)).getLsbD 9 = true ∧ s.crewUp hc = true
    let ends := fun (P : State → Prop) => ∃ t, exec (.routerArbitration r ⟨5, .none⟩) s = .next t ∧ t.ops = [] ∧ P t
    let answers := fun (t : State) => s.answersRequest t o.who k wash
    (a.kind ≠ .error → a.poison = false →
      (k.ptype = .write → ends (fun t => answers t .ack k.seq 0 [] ∧ t.cores = s.cores ∧ t.mem = s.mem)) ∧
      (k.ptype = .read → ends (fun t => t.cores = s.cores ∧ t.mem = s.mem ∧ answers t .rdata k.seq (BitVec.ofNat 16 k.span) (addrs.map (fun w =>
        (((o.got ++ a.words).find? (fun e => e.1 == w)).map Prod.snd).getD 0)))) ∧
      (k.ptype = .hail →
        (k.param.getLsbD 8 = false → ends (fun t => answers t .ack k.seq 0 [] ∧ t.mem = s.mem ∧
          (s.crewUp hc = true → s.crewKilled hc = false → t.reg32 (R.COX_CNT_LO hc cnt) = s.reg32 (R.COX_CNT_LO hc cnt) + 1))) ∧
        (k.param.getLsbD 8 = true → allowed → s.takesEvent hc eq = true → ends (fun t => answers t .ack k.seq 0 [] ∧
          t.reg (R.COX_Q_TAIL hc eq) = BitVec.ofNat 16 ((s.qTail hc eq + 1) % 2048))) ∧
        (k.param.getLsbD 8 = true → ¬ allowed → ends (fun t => answers t .ack k.seq 0x40 [] ∧ count t R.RMA_EVDROP ∧ t.mem = s.mem)))) ∧
    (a.kind = .error → ends (fun t => t.cores = s.cores ∧ t.mem = s.mem ∧
      answers t .nak k.seq (if a.cause = .unpowered ∨ a.cause = .unmapped then 9 else 8) [] ∧ count t (R.WIN_NAKS k.win) ∧
      (t.reg R.RMA_EVT).getLsbD 5 = true)))

/-- R339, R340, R343–R348, R350, R369: sequencing of hails and engines' requests, responses, the attempt timer and failure, the
close of a context and its quarantine, and the rise of a rate. TAG, tokens, RATE_INCREASE and the count of failures are the
model's reading (log entries 33 and 34). -/
def Obligations.RemoteRequestsAtTheirInitiator : Prop :=
  (∀ (s : State) (crew : Fin 96) (n : Fin 4), s.meshUp = true → s.crewUp crew.val = true → s.crewKilled crew.val = false →
    let sends := fun (t : State) (src : MeshReq) (raw : Tpkt) =>
      let key := (raw.sq * 1024 + raw.lane) * 256 + raw.dst
      let c := s.iniCtx key
      let seq := if c.live then c.next else 0
      let k : Tpkt := { raw with hops := 3, src := s.devId, syn := !c.live, epoch := c.epoch, seq := seq, tag := seq.setWidth 16 }
      (t.iniCtx key).live = true ∧ (t.iniCtx key).next = seq + 1 ∧ (t.iniCtx key).out.map RmaReq.pkt = c.out.map RmaReq.pkt ++ [k] ∧
      s.sendsPacket t src k ∧ t.mem = s.mem
    let free := fun (raw : Tpkt) =>
      let c := s.iniCtx ((raw.sq * 1024 + raw.lane) * 256 + raw.dst)
      s.mayLeave raw.dst = true ∧
      (c.live = true ∨ (s.ini.filter (fun e => e.2.live)).length < 4096 ∧ ∀ t0, c.lastAt = some t0 → t0 + 500000 ≤ s.time)
    ((s.schedOf crew.val).hails = [] → exec (.requestSequenced (.hailPort crew)) s = .next s) ∧
    (s.clogged 0 (.hail crew.val) = true → exec (.requestSequenced (.hailPort crew)) s = .next s) ∧
    (∀ h rest, s.clogged 0 (.hail crew.val) = false → (s.schedOf crew.val).hails = h :: rest → h.engine = none → free h.request → ∃ t,
      exec (.requestSequenced (.hailPort crew)) s = .next t ∧ sends t (.hail crew.val) h.request ∧ (t.schedOf crew.val).hails = rest ∧
      h.request.ptype = .hail ∧ h.request.dst = h.dev ∧ h.request.win = h.win ∧ h.request.data = h.data) ∧
    (s.engineRequest crew.val n.val = none → exec (.requestSequenced (.engine crew n)) s = .next s) ∧
    (∀ raw kind len, s.engineRequest crew.val n.val = some (raw, kind, len) → free raw →
      (s.dmaWinner crew.val = some n.val → kind ≠ .write → ∃ t, exec (.requestSequenced (.engine crew n)) s = .next t ∧
        sends t (.dma crew.val n.val) raw ∧ (t.eng crew.val n.val).tag = (s.eng crew.val n.val).tag + 1) ∧
      (s.dmaWinner crew.val ≠ some n.val → exec (.requestSequenced (.engine crew n)) s = .next s))) ∧
  (∀ (s : State) (p : Option (Fin 32)) (q : TQueued),
    let k := q.pkt
    let key := (k.sq * 1024 + k.lane) * 256 + k.src
    let c := s.iniCtx key
    let count := fun (t : State) (a n : Nat) => t.reg a = BitVec.ofNat 16 (min 0xFFFF ((s.reg a).toNat + n))
    let others := fun (r : RmaReq) => c.out.filter (fun x => x.pkt.seq != r.pkt.seq)
    let here := c.live = true ∧ c.epoch = k.epoch
    s.meshUp = true → (p = none → s.ownIn = [q]) → (∀ pp, p = some pp → (s.port pp.val).inbox = [q]) → k.dst = s.devId → k.wash = false →
    s.time ≤ q.arrived + 100000 →
    (k.ptype = .ack →
      (¬ here → ∃ t, exec (.ack p) s = .next t ∧ count t R.RMA_STALE 1 ∧ t.ini = s.ini ∧ t.mem = s.mem) ∧
      (here → k.param.getLsbD 5 = false →
        (∀ r, c.out.find? (fun x => x.pkt.seq == k.seq && x.pkt.tag == k.tag) = some r → r.pkt.ptype ≠ .read →
          ((r.origin = .nobody ∨ ∃ crew, r.origin = .hail crew) → ∃ t, exec (.ack p) s = .next t ∧ (t.iniCtx key).out = others r ∧ t.regs = s.regs ∧
            t.mem = s.mem) ∧
          (∀ crew n tag, r.origin = .posted crew n tag → ∃ u : State, exec (.ack p) s = .next (u.dmaClose crew n tag) ∧ u.regs = s.regs ∧
            u.mem = s.mem ∧ u.dma = s.dma ∧ (u.iniCtx key).out = others r) ∧
          (∀ crew n tag e, r.origin = .engine crew n tag → s.engReq crew n tag = some e → ∃ u : State,
            exec (.ack p) s = .next (u.dmaAnswer crew n e []) ∧ u.regs = s.regs ∧ u.mem = s.mem ∧ u.dma = s.dma ∧
            (u.iniCtx key).out = others r)) ∧
        (c.out.find? (fun x => x.pkt.seq == k.seq && x.pkt.tag == k.tag) = none → ∃ t, exec (.ack p) s = .next t ∧ count t R.RMA_STALE 1 ∧
          t.ini = s.ini ∧ t.mem = s.mem)) ∧
      (∀ r, here → k.param.getLsbD 5 = true → c.out = [r] → r.pkt.seq = k.seq → ∃ t, exec (.ack p) s = .next t ∧ count t R.RMA_RETX 1 ∧
        (t.iniCtx key).out = [{ r with sentAt := s.time }] ∧ t.mem = s.mem ∧
        s.sendsPacket t (r.origin.source r.pkt.ptype) { r.pkt with retx := true })) ∧
    (k.ptype = .rdata → here → ∀ r, c.out.find? (fun x => x.pkt.seq == k.seq && x.pkt.tag == k.tag) = some r →
      (r.pkt.ptype = .read → r.origin = .nobody → ∃ t, exec (.rdata p) s = .next t ∧ (t.iniCtx key).out = others r ∧ t.mem = s.mem ∧
        t.regs = s.regs) ∧
      (∀ crew n tag e, r.pkt.ptype = .read → r.origin = .engine crew n tag → s.engReq crew n tag = some e → ∃ u : State,
        exec (.rdata p) s = .next (u.dmaAnswer crew n e k.data) ∧ u.regs = s.regs ∧ u.mem = s.mem ∧ u.dma = s.dma ∧
        (u.iniCtx key).out = others r) ∧
      (r.pkt.ptype ≠ .read → ∃ t, exec (.rdata p) s = .next t ∧ count t R.RMA_STALE 1 ∧ t.ini = s.ini ∧ t.mem = s.mem)) ∧
    (k.ptype = .nak → here →
      (k.param = 7 → (∀ x ∈ c.out, x.origin = .nobody) → ∃ t, exec (.nak p) s = .next t ∧ (t.iniCtx key).out = [] ∧ (t.iniCtx key).live = false ∧
        (t.iniCtx key).epoch = (c.epoch + 1) % 256 ∧ count t R.RMA_SEQRST 1 ∧ t.mem = s.mem) ∧
      (∀ r crew, k.param ≠ 7 → k.param ≠ 10 → c.out.find? (fun x => x.pkt.seq == k.seq && x.pkt.tag == k.tag) = some r →
        r.origin = .hail crew → crew < 96 → (s.reg (R.RMA_HAILST crew)).getLsbD 15 = false → ∃ t, exec (.nak p) s = .next t ∧
        (t.iniCtx key).out = others r ∧ (t.reg R.RMA_EVT).getLsbD 4 = true ∧ t.mem = s.mem ∧
        t.reg (R.RMA_HAILST crew) = BitVec.ofNat 16 (k.param.toNat % 16 + r.pkt.sq * 16 + 0x8000) ||| (s.reg (R.RMA_HAILST crew) &&& 0x4000)) ∧
      (∀ r, k.param = 10 → c.out.find? (fun x => x.pkt.seq == k.seq && x.pkt.tag == k.tag) = some r →
        (r.tries + 1 ≤ s.fld R.RMA_CTRL 1 3 → ∃ t, exec (.nak p) s = .next t ∧ t.regs = s.regs ∧ t.mem = s.mem ∧
          t.iniCtx key = { c with out := c.out.map (fun x => if x.pkt.seq = r.pkt.seq then { x with sentAt := s.time } else x) }) ∧
        (s.fld R.RMA_CTRL 1 3 < r.tries + 1 → (∀ x ∈ c.out, x.origin = .nobody) → ∃ t, exec (.nak p) s = .next t ∧ (t.iniCtx key).out = [] ∧
          (t.iniCtx key).live = false ∧ count t R.RMA_FAILED c.out.length ∧ count t R.RMA_SEQRST 1 ∧ t.mem = s.mem)))) ∧
  (∀ (s : State) (sq : Fin 32) (lane : Fin 1024) (dev : Fin 256) (seq : BitVec 32), s.meshUp = true →
    let key := (sq.val * 1024 + lane.val) * 256 + dev.val
    let c := s.iniCtx key
    let limit := s.fld R.RMA_CTRL 1 3
    let rate := (s.reg (R.RMA_RATE dev.val)).toNat
    let l := s.limiter dev.val
    let step := 1000 * max 1 ((s.reg R.RMA_INC).toNat % 256)
    let last := max (l.cutAt.getD 0) l.incAt
    let due := last + step ≤ s.time ∧ ∀ w, l.washAt = some w → w ≤ last ∨ w + step ≤ s.time
    ((∀ r ∈ c.out, r.pkt.seq ≠ seq) → exec (.attemptTimeout sq lane dev seq) s = .next s) ∧
    (∀ r, c.out = [r] → r.pkt.seq = seq →
      (s.time < r.sentAt + 1000 * s.fld R.RMA_TMOEFF 0 10 → exec (.attemptTimeout sq lane dev seq) s = .next s) ∧
      (r.sentAt + 1000 * s.fld R.RMA_TMOEFF 0 10 ≤ s.time →
        (r.tries + 1 ≤ limit → ∃ t, exec (.attemptTimeout sq lane dev seq) s = .next t ∧
          (t.iniCtx key).out = [{ r with tries := r.tries + 1, sentAt := s.time }] ∧
          s.sendsPacket t (r.origin.source r.pkt.ptype) { r.pkt with retx := true } ∧
          t.reg R.RMA_RETX = BitVec.ofNat 16 (min 0xFFFF ((s.reg R.RMA_RETX).toNat + 1)) ∧ t.mem = s.mem) ∧
        (limit < r.tries + 1 → r.origin = .nobody → ∃ t, exec (.attemptTimeout sq lane dev seq) s = .next t ∧ (t.iniCtx key).out = [] ∧
          (t.iniCtx key).live = false ∧ (t.iniCtx key).epoch = (c.epoch + 1) % 256 ∧ (t.reg R.RMA_EVT).getLsbD 4 = true ∧
          t.reg R.RMA_FAILED = BitVec.ofNat 16 (min 0xFFFF ((s.reg R.RMA_FAILED).toNat + 1)) ∧ t.mem = s.mem))) ∧
    (c.live = true ∧ c.out = [] ∧ c.idleAt + 500000 ≤ s.time → ∃ t, exec (.contextClose sq lane dev) s = .next t ∧
      t.iniCtx key = ⟨false, (c.epoch + 1) % 256, 0, [], none, 0⟩ ∧ t.regs = s.regs ∧ t.mem = s.mem) ∧
    ((c.live = false ∨ c.out ≠ [] ∨ s.time < c.idleAt + 500000) → exec (.contextClose sq lane dev) s = .next s) ∧
    (c.live = false → (∀ t0, c.lastAt = some t0 → t0 + 500000 ≤ s.time) → ∃ t, exec (.quarantineEnd sq lane dev) s = .next t ∧
      t.iniCtx key = { c with lastAt := none } ∧ t.regs = s.regs ∧ t.mem = s.mem) ∧
    ((c.live = true ∨ ∃ t0, c.lastAt = some t0 ∧ s.time < t0 + 500000) → exec (.quarantineEnd sq lane dev) s = .next s) ∧
    (due → ∃ t, exec (.rateIncrease dev) s = .next t ∧
      t.reg (R.RMA_RATE dev.val) = BitVec.ofNat 16 (min 1024 (rate + (s.reg R.RMA_INC).toNat / 256)) ∧
      (∀ a, a ≠ R.RMA_RATE dev.val → t.reg a = s.reg a) ∧ t.mem = s.mem) ∧
    (¬ due → exec (.rateIncrease dev) s = .next s))

/-! ## Lanes (spec/13) -/

/-- R376–R380, R383–R390: activation and assignment of crews, the kill, the drain, the zero pass, the end of the scrub and the
release of a retained lane. OVERTIME after a RELEASE is the model's choice (log entry 81); what a kill leaves to the scrub is
its reading (log entry 35). -/
def Obligations.LaneSlots : Prop :=
  ∀ (s : State) (k : Fin 16) (who : Requester) (crew : Fin 96) (v key : Word), s.meshUp = true →
    let st := s.slotState k.val
    let lane := s.slotLane k.val
    let mine := fun (c : Nat) => c < 96 ∧ (s.reg (R.LANE_CREW c)).getLsbD 4 = true ∧ (s.reg (R.LANE_CREW c)).toNat % 16 = k.val
    let evt := fun (t : State) (n : Nat) => (t.reg (R.LANE_SLOT_EVT k.val)).getLsbD n = true
    let same := fun (i : Instr) => exec i s = .next s
    let ignored := fun (i : Instr) => ∃ t, exec i s = .next t ∧ evt t 4 ∧ t.mem = s.mem ∧ t.cores = s.cores ∧
      (∀ a, a ≠ R.LANE_SLOT_EVT k.val → t.reg a = s.reg a)
    let ktime := (s.uptime - mapGet (fun _ => 0) s.killAt k.val + 9) / 10
    let free := s.slotLane k.val ≠ 0 ∧ ∀ j, j < 16 → j ≠ k.val → s.slotState j ≠ 0 → s.slotLane j ≠ lane
    let killed := fun (t : State) (retain : Bool) => t.slotState k.val = 2 ∧ (t.reg (R.LANE_SLOT_STAT k.val)).getLsbD 10 = retain ∧ evt t 0 ∧
      t.reg (R.LANE_TABLE_KILLS lane) = BitVec.ofNat 16 (min 0xFFFF ((s.reg (R.LANE_TABLE_KILLS lane)).toNat + 1)) ∧
      mapGet (fun _ => 0) t.killAt k.val = s.uptime ∧ ((∀ c, mine c → (s.cache c).busy ≠ some .disable) → t.mem = s.mem) ∧
      (∀ c : Fin 96, mine c.val → (t.reg (R.LANE_CEVT c.val)).getLsbD 0 = true ∧ t.reg (R.LANE_CREW c.val) = s.reg (R.LANE_CREW c.val) ∧
        (∀ n : Fin 8, (t.core (.seat c n)).mode = .idle ∧ (t.core (.seat c n)).task = none) ∧ (t.schedOf c.val).heads = [] ∧
        t.cache c.val = ⟨[], none⟩ ∧ (t.reg (R.COX_CC_STAT c.val)).getLsbD 0 = false ∧
        (∀ q, q < 32 → t.reg (R.COX_Q_CTRL c.val q) = s.reg (R.COX_Q_CTRL c.val q) ∧ t.qState c.val q = 0)) ∧
      (∀ c : Fin 96, ¬ mine c.val → ∀ n, t.core (.seat c n) = s.core (.seat c n)) ∧
      (∀ w, w < 4096 → lane ≠ 0 → s.fld (R.WIN_LANE w) 0 10 = lane →
        (t.reg (R.WIN_CTRL w)).getLsbD 0 = false ∧ (t.reg (R.WIN_CTRL w)).getLsbD 10 = true)
    (st = 0 → free → ∃ t, exec (.activate k) s = .next t ∧ t.slotState k.val = 1 ∧ (∀ a, a ≠ R.LANE_SLOT_STAT k.val → t.reg a = s.reg a) ∧
      t.mem = s.mem ∧ t.cores = s.cores) ∧
    ((st ≠ 0 ∨ ¬ free) → ignored (.activate k)) ∧
    (who ≠ .host → same (.release who k)) ∧
    (who = .host → st ≠ 4 → ignored (.release who k)) ∧
    (who = .host → st = 4 → ∃ t, exec (.release who k) s = .next t ∧ t.slotState k.val = 3 ∧ mapGet (fun _ => 0) t.killAt k.val = s.uptime ∧
      (∀ a, a ≠ R.LANE_SLOT_STAT k.val → t.reg a = s.reg a) ∧ t.mem = s.mem) ∧
    (s.crewUp crew.val = true → v.toNat % 16 = k.val →
      let a := R.LANE_CREW crew.val
      let refused := fun (t : State) => (t.reg (R.LANE_CEVT crew.val)).getLsbD 2 = true ∧ t.reg a = s.reg a ∧ t.mem = s.mem ∧ t.cores = s.cores
      let quiet := v.getLsbD 4 = true ∧ (s.reg (R.LANE_SLOT_CTRL k.val)).getLsbD 0 = true
      ((s.reg a).getLsbD 4 = false → (v.getLsbD 4 = false ∨ st = 1) → ¬ quiet → exec (.crewAssign crew v) s = .next (s.setReg a (v &&& 0x0F1F))) ∧
      ((s.reg a).getLsbD 4 = false → st = 1 → quiet → ∃ t, exec (.crewAssign crew v) s = .next t ∧ t.reg a = v &&& 0x0F1F ∧
        t.fld (R.PWR_BAL crew.val) 0 7 = 0 ∧ (∀ y, y ≠ a → y ≠ R.PWR_BAL crew.val → t.reg y = s.reg y) ∧ t.mem = s.mem ∧ t.cores = s.cores) ∧
      (v.getLsbD 4 = true → ((s.reg a).getLsbD 4 = true ∨ st ≠ 1) → ∃ t, exec (.crewAssign crew v) s = .next t ∧ refused t ∧ evt t 4) ∧
      (v.getLsbD 4 = false → (s.reg a).getLsbD 4 = true → ∃ t, exec (.crewAssign crew v) s = .next t ∧ refused t)) ∧
    (v.toNat % 16 = k.val →
      (st = 1 → ∃ t, exec (.laneKill who v) s = .next t ∧ killed t (v.getLsbD 4 && decide (who = .host))) ∧
      (st ≠ 1 → ignored (.laneKill who v))) ∧
    ((s.fn (k.val + 1)).present = true →
      (st = 1 → ∃ t, exec (.vfKill k 0x8001) s = .next t ∧ killed t false) ∧ (st ≠ 1 → ignored (.vfKill k 0x8001)) ∧
      (key ≠ 0x8001 → same (.vfKill k key))) ∧
    ((s.fn (k.val + 1)).present = false → same (.vfKill k key)) ∧
    ((st ≠ 2 ∨ s.drained (s.slotCrews k.val) = false) → same (.drainEnd k)) ∧
    (st = 2 → s.routers = [] → s.exits = [] → s.meshWait = [] → s.ops = [] → s.banks = [] →
      ((s.reg (R.LANE_SLOT_STAT k.val)).getLsbD 10 = false → ∃ t, exec (.drainEnd k) s = .next t ∧ t.slotState k.val = 3 ∧
        (∀ a, a ≠ R.LANE_SLOT_STAT k.val → t.reg a = s.reg a) ∧ t.mem = s.mem) ∧
      ((s.reg (R.LANE_SLOT_STAT k.val)).getLsbD 10 = true → ∃ t, exec (.drainEnd k) s = .next t ∧ t.slotState k.val = 4 ∧ evt t 1 ∧
        t.reg32 (R.LANE_SLOT_KTIME_LO k.val) = BitVec.ofNat 32 ktime ∧ t.mem = s.mem)) ∧
    (st ≠ 3 → same (.zeroPassEnd k) ∧ same (.scrubEnd k)) ∧
    (st = 3 →
      (s.zeroPass.getLsbD k.val = false → same (.scrubEnd k)) ∧
      (∃ t, exec (.zeroPassEnd k) s = .next t ∧ t.zeroPass.getLsbD k.val = true ∧ t.slotState k.val = 3 ∧
        (∀ (c : Fin 96) (n : Fin 8), (¬ mine c.val → t.core (.seat c n) = s.core (.seat c n)) ∧
          (mine c.val → (t.core (.seat c n)).mode = .idle ∧ (t.core (.seat c n)).task = none)) ∧
        (∀ w, ((inSeatMem w || inStore w) = true ∧ mine (memCrew w) ∧ s.inCoxRegion w = false) → t.word w = 0) ∧
        (∀ w, ¬ ((inSeatMem w || inStore w) = true ∧ mine (memCrew w) ∧ s.inCoxRegion w = false) → t.word w = s.word w) ∧
        (∀ c, mine c → ∀ a, 0xF0000000 + c * 0x10000 + 0x4000 ≤ a → a < 0xF0000000 + c * 0x10000 + 0x6000 → t.reg a = regReset a) ∧
        (∀ g, g < 64 → s.cgLane g = lane → t.reg (R.SYN_CGCTRL g) = 0) ∧
        (∀ n, n < 256 → s.fld (R.SYN_CALLCFG n) 0 10 = lane → t.reg (R.SYN_CALLCFG n) = 0 ∧ t.callVal n = false) ∧
        (∀ w, w < 4096 → lane ≠ 0 → s.fld (R.WIN_LANE w) 0 10 = lane → t.reg (R.WIN_CTRL w) = 0 ∧ t.reg (R.WIN_LANE w) = 0)) ∧
      (s.zeroPass.getLsbD k.val = true → ∃ t, exec (.scrubEnd k) s = .next t ∧ t.slotState k.val = 0 ∧ t.zeroPass.getLsbD k.val = false ∧ evt t 2 ∧
        (6000 < ktime → evt t 3) ∧ (t.reg (R.LANE_SLOT_STAT k.val)).getLsbD 11 = decide (6000 < ktime) ∧
        t.reg32 (R.LANE_SLOT_KTIME_LO k.val) = BitVec.ofNat 32 ktime ∧ t.cores = s.cores ∧
        (∀ w, t.word w = if (inSeatMem w || inStore w) = true ∧ mine (memCrew w) ∧ s.inCoxRegion w = false then 0 else s.word w) ∧
        (∀ c, mine c → t.reg (R.LANE_CREW c) = s.reg (R.LANE_CREW c) &&& 0x0F00 ∧ (t.reg (R.LANE_CEVT c)).getLsbD 1 = true) ∧
        (∀ c, c < 96 → ¬ mine c → t.reg (R.LANE_CREW c) = s.reg (R.LANE_CREW c))))

/-! ## Power and pace (spec/14) -/

/-- R396–R404, R406–R412: current reports and a QUIET lane's mean, the fast limiter and thermal throttle, effective clocks,
commitments, the trajectory and the governor's outputs, the trim, and the firmware-half watchdog. What is measured and chosen is
operands (log entry 31); that ballast outlives PACE_CTRL.EN is the model's choice (log entry 78). -/
def Obligations.PaceAndLimits : Prop :=
  ∀ (s : State) (crew : Fin 96),
    let c := crew.val
    let on := (s.reg R.PACE_CTRL).getLsbD 0 = true
    let stat := s.reg R.PACE_STAT
    let same := fun (i : Instr) => exec i s = .next s
    let gives := fun (i : Instr) (P : State → Prop) => ∃ t, exec i s = .next t ∧ P t ∧ t.mem = s.mem
    let trimOf := fun (t : State) => mapGet (fun _ => 180) t.pwr.trim c
    let level := fun (t : State) => t.fld (R.PWR_BAL c) 0 7
    let clock := fun (t : State) => t.fld (R.PWR_CLKEFF c) 0 8 = min (s.fld (R.PWR_CLKEFF c) 0 8) (t.clockGoal c)
    let pin := (s.reg32 R.PWR_PIN_LO).toNat
    let wdog := s.pwr.inForce.wdog * 1000000
    let flagged := fun (t : State) (st ev : Nat) => (t.reg R.PACE_STAT).getLsbD st = true ∧
      (stat.getLsbD st = false → (t.reg R.PACE_EVT).getLsbD ev = true)
    (∀ vin iin pw dom aux crews, gives (.currentReport vin iin pw dom aux crews) (fun t => t.reg R.PWR_VIN = vin ∧ t.reg R.PWR_IIN = iin ∧
      t.reg32 R.PWR_PIN_LO = pw ∧ t.reg R.PWR_AUXP = aux ∧ (∀ d : Fin 4, t.reg (R.PWR_DOMCUR d.val) = dom.get d) ∧
      t.reg (R.PWR_CUR c) = (if s.crewQuiet c then s.reg (R.PWR_CUR c) else if s.crewOn c then crews.getD c 0 else 0) ∧
      t.reg R.PACE_EVT = s.reg R.PACE_EVT ||| if on ∧ s.pwr.unheld = false ∧ (pw.toNat < s.pwr.lo ∨ s.pwr.hi < pw.toNat) then 0x200 else 0)) ∧
    gives .quietReport (fun t => (s.crewQuiet c = false → t.reg (R.PWR_CUR c) = s.reg (R.PWR_CUR c)) ∧
      (s.crewQuiet c = true → ∀ v, (∀ c', c' < 96 → s.crewQuiet c' = true → s.crewSlot c' = s.crewSlot c →
        mapGet (fun _ => (0 : Word)) s.pwr.current c' = v) → t.reg (R.PWR_CUR c) = BitVec.ofNat 16 ((v.toNat + 50) / 100 * 100))) ∧
    (∀ power amps crews,
      let lp := min 1500 ((s.reg R.PWR_PLIM).toNat % 2048) * 1000
      let cap := s.pwr.capPower
      gives (.limiterStep power amps crews) (fun t => clock t ∧
        (lp < power → t.pwr.capPower = (max 10 (cap.1 - 5), 0) ∧ (t.reg R.PWR_FLT).getLsbD 3 = true) ∧
        (power ≤ lp → lp * 97 ≤ power * 100 → t.pwr.capPower = (cap.1, 0)) ∧
        (power ≤ lp → power * 100 < lp * 97 → cap.1 < 180 → t.pwr.capPower = if 100 ≤ cap.2 + 1 then (min 180 (cap.1 + 5), 0) else (cap.1, cap.2 + 1)) ∧
        (let lc := min 2500 ((s.reg (R.PWR_ILIM c)).toNat % 4096)
         lc < crews.getD c 0 → (mapGet (fun _ => (180, 0)) t.pwr.capCrew c) =
           (max 10 ((mapGet (fun _ => (180, 0)) s.pwr.capCrew c).1 - 5), 0)))) ∧
    (∀ temps, s.crewOn c = true → gives (.thermalStep temps) (fun t => clock t ∧ t.reg (R.PWR_TJ c) = temps.getD c 0 ∧
      (let old := mapGet (fun _ => (180, 0)) s.pwr.capTherm c
       let new := mapGet (fun _ => (180, 0)) t.pwr.capTherm c
       (380 ≤ (temps.getD c 0).toInt → new = (max 10 (old.1 - 5), 0) ∧ (t.reg R.PWR_FLT).getLsbD 4 = true) ∧
       ((temps.getD c 0).toInt < 380 → 372 ≤ (temps.getD c 0).toInt → new = (old.1, 0)) ∧ (new.1 < 180 → level t = 0)))) ∧
    (s.crewOn crew.val = true → ∃ t, exec (.voltageRise crew) s = .next t ∧ t.fld (R.PWR_CLKEFF c) 0 8 = s.clockGoal c % 256 ∧
      t.reg (R.PWR_VOUT c) = (Config.fusedVout (s.clockGoal c)).setWidth 16 ∧ (∀ a, a ≠ R.PWR_CLKEFF c → a ≠ R.PWR_VOUT c → t.reg a = s.reg a)) ∧
    (s.crewOn crew.val = false → same (.voltageRise crew)) ∧
    -- commitments
    gives .paceApply (fun t => t.pwr.inForce = s.pwr.inForce ∧ t.fld R.PACE_STAT 0 3 = 4 ∧ ∃ x : PaceSet,
      t.pwr.waiting = some (x, s.time + (s.reg R.PACE_STAGGER).toNat % 256 * ((s.reg R.PACE_STAGGER).toNat / 256) * 100000000) ∧
      x.target = min 1500000 (s.reg32 R.PACE_TARGET_LO).toNat ∧ x.floor = min 1500000 (s.reg32 R.PACE_FLOOR_LO).toNat ∧
      x.up = max 1 (min 10000 (s.fld R.PACE_SLEW_UP 0 14)) ∧ x.down = max 1 (min 10000 (s.fld R.PACE_SLEW_DOWN 0 14)) ∧
      x.band = max 5 (min 100 (s.fld R.PACE_BAND 0 7)) ∧ x.senscap = max 10 (min 100 (s.fld R.PACE_SENSCAP 0 7)) ∧
      x.wdog = max 10 (min 1000 (s.fld R.PACE_WDOG 0 10)) ∧
      (x.up ≠ s.fld R.PACE_SLEW_UP 0 14 ∨ x.down ≠ s.fld R.PACE_SLEW_DOWN 0 14 ∨ x.band ≠ s.fld R.PACE_BAND 0 7 →
        (t.reg R.PACE_EVT).getLsbD 0 = true)) ∧
    (s.pwr.waiting = none → same .pendingSetInForce) ∧
    (∀ x at_, s.pwr.waiting = some (x, at_) → s.time < at_ → same .pendingSetInForce) ∧
    (∀ x at_, s.pwr.waiting = some (x, at_) → at_ ≤ s.time → gives .pendingSetInForce (fun t => t.pwr.inForce = x ∧ t.pwr.waiting = none ∧
      t.reg32 R.PACE_ATARGET_LO = BitVec.ofNat 32 x.target ∧ (t.reg R.PACE_EVT).getLsbD 1 = true)) ∧
    -- enable, watchdog
    (∀ v : Word, v.getLsbD 0 = true →
      (on → exec (.paceEnable v) s = .next (s.setReg R.PACE_CTRL (v &&& 1))) ∧
      (¬ on → gives (.paceEnable v) (fun t => t.reg R.PACE_CTRL = 1 ∧ t.pwr.traj10 = 10 * pin ∧ t.reg32 R.PACE_TRAJ_LO = s.reg32 R.PWR_PIN_LO ∧
        t.fld R.PACE_STAT 0 3 = (if s.pwr.waiting.isSome then 4 else 1) ∧ t.pwr.lo = pin * (1000 - s.pwr.inForce.band) / 1000 ∧
        t.pwr.hi = pin * (1000 + s.pwr.inForce.band) / 1000 ∧ t.pwr.kickAt = s.uptime))) ∧
    (∀ v : Word, v.getLsbD 0 = false → gives (.paceEnable v) (fun t => t.reg R.PACE_CTRL = 0 ∧
      t.fld R.PACE_STAT 0 3 = (if s.pwr.waiting.isSome then 4 else 0) ∧ t.pwr.out = none ∧ (t.reg R.PACE_STAT).getLsbD 7 = false ∧
      t.govCeil c = 180)) ∧
    (stat.getLsbD 7 = true → gives .kick (fun t => t.pwr.traj10 = 10 * pin ∧ (t.reg R.PACE_STAT).getLsbD 7 = false ∧ t.pwr.unheld = false ∧
      t.pwr.kickAt = s.uptime)) ∧
    (stat.getLsbD 7 = false → exec .kick s = .next { s with pwr := { s.pwr with kickAt := s.uptime } }) ∧
    (on → s.pwr.kickAt + wdog ≤ s.uptime → gives .paceWatchdogExpiry (fun t => flagged t 7 7 ∧ t.pwr.out = none ∧ t.pwr.lo = s.pwr.lo ∧
      t.pwr.hi = s.pwr.hi)) ∧
    (¬ on → same .paceWatchdogExpiry ∧ same .staleHoldEnd ∧ same .short ∧ same .over) ∧
    (s.uptime < s.pwr.kickAt + wdog → same .paceWatchdogExpiry) ∧
    (on → stat.getLsbD 7 = true → s.pwr.kickAt + 2 * wdog ≤ s.uptime → gives .staleHoldEnd (fun t => t.pwr = { s.pwr with unheld := true } ∧
      clock t)) ∧
    ((stat.getLsbD 7 = false ∨ s.uptime < s.pwr.kickAt + 2 * wdog) → same .staleHoldEnd) ∧
    (let full := ∀ d, d < 96 → s.ballastOk d = true → s.fld (R.PWR_BAL d) 0 7 = 100
     let least := ∀ d, d < 96 → s.fld (R.PWR_BAL d) 0 7 = 0 ∧ (s.crewOn d = true → s.fld (R.PWR_CLKEFF d) 0 8 ≤ s.clockFloor d)
     (on → full → gives .short (fun t => flagged t 4 4)) ∧ (¬ full → same .short) ∧
     (on → least → gives .over (fun t => flagged t 5 5)) ∧ (¬ least → same .over)) ∧
    -- the trajectory and the governor's outputs
    (∀ g,
      let f := s.pwr.inForce
      let inlet := if s.pwr.open_.getLsbD f.inlet then g.inlet else (s.reg (R.AIN_TEMP f.inlet)).toInt
      let cool := max 300000 ((1500000 : Int) - 400 * max 0 (inlet - 4000)).toNat
      let cap0 := min (min 1500 ((s.reg R.PWR_PLIM).toNat % 2048) * 1000) cool
      let cap := if s.pwr.open_.toNat &&& f.mask ≠ 0 then min cap0 (f.senscap * 15000) else cap0
      let goal := min (max f.target f.floor) cap
      let next := if s.pwr.traj10 < 10 * goal then min (10 * goal) (s.pwr.traj10 + f.up) else max (10 * goal) (s.pwr.traj10 - f.down)
      let early := ∀ x at_, s.pwr.waiting = some (x, at_) → s.time < at_
      (∀ t, exec .pendingSetInForce s = .next t → exec (.governorPeriod g) s = exec (.governorPeriod g) t) ∧
      (¬ on → early → gives (.governorPeriod g) (fun t => t.pwr.traj10 = 10 * pin ∧
        t.fld R.PACE_STAT 0 3 = if s.pwr.waiting.isSome then 4 else 0)) ∧
      (on → early → stat.getLsbD 7 = true → same (.governorPeriod g)) ∧
      (on → early → stat.getLsbD 7 = false → ∃ t, exec (.governorPeriod g) s = .next t ∧ t.pwr.traj10 = next ∧ t.reg32 R.PACE_TRAJ_LO = BitVec.ofNat 32 (next / 10) ∧
        t.pwr.out = some ⟨next / 10 * (1000 - f.band) / 1000, next / 10 * (1000 + f.band) / 1000, g.shares, g.ceils⟩ ∧
        (∀ o, s.pwr.out = some o → t.pwr.lo = o.lo ∧ t.pwr.hi = o.hi) ∧ (s.pwr.out = none → t.pwr.lo = s.pwr.lo ∧ t.pwr.hi = s.pwr.hi) ∧
        t.fld R.PACE_STAT 0 3 = (if s.pwr.waiting.isSome then 4 else if next < 10 * goal then 2 else if 10 * goal < next then 3 else 1))) ∧
    -- the trim
    (∀ i : TrimInput,
      let clk := min 5 (i.clk.getD c 0)
      let bal := min 8 (i.bal.getD c 0)
      let bals := fun (d : Nat) => min 8 (i.bal.getD d 0)
      let has := fun (d : Nat) => s.fld (R.PWR_BAL d) 0 7
      -- every other crew that comes before this one takes its whole step
      let falls := ∀ d, d < 96 → level s < has d → min 8 (has d) ≤ bals d
      let rises := s.ballastOk c = true ∧ ∀ d, d < 96 → s.ballastOk d = true → has d < level s → min 8 (100 - has d) ≤ bals d
      let lowered := fun (t : State) => (falls → level t = min 100 (level s - bal)) ∧ (¬ falls → level t = level s)
      (¬ on → same (.trim i)) ∧
      (on → s.pwr.unheld = true → gives (.trim i) lowered) ∧
      (on → s.pwr.unheld = false →
        (i.est < s.pwr.lo → gives (.trim i) (fun t =>
          trimOf t = (if i.work.getLsbD c = true ∧ s.crewOn c = true then min (mapGet (fun _ => 180) s.pwr.ceil c) (trimOf s + clk) else trimOf s) ∧
          (s.pwr.limMoves = false → s.pwr.thermMoves = false → rises → level t = min 100 (level s + bal)) ∧
          ((s.pwr.limMoves = true ∨ s.pwr.thermMoves = true ∨ ¬ rises) → level t = level s))) ∧
        (s.pwr.lo ≤ i.est → s.pwr.hi < i.est → gives (.trim i) (fun t => lowered t ∧
          ((∃ d, d < 96 ∧ t.fld (R.PWR_BAL d) 0 7 ≠ 0) → trimOf t = trimOf s) ∧
          ((∀ d, d < 96 → t.fld (R.PWR_BAL d) 0 7 = 0) → trimOf t = max (s.clockFloor c) (trimOf s - clk)))) ∧
        (s.pwr.lo ≤ i.est → i.est ≤ s.pwr.hi → exec (.trim i) s = .next (s.setReg R.PACE_STAT (stat &&& 0xFFCF)))))

/-- R411: what steps the load: every domain but VBH goes off, and the fault, its cause and the step are recorded; an ordered shutdown. -/
def Obligations.FaultsThatStepTheLoad : Prop :=
  ∀ (s : State) (mw : BitVec 32) (dom : Fin 100),
    let all := [Instr.uvin mw, .overpower mw, .overvolt mw, .stage mw, .reg dom mw, .tjmax mw, .shut, .order mw]
    let steps := fun (i : Instr) (bit cause d : Nat) => ∃ t, exec i s = .next t ∧ t.vcOn = 0 ∧ t.storeOn = 0 ∧ t.vmeshOn = false ∧ t.vgwOn = 0 ∧
      t.vioOn = false ∧ t.pwr.stage1 = false ∧ (t.reg R.PWR_FLT) = s.reg R.PWR_FLT ||| BitVec.ofNat 16 (2 ^ bit) ∧
      t.reg R.PWR_CAUSE = BitVec.ofNat 16 (cause + 16 * d) ∧ t.reg32 R.PWR_PSTEP_LO = mw ∧ t.cores = s.cores ∧ t.flash = s.flash ∧
      (∀ a, a ≠ R.PWR_FLT → a ≠ R.PWR_CAUSE → a ≠ R.PWR_PSTEP_LO → a ≠ R.PWR_PSTEP_LO + 1 → t.reg a = s.reg a) ∧
      t.bh.tripId = some (s.reg32 R.BH_COMMIT_ID_LO).toNat
    (s.pwr.stage1 = false → ∀ i ∈ all, exec i s = .next s) ∧
    (s.pwr.stage1 = true → steps (.uvin mw) 0 1 0 ∧ steps (.overpower mw) 1 2 0 ∧ steps (.overvolt mw) 1 3 0 ∧ steps (.stage mw) 1 4 0 ∧
      steps (.reg dom mw) 1 5 dom.val ∧ steps (.tjmax mw) 1 6 0 ∧
      exec .shut s = .next { s with pwr := { s.pwr with ordered := true } } ∧
      (s.pwr.ordered = true → steps (.order mw) 2 7 0) ∧ (s.pwr.ordered = false → exec (.order mw) s = .next s))

/-! ## The boathouse (spec/15) -/

/-- R419–R426, R447: resets of the boathouse core and the watchdog, system time, the reference clock, flash commands, the boot and
the update of firmware. The end of a flash command, and the boot record, are the model's choice (log entries 41, 52 and 66). -/
def Obligations.BoathouseCoreTimeAndFlash : Prop :=
  ∀ (s : State) (bits : Word),
    let same := fun (i : Instr) => exec i s = .next s
    let bh := s.core .boathouse
    let gives := fun (i : Instr) (P : State → Prop) => ∃ t, exec i s = .next t ∧ P t
    let resets := fun (i : Instr) (cause : Nat) => gives i (fun t =>
      (let k := t.core .boathouse
       k.mode = .running ∧ k.pc = 0x0A000000 ∧ (∀ r, k.rw r = 0) ∧ (∀ r, k.ra r = 0) ∧ k.lockup = false) ∧
      t.reg32 R.BH_IE_LO = 0 ∧ t.reg R.BH_RSTCAUSE = BitVec.ofNat 16 (cause + 16 * min 15 ((s.reg R.BH_RSTCAUSE).toNat / 16 % 16 + 1)) ∧
      t.bh.kicked = s.uptime ∧ t.mem = s.mem ∧ t.flash = s.flash ∧ (∀ c, c ≠ .boathouse → t.core c = s.core c) ∧
      (∀ a, a ≠ R.BH_IE_LO → a ≠ R.BH_IE_LO + 1 → a ≠ R.BH_RSTCAUSE → t.reg a = s.reg a))
    let wd := s.reg R.BH_WDOG
    let due := wd.getLsbD 15 = true ∧ s.bh.kicked + max 1 (wd.toNat % 1024) * 10000000 ≤ s.uptime
    let clk := s.reg R.BH_CLK
    let addr := (s.reg32 R.BH_FL_ADDR_LO).toNat % 0x2000000
    let flByte := fun (t : State) (b : Nat) => mapGet flashDefault t.flash b
    let started := fun (i : Instr) (op : FlashOp) => gives i (fun t => t.bh.flashOp = some op ∧ t.reg R.BH_FL_STAT = s.reg R.BH_FL_STAT ||| 1 ∧
      t.flash = s.flash)
    let refused := fun (i : Instr) (why : Nat) => gives i (fun t => t.bh = s.bh ∧ t.flash = s.flash ∧ (t.reg R.BH_FL_STAT).getLsbD 2 = true ∧
      t.fld R.BH_FL_STAT 3 2 = why)
    let inRom := bh.mode = .running ∧ 0x0A000000 ≤ bh.pc.toNat ∧ bh.pc.toNat < 0x0A004000
    let boots := fun (k : Nat) => gives .boot (fun t => t.bh.locked = some k ∧ ((t.reg R.BH_BOOT).getLsbD 4 = true ↔ k = 1) ∧
      (t.core .boathouse).pc = BitVec.ofNat 32 (0x08000000 + s.imgLong k 8) ∧
      (∀ i, i < s.imgLong k 10 → t.word (0x08000000 + i) = s.imgWord k (32 + i)) ∧
      (∀ w, w < 0x08000000 ∨ 0x08000000 + s.imgLong k 10 ≤ w → t.word w = s.word w))
    let record := s.reg R.BH_BOOT
    let other := if record.getLsbD 4 = true then 0 else 1
    resets .bhCorerst 2 ∧ (due → resets .bhWatchdogExpiry 1) ∧ (¬ due → same .bhWatchdogExpiry) ∧
    (bh.lockup = true → resets .lockupReset 4) ∧ (bh.lockup = false → same .lockupReset) ∧
    exec .wdkick s = .next { s with bh := { s.bh with kicked := s.uptime } } ∧
    (s.stkState = 0 → exec .tset s = .next { s with bh := { s.bh with tset := true } }) ∧
    (s.stkState ≠ 0 → exec .tset s = .next (s.setReg R.BH_EVT (s.reg R.BH_EVT ||| 1))) ∧
    gives .timebaseTick (fun t => (∀ a, t.reg a = s.reg a) ∧ t.mem = s.mem ∧ t.cores = s.cores ∧
      (s.bh.tset = true → t.time = (s.reg64 (R.BH_TIMESET 0)).toNat / 10 * 10 ∧ t.bh.tset = false) ∧
      (s.bh.tset = false → s.stroke.slew = 0 → t.time = s.time + 10) ∧
      (s.bh.tset = false → 10 ≤ s.stroke.slew → 9999 ≤ s.stroke.ticks → t.time = s.time + 20 ∧ t.stroke.slew = s.stroke.slew - 10) ∧
      (s.bh.tset = false → s.stroke.slew ≤ -10 → 9999 ≤ s.stroke.ticks → t.time = s.time ∧ t.stroke.slew = s.stroke.slew + 10) ∧
      (∀ c, c < 96 → mapGet (fun _ => 0) t.clock c = mapGet (fun _ => 0) s.clock c +
        if s.crewOn c then (s.reg (R.PWR_CLKEFF c)).toNat % 256 else 0) ∧
      mapGet (fun _ => 0) t.clock 96 = mapGet (fun _ => 0) s.clock 96 + 40) ∧
    gives .pllLock (fun t => (t.reg R.BH_CLK).getLsbD 0 = true ∧ t.mem = s.mem ∧ (bh.mode ≠ .reset → s.stroke.electing = false → t.cores = s.cores) ∧
      (bh.mode = .reset → (t.core .boathouse).mode = .running ∧ (t.core .boathouse).pc = 0x0A000000)) ∧
    (clk.getLsbD 0 = false → same .lossOfLock) ∧
    (clk.getLsbD 0 = true → gives .lossOfLock (fun t => (t.reg R.BH_CLK).getLsbD 0 = false ∧ (t.reg R.BH_CLK).getLsbD 1 = true ∧ t.mem = s.mem ∧
      (s.stroke.electing = true → ∀ c, t.stroke.cand = some c → c.1 ≠ s.devId))) ∧
    ((s.reg R.BH_TMR_CTRL).getLsbD 0 = true → exec .timerExpiry s = .next (s.setReg R.BH_TMR_CTRL (s.reg R.BH_TMR_CTRL ||| 2))) ∧
    ((s.reg R.BH_TMR_CTRL).getLsbD 0 = false → same .timerExpiry) ∧
    exec (.bhDbellSet bits) s = .next (s.setReg R.BH_DBELL_STAT (s.reg R.BH_DBELL_STAT ||| bits)) ∧
    -- flash commands
    (s.bh.flashOp ≠ none → refused .erase 1 ∧ refused .prog 1) ∧
    (s.bh.flashOp = none → ∀ k, s.bh.locked = some k → addr % 0x1000000 < 0xE00000 → addr / 0x1000000 = k → refused .erase 2 ∧ refused .prog 2) ∧
    (s.bh.flashOp = none → (∀ k, s.bh.locked = some k → 0xE00000 ≤ addr % 0x1000000 ∨ addr / 0x1000000 ≠ k) →
      ((s.reg R.BH_FL_LOCK).getLsbD (addr / 0x1000000) = true → refused .erase 3 ∧ refused .prog 3) ∧
      ((s.reg R.BH_FL_LOCK).getLsbD (addr / 0x1000000) = false →
        started .erase (.erase (addr / 0x10000)) ∧ started .prog (.prog (addr / 256) s.flBuf))) ∧
    (s.bh.flashOp = none → same .flashDone) ∧
    (∀ op, s.bh.flashOp = some op → gives .flashDone (fun t => t.bh.flashOp = none ∧ (t.reg R.BH_FL_STAT).getLsbD 0 = false ∧
      (t.reg R.BH_FL_STAT).getLsbD 1 = true ∧ t.mem = s.mem ∧
      (∀ n, op = .erase n → (∀ b, b / 0x10000 = n → flByte t b = 0xFF) ∧ (∀ b, b / 0x10000 ≠ n → flByte t b = flByte s b)) ∧
      (∀ n bytes, op = .prog n bytes → (∀ i, i < bytes.length → flByte t (256 * n + i) = bytes.getD i 0) ∧
        (∀ b, b < 256 * n ∨ 256 * n + bytes.length ≤ b → flByte t b = flByte s b)))) ∧
    -- boot
    (¬ inRom → same .boot) ∧
    (inRom → record.getLsbD 1 = false →
      let pref := if record.getLsbD 0 = true then 1 else 0
      (s.imgValid pref = true → boots pref) ∧ (s.imgValid pref = false → s.imgValid (1 - pref) = true → boots (1 - pref)) ∧
      (s.imgValid 0 = false → s.imgValid 1 = false → gives .boot (fun t => (t.reg R.BH_BOOT).getLsbD 6 = true ∧ t.bh.locked = none ∧
        t.fld R.HST_BOOTSTAT 0 4 = 6 ∧ t.mem = s.mem ∧ t.cores = s.cores))) ∧
    (inRom → record.getLsbD 1 = true → record.toNat / 4 % 4 ≠ 0 →
      let pref := if record.getLsbD 0 = true then 1 else 0
      (s.imgValid pref = true → boots pref) ∧
      gives .boot (fun t => t.fld R.BH_BOOT 2 2 = record.toNat / 4 % 4 - 1 ∧ t.bh.bootRec = t.reg R.BH_BOOT &&& 0xF)) ∧
    (inRom → record.getLsbD 1 = true → record.toNat / 4 % 4 = 0 →
      let back := if record.getLsbD 0 = true then 0 else 1
      (s.imgValid back = true → boots back) ∧ gives .boot (fun t => (t.reg R.BH_BOOT).getLsbD 1 = false ∧
        ((t.reg R.BH_BOOT).getLsbD 0 = true ↔ back = 1))) ∧
    (let takes := s.firmware = true ∨ inRom ∧ record.getLsbD 6 = true
     (∀ image : List (BitVec 8), takes → image.length ≤ 0xE00000 → s.bh.flashOp = none → (s.reg R.BH_FL_LOCK).getLsbD other = false →
      gives (.firmwareUpdate image) (fun t => (∀ i, i < image.length → flByte t (other * 0x1000000 + i) = image.getD i 0) ∧
        (∀ b, b < other * 0x1000000 ∨ other * 0x1000000 + 0xE00000 ≤ b → flByte t b = flByte s b) ∧
        t.reg R.BH_BOOT = (record &&& 0xFFF0) ||| BitVec.ofNat 16 (other + 14) ∧ t.mem = s.mem)) ∧
     (∀ image, ¬ takes → same (.firmwareUpdate image)))

/-- R427–R434: management of the I3C ports, endpoint IDs, the requests of PLDM and pace commitments, UARTs and the SPI controller.
The error codes of what is not supported are presumed (log entry 80), and so are the lengths of an I3C port and the polarity of
CTS (log entries 44 and 50). -/
def Obligations.BoathouseManagement : Prop :=
  (∀ (s : State) (eid : BitVec 8) (payload : List (BitVec 8)) (query : PldmQuery),
    let fw := s.firmware = true
    let own := (s.reg R.BH_FAC_EID).toNat % 256 = eid.toNat ∧ eid ≠ 0 ∨ (s.reg R.BH_FAC_EID).toNat / 256 = eid.toNat ∧ eid ≠ 0
    let answer := fun (t : State) (code : Byte) (bs : List Byte) => t.out = s.out ++ [.pldm eid.toNat code bs]
    let only := fun (i : Instr) (code : Byte) (bs : List Byte) => exec i s = .next { s with out := s.out ++ [.pldm eid.toNat code bs] }
    let all := [Instr.getPaceCommitment eid payload, .proposeCommitment eid payload, .confirmCommitment eid payload, .withdrawProposal eid payload,
      .getPowerReading eid payload, .platformMonitoringRequest eid query]
    let changing := [(Instr.proposeCommitment eid payload, 20), (.confirmCommitment eid payload, 4), (.withdrawProposal eid payload, 4)]
    let gives := fun (i : Instr) (P : State → Prop) => ∃ t, exec i s = .next t ∧ P t ∧ t.mem = s.mem ∧ t.cores = s.cores
    let pid := leField payload 0 4
    (s.firmware = false → ∀ i ∈ all, exec i s = .next s) ∧
    (fw →
      (∀ x ∈ changing, (¬ own → only x.1 0x80 []) ∧ (own → payload.length ≠ x.2 → only x.1 0x02 [])) ∧
      (payload.length ≠ 0 → only (.getPaceCommitment eid payload) 0x02 [] ∧ only (.getPowerReading eid payload) 0x02 []) ∧
      (payload = [] →
        only (.getPaceCommitment eid payload) 0 (leB 1 s.commitState ++ leB 4 (s.reg32 R.BH_COMMIT_ID_LO).toNat ++
          leB 4 (s.reg32 R.BH_PROP_ID_LO).toNat ++ match s.bh.commit with
            | none => List.replicate 16 0
            | some c => leB 4 c.1.target ++ leB 4 c.1.floor ++ leB 2 c.1.up ++ leB 2 c.1.down ++ leB 1 c.1.band ++ leB 1 c.1.senscap ++
                leB 1 c.1.slot ++ leB 1 c.1.step) ∧
        only (.getPowerReading eid payload) 0 (leB 4 (s.reg32 R.PWR_PIN_LO).toNat ++ leB 4 (s.reg32 R.PACE_TRAJ_LO).toNat ++
          leB 4 (s.reg32 R.PACE_DEMAND_LO).toNat ++ leB 4 (s.reg32 R.PACE_BALLAST_LO).toNat ++ leB 2 (s.reg R.PACE_STAT).toNat ++
          leB 8 s.stkCount ++ leB 8 s.time)) ∧
      (own → payload.length = 20 →
        let c := commitmentOf payload
        (c.inRange = true → gives (.proposeCommitment eid payload) (fun t => answer t 0 [] ∧ t.bh.prop = some c ∧ t.bh.commit = s.bh.commit ∧
          t.reg32 R.BH_PROP_ID_LO = BitVec.ofNat 32 c.id)) ∧
        (c.inRange = false → only (.proposeCommitment eid payload) 0x82 []) ∧
        (c.inRange = true ↔ c.id ≠ 0 ∧ c.target ≤ 1500000 ∧ c.floor ≤ 1500000 ∧ 1 ≤ c.up ∧ c.up ≤ 10000 ∧ 1 ≤ c.down ∧ c.down ≤ 10000 ∧
          5 ≤ c.band ∧ c.band ≤ 100 ∧ 10 ≤ c.senscap ∧ c.senscap ≤ 100)) ∧
      (own → payload.length = 4 →
        (∀ c, s.bh.prop = some c → c.id = pid →
          let at_ := (s.time + c.slot * c.step * 100000000 + 999999) / 1000000 * 1000000
          gives (.confirmCommitment eid payload) (fun t => answer t 0 (leB 8 at_) ∧ t.bh.prop = none ∧ t.bh.commit = some (c, at_) ∧
            t.bh.recorded = some c ∧ t.reg32 R.BH_COMMIT_ID_LO = BitVec.ofNat 32 c.id ∧ t.reg32 R.BH_PROP_ID_LO = 0 ∧
            t.reg32 R.PACE_TARGET_LO = BitVec.ofNat 32 c.target ∧ t.reg32 R.PACE_FLOOR_LO = BitVec.ofNat 32 c.floor ∧ t.pwr.waiting ≠ none)) ∧
        (∀ c, s.bh.prop = some c → c.id ≠ pid → only (.confirmCommitment eid payload) 0x81 [] ∧ only (.withdrawProposal eid payload) 0x81 []) ∧
        (∀ c at_, s.bh.prop = none → s.bh.commit = some (c, at_) → c.id = pid → only (.confirmCommitment eid payload) 0 (leB 8 at_)) ∧
        (s.bh.prop = none → only (.withdrawProposal eid payload) 0x81 [] ∧
          (s.bh.commit = none → only (.confirmCommitment eid payload) 0x81 [])) ∧
        (∀ c, s.bh.prop = some c → c.id = pid → gives (.withdrawProposal eid payload) (fun t => answer t 0 [] ∧ t.bh.prop = none ∧
          t.reg32 R.BH_PROP_ID_LO = 0))) ∧
      (query = .discovery → only (.platformMonitoringRequest eid query) 0 [0, 2, 5, 63]) ∧
      (query = .numeric 0 → only (.platformMonitoringRequest eid query) 0 (leB 4 (s.reg32 R.PWR_PIN_LO).toNat)) ∧
      (query = .numeric 1 → only (.platformMonitoringRequest eid query) 0 (leB 4 (s.reg R.PWR_VIN).toNat)) ∧
      (query = .stateSensor 0 → only (.platformMonitoringRequest eid query) 0 (leB 2 (s.reg R.PACE_STAT).toNat)) ∧
      (∀ ty cmd, query = .other ty cmd →
        only (.platformMonitoringRequest eid query) (if ty.toNat ∈ [0, 2, 5, 63] then 0x05 else 0x20) []) ∧
      (query = .stateSensor 1 → only (.platformMonitoringRequest eid query) 0 (leB 2 (s.reg R.PWR_FLT).toNat)))) ∧
  (∀ (s : State) (n : Fin 2) (a : BitVec 7) (e : BitVec 8) (w : Word),
    let stat := s.reg (R.BH_I3C_STAT n.val)
    let has := stat.getLsbD 8 = true
    let ctrl := s.reg (R.BH_I3C_CTRL n.val)
    let x := s.bh.i3c.get n
    let target := ctrl.getLsbD 0 = true ∧ ctrl.getLsbD 1 = false ∧ (n.val = 1 → ctrl.getLsbD 2 = false)
    let same := fun (i : Instr) => exec i s = .next s
    let addressed := fun (i : Instr) (a' : Nat) (v : Bool) => ∃ t, exec i s = .next t ∧ t.fld (R.BH_I3C_STAT n.val) 1 7 = a' ∧
      (t.reg (R.BH_I3C_STAT n.val)).getLsbD 8 = v ∧ (∀ y, y ≠ R.BH_I3C_STAT n.val → t.reg y = s.reg y) ∧ t.mem = s.mem
    let port := fun (i : Instr) (y : I3c) => exec i s = .next { s with bh := { s.bh with i3c := s.bh.i3c.set n y } }
    (¬ target → ∀ code, same (.ccc n code)) ∧
    (target →
      (¬ has → addressed (.ccc n (.entdaa a)) a.toNat true) ∧ (has → same (.ccc n (.entdaa a)) ∧ addressed (.ccc n (.setnewda a)) a.toNat true) ∧
      (¬ has → same (.ccc n (.setnewda a)) ∧ same (.ccc n .getmwl) ∧ same (.ccc n .getstatus)) ∧
      (¬ has → ctrl.toNat / 8 % 128 = e.toNat % 128 → addressed (.ccc n (.setdasa (e.setWidth 7) a)) a.toNat true) ∧
      addressed (.ccc n .rstdaa) 0 false ∧ port (.ccc n (.enec e)) { x with ev := x.ev ||| e } ∧
      port (.ccc n (.disec e)) { x with ev := x.ev &&& ~~~ e } ∧ port (.ccc n (.setmwl w)) { x with mwl := min 256 w.toNat } ∧
      port (.ccc n (.setmrl w)) { x with mrl := min 256 w.toNat } ∧ same (.ccc n (.rstact e)) ∧
      (has → e.getLsbD 7 = true → exec (.ccc n (.other e)) s = .next { s with out := s.out ++ [.i3cNack n.val] }) ∧
      ((¬ has ∨ e.getLsbD 7 = false) → same (.ccc n (.other e))) ∧
      (has → exec (.ccc n .getmwl) s = .next { s with out := s.out ++ [.i3c n.val [BitVec.ofNat 8 (x.mwl / 256), BitVec.ofNat 8 x.mwl]] } ∧
        exec (.ccc n .getmrl) s = .next { s with out := s.out ++ [.i3c n.val [BitVec.ofNat 8 (x.mrl / 256), BitVec.ofNat 8 x.mrl]] } ∧
        ∃ t bs, exec (.ccc n .getpid) s = .next t ∧ t.out = s.out ++ [.i3c n.val bs] ∧ bs.length = 6 ∧ t.regs = s.regs)) ∧
    (ctrl.getLsbD 0 = true → (n.val = 1 → ctrl.getLsbD 2 = false) → ∃ t, exec (.i3cTimeout n) s = .next t ∧
      (t.reg (R.BH_I3C_STAT n.val)).getLsbD 0 = false ∧ (t.reg (R.BH_I3C_EVT n.val)).getLsbD 5 = true ∧ t.mem = s.mem) ∧
    (ctrl.getLsbD 0 = false → same (.i3cTimeout n)) ∧
    (s.firmware = true → ctrl.getLsbD 0 = true → e ≠ 0 → e ≠ 0xFF → exec (.setEndpointId n e) s = .next { s with bh := { s.bh with eid := e.toNat } }) ∧
    ((e = 0 ∨ e = 0xFF ∨ s.firmware = false) → same (.setEndpointId n e))) ∧
  (∀ (s : State) (n : Fin 2) (v : BitVec 8) (frame parity : Bool) (w : Word) (who : Requester),
    let u := s.bh.uarts.get n
    let ctrl := s.reg (R.BH_UART_CTRL n.val)
    let put := fun (t : State) (y : Uart) => t.bh.uarts.get n = y ∧ t.mem = s.mem
    let clear := n.val = 1 → ctrl.getLsbD 4 = true → s.pinIs 9 1 = true ∧ s.pinLevel 9 = false
    let spi := s.reg R.BH_SPI_CTRL
    let room := if spi.getLsbD 3 = true then 32 else 64
    let frame16 := fun (c x : Word) => if c.getLsbD 3 = true then x else x &&& 0x00FF
    (ctrl.getLsbD 0 = true → s.pinIs (5 + 2 * n.val) 1 = true →
      (u.rx.length < 64 → ∃ t, exec (.uartReceive n v frame parity) s = .next t ∧ put t { u with rx := u.rx ++ [(v, frame, parity && decide (ctrl.toNat / 2 % 4 ≠ 0))] } ∧
        t.regs = s.regs) ∧
      (64 ≤ u.rx.length → exec (.uartReceive n v frame parity) s =
        .next (s.setReg (R.BH_UART_STAT n.val) (s.reg (R.BH_UART_STAT n.val) ||| 4)))) ∧
    (ctrl.getLsbD 0 = false → exec (.uartReceive n v frame parity) s = .next s) ∧
    (u.tx.length < 64 → ∃ t, exec (.uartDataWrite n w) s = .next t ∧ put t { u with tx := u.tx ++ [w.setWidth 8] } ∧ t.regs = s.regs) ∧
    (64 ≤ u.tx.length → exec (.uartDataWrite n w) s = .next s) ∧
    (∀ rest, u.rx = (v, frame, parity) :: rest → ∃ t, exec (.uartDataRead who n) s = .next t ∧ put t { u with rx := rest } ∧
      ∃ hi, t.lastRead = some ⟨.ok, [v, hi]⟩) ∧
    (∀ rest, u.tx = v :: rest → ctrl.getLsbD 0 = true → ¬ clear → exec (.uartByteSent n) s = .next s) ∧
    (∀ rest, u.tx = v :: rest → ctrl.getLsbD 0 = true → clear → ∃ t, exec (.uartByteSent n) s = .next t ∧ put t { u with tx := rest } ∧
      t.out = s.out ++ [.uart n.val v] ∧ t.regs = s.regs) ∧
    (u.tx = [] → exec (.uartByteSent n) s = .next s) ∧
    (s.bh.spi.tx.length < room → ∃ t, exec (.spiDataWrite w) s = .next t ∧ t.bh.spi.tx = s.bh.spi.tx ++ [w] ∧ t.bh.spi.rx = s.bh.spi.rx ∧
      t.regs = s.regs) ∧
    (room ≤ s.bh.spi.tx.length → exec (.spiDataWrite w) s = .next s) ∧
    (s.bh.spi.tx = [] → exec (.spiFrameDone w) s = .next s) ∧
    (∀ x rest c, s.bh.spi.tx = x :: rest → s.bh.spi.ctrl = some c → spi.getLsbD 0 = true → s.bh.spi.rx.length < 32 → ∃ t,
      exec (.spiFrameDone w) s = .next t ∧ t.bh.spi.tx = rest ∧ t.bh.spi.rx = s.bh.spi.rx ++ [frame16 c (if s.pinIs 12 1 = true then w else 0)] ∧
      t.out = s.out ++ [.spi (frame16 c x)] ∧ t.reg R.BH_SPI_STAT = s.reg R.BH_SPI_STAT ||| 2 ∧ t.mem = s.mem))

/-- R435–R446: pumps, pins, analog inputs, protection, and JTAG. That a stall starts the intervals of a tachometer again is the
model's choice (log entry 79). -/
def Obligations.BoathousePinsAndAnalog : Prop :=
  ∀ (s : State) (n : Fin 4) (pwm : Fin 2) (p : Fin 24) (ch : Fin 8) (width : Nat) (v : Word) (ratio : BitVec 24) (split : Bool) (cells : BitVec 24)
    (off : BitVec 19),
    let same := fun (i : Instr) => exec i s = .next s
    let gives := fun (i : Instr) (P : State → Prop) => ∃ t, exec i s = .next t ∧ P t ∧ t.mem = s.mem
    let tach := s.bh.tachs.get n
    let ppr := (s.reg (R.BH_TACH_CFG n.val)).toNat % 4 + 1
    let ints := fun (l : Nat) => ((s.uptime - l) :: tach.ints).take 4
    let stalls := tach.last.getD 0 + (s.reg (R.BH_TACH_CFG n.val)).toNat / 4 % 256 * 100000000 ≤ s.uptime
    let rpm := fun (l : List Nat) => let sum := max 1 l.sum
      BitVec.ofNat 16 (max 60 (min 30000 ((2 * 60000000000 + sum) / (2 * sum))))
    let protected_ := fun (t : State) (k : Nat) => ((s.reg R.BH_PROT_EN).getLsbD k = true → (t.reg R.BH_PROT_CAUSE).getLsbD k = true ∧
      (s.pwr.stage1 = true → t.pwr.ordered = true)) ∧ ((s.reg R.BH_PROT_EN).getLsbD k = false → t.reg R.BH_PROT_CAUSE = s.reg R.BH_PROT_CAUSE ∧
      t.pwr.ordered = s.pwr.ordered)
    let old := (s.reg (R.MIO_FSEL p.val)).toNat % 4
    let off_ := s.vioOn = false ∧ s.vmeshOn = false ∧ s.storeOn = 0 ∧ s.vgwOn = 0 ∧ s.vcOn = 0
    let loads := fun (i : Instr) (ir : JtagIr) (dr : BitVec 32) => exec i s = .next { s with bh := { s.bh with ir := ir, dr := dr } }
    let guarded := fun (i : Instr) (ir : JtagIr) => (off_ → loads i ir 0) ∧
      (¬ off_ → gives i (fun t => t.bh.ir = .bypass ∧ t.reg R.BH_EVT = s.reg R.BH_EVT ||| 2 ∧ ∀ a, a ≠ R.BH_EVT → t.reg a = s.reg a))
    let bh := s.core .boathouse
    let debugs := fun (op : DebugOp) (P : State → Prop) => ∃ t, exec (.bhdebug op) s = .next t ∧ t.bh.ir = .bhdebug ∧ P t
    -- pumps
    ((width < 10000 ∨ s.pinIs (18 + n.val) 1 = false) → same (.tachEdge n width)) ∧
    (10000 ≤ width → s.pinIs (18 + n.val) 1 = true →
      (tach.last = none → gives (.tachEdge n width) (fun t => t.bh.tachs.get n = { tach with last := some s.uptime } ∧ t.regs = s.regs)) ∧
      (∀ l, tach.last = some l → gives (.tachEdge n width) (fun t => t.bh.tachs.get n = ⟨some s.uptime, ints l⟩ ∧
        ((ints l).length < ppr → t.regs = s.regs) ∧ (ppr ≤ (ints l).length → t.reg (R.BH_TACH_RPM n.val) = rpm ((ints l).take ppr))))) ∧
    (¬ stalls → same (.tachStall n)) ∧
    (stalls → gives (.tachStall n) (fun t => t.bh.tachs.get n = ⟨none, []⟩ ∧ t.reg (R.BH_TACH_RPM n.val) = 0 ∧ (t.reg (R.BH_TACH_STAT n.val)).getLsbD 0 = true ∧
      ((s.reg R.BH_PROT_TACH).getLsbD n.val = true → protected_ t 2))) ∧
    gives (.pwmPeriod pwm) (fun t => t.bh.pwm.get pwm = (s.reg (R.BH_PWM_PERIOD pwm.val), s.reg (R.BH_PWM_DUTY pwm.val), s.uptime) ∧ t.regs = s.regs) ∧
    -- pins
    (v.toNat % 4 = old → exec (.mioFselWrite p v) s = .next (s.setReg (R.MIO_FSEL p.val) (v &&& 0x1F))) ∧
    (v.toNat % 4 ≠ old → gives (.mioFselWrite p v) (fun t => t.reg (R.MIO_FSEL p.val) = v &&& 0x1F ∧ t.pinHeld p.val = some (s.pinLevel p.val) ∧
      (t.pinFn p.val = s.pinFn p.val))) ∧
    (s.pinHeld p.val = none → same (.mioSwitchEnd p)) ∧
    (s.pinHeld p.val ≠ none → gives (.mioSwitchEnd p) (fun t => t.pinHeld p.val = none ∧ t.pinFn p.val = old ∧ t.regs = s.regs)) ∧
    -- analog inputs
    ((s.reg (R.AIN_CFG ch.val)).getLsbD 0 = false → same (.ainConversionEnd ch ratio split)) ∧
    ((s.reg (R.AIN_CFG ch.val)).getLsbD 0 = true → gives (.ainConversionEnd ch ratio split) (fun t =>
      t.bh.ainEnd.find? (fun x => x.1 == ch.val) = some (ch.val, ⟨ratio, split, s.uptime⟩) ∧ t.regs = s.regs)) ∧
    (s.bh.ainEnd.find? (fun x => x.1 == ch.val) = none → same (.ainResultPost ch)) ∧
    (∀ e, s.bh.ainEnd.find? (fun x => x.1 == ch.val) = some (ch.val, ⟨ratio, split, e⟩) → s.uptime < e + 50000 → same (.ainResultPost ch)) ∧
    (∀ e, s.bh.ainEnd.find? (fun x => x.1 == ch.val) = some (ch.val, ⟨ratio, split, e⟩) → e + 50000 ≤ s.uptime →
      let r := ainReading ratio.toNat (s.reg (R.AIN_RREF ch.val)).toNat (s.reg (R.AIN_RNOM ch.val)).toNat (s.reg (R.AIN_BETA ch.val)).toNat
      let opened := (s.reg (R.AIN_CFG ch.val)).getLsbD 4 = true ∧ split = true
      gives (.ainResultPost ch) (fun t => (t.reg R.AIN_DONE).getLsbD ch.val = true ∧ t.bh.ainEnd.find? (fun x => x.1 == ch.val) = none ∧
        ((opened ∨ r = .openWire) → (t.reg R.AIN_OPEN).getLsbD ch.val = true ∧ t.reg (R.AIN_CSTAT ch.val) = 0 ∧ t.pwr.open_.getLsbD ch.val = true ∧
          t.reg (R.AIN_TEMP ch.val) = s.reg (R.AIN_TEMP ch.val)) ∧
        (¬ opened → r = .short → (t.reg R.AIN_SHORT).getLsbD ch.val = true ∧ t.reg (R.AIN_CSTAT ch.val) = 0 ∧ t.pwr.open_.getLsbD ch.val = true) ∧
        (∀ temp, ¬ opened → r = .valid temp → t.reg (R.AIN_TEMP ch.val) = BitVec.ofInt 16 temp + s.reg (R.AIN_OFFS ch.val) ∧
          t.reg32 (R.AIN_RES_LO ch.val) = ratio.setWidth 32 ∧ t.reg (R.AIN_CSTAT ch.val) = 1))) ∧
    (s.pinIs 23 1 = true → gives .shutin (fun t => protected_ t 0)) ∧ (s.pinIs 23 1 = false → same .shutin) ∧
    -- JTAG
    loads .bypass .bypass 0 ∧ loads .idcode .idcode 0x1960096F ∧ loads .testLogicReset .idcode 0 ∧
    gives (.samplePreload cells) (fun t => t.bh.ir = .sample ∧ t.bh.dr = s.mioIn ∧ t.bh.bsr = cells ∧ t.regs = s.regs) ∧
    guarded .extest .extest ∧ guarded .clamp .clamp ∧ guarded .highz .highz ∧
    ((s.reg R.BH_JTAG).getLsbD 0 = false → ∀ op, same (.bhdebug op)) ∧
    ((s.reg R.BH_JTAG).getLsbD 0 = true →
      (bh.mode = .running → debugs .halt (fun t => t.core .boathouse = { bh with mode := .stopped } ∧ t.mem = s.mem)) ∧
      (bh.mode = .stopped → debugs .resume (fun t => t.core .boathouse = { bh with mode := .running } ∧ t.mem = s.mem) ∧
        debugs .step (fun t => t.core .boathouse = { bh with mode := .running } ∧ t.bh.step = true)) ∧
      debugs .coreReset (fun t => (t.core .boathouse).pc = 0x0A000000 ∧ t.reg32 R.BH_IE_LO = 0) ∧
      debugs (.read off) (fun t => t.bh.dr = (s.word (0x08000000 + off.toNat)).setWidth 32 ∧ t.mem = s.mem) ∧
      debugs (.write off v) (fun t => t.word (0x08000000 + off.toNat) = v ∧ ∀ w, w ≠ 0x08000000 + off.toNat → t.word w = s.word w))

/-! ## The lid listener (spec/16) -/

/-- R448–R462: the pump notches, the energy gate and its floors, frames with their scores, the wakes of S1, location, verdicts and
events, sensors, and the modes of the listener. The energies e and f of a window and a frame are the model's reading of "energy"
(log entry 60). -/
def Obligations.LidListener : Prop :=
  ∀ (s : State) (x y : Vector Spectrum 4) (n : Fin 4) (b : Fin 16) (c : Fin 6) (lags : Vector Word 6) (loc v ctrl : Word) (q : BitVec 8) (hz : Nat),
    let e : Vector Int 4 := Vector.ofFn (s.s0Energy x)
    let f : Vector Int 16 := Vector.ofFn (s.s1Energy x)
    let stat := s.reg R.LL_STAT
    let on := (s.reg R.LL_CTRL).getLsbD 0 = true
    let valid := on ∧ stat.getLsbD 3 = false ∧ s.ll.starting = false
    let active := stat.getLsbD 2 = true
    let learning := stat.getLsbD 8 = true
    let same := fun (i : Instr) => exec i s = .next s
    let gives := fun (i : Instr) (P : State → Prop) => ∃ t, exec i s = .next t ∧ P t ∧ t.mem = s.mem ∧ t.cores = s.cores
    let evt := fun (t : State) (k : Nat) => (t.reg R.LL_EVT).getLsbD k = true
    let idle := fun (t : State) => (t.reg R.LL_STAT).getLsbD 2 = false ∧ t.llStage = 0 ∧ t.ll.s2on = false
    let thr := s.reg R.LL_S0_THR
    let beyond := fun (m : Fin 4) => stat.getLsbD (4 + m.val) = true ∧ ∃ o, s.ll.floors.get m = some o ∧
      (o + (thr.toNat % 256 : Nat) * 65536 < e.get m ∨ e.get m < o - (thr.toNat / 256 : Nat) * 65536)
    let span : Int := (100 * max 1 ((s.reg R.LL_S0_CFG).toNat / 256) : Nat)
    let hit := ¬ learning ∧ ∃ m, beyond m
    let enough := max 1 ((s.reg R.LL_S0_CFG).toNat % 16) ≤ s.ll.s0run + 1
    -- the notches: centres of the tachometer's RPM, taken again every 100 ms as a window starts, and no line in one counts
    let notch := s.reg R.LL_NOTCH
    let tach := (s.reg (R.BH_TACH_RPM (notch.toNat % 4))).toNat
    let due := s.ll.notchAt = none ∨ ∃ u, s.ll.notchAt = some u ∧ u + 100000000 ≤ s.uptime
    let followed := fun (t : State) => (due → t.ll.notchRpm = tach ∧ t.ll.notchAt = some s.uptime) ∧
      (¬ due → t.ll.notchRpm = s.ll.notchRpm ∧ t.ll.notchAt = s.ll.notchAt)
    (s.notched hz = true ↔ (s.reg R.LL_CTRL).getLsbD 4 = true ∧ tach ≠ 0 ∧ s.ll.notchRpm ≠ 0 ∧ ∃ i, i < notch.toNat / 4 % 16 ∧
      let centre := (i + 1) * s.ll.notchRpm * max 1 (notch.toNat / 64 % 16) * 1000
      let half := notch.toNat / 1024 * 2 * 60000
      centre ≤ 60 * hz + half ∧ 60 * hz ≤ centre + half) ∧
    ((∀ m : Fin 4, (x.get m).filter (fun p => s0Band p.1 && !(s.notched p.1)) = (y.get m).filter (fun p => s0Band p.1 && !(s.notched p.1))) →
      s.s0Energy x n = s.s0Energy y n) ∧
    ((∀ m : Fin 4, (x.get m).filter (fun p => s1Band b.val p.1 && !(s.notched p.1)) =
        (y.get m).filter (fun p => s1Band b.val p.1 && !(s.notched p.1))) → s.s1Energy x b = s.s1Energy y b) ∧
    -- S0
    (¬ valid → same (.s0Window x)) ∧
    (valid → gives (.s0Window x) (fun t => followed t ∧
      (stat.getLsbD (4 + n.val) = true → s.ll.floors.get n = none → t.ll.floors.get n = some (e.get n)) ∧
      (∀ o, stat.getLsbD (4 + n.val) = true → s.ll.floors.get n = some o →
        (learning → t.ll.floors.get n = some (o + (e.get n - o) / (s.ll.learn + 1 : Nat)) ∧ t.ll.learn = s.ll.learn + 1) ∧
        (¬ learning → beyond n → t.ll.floors.get n = some o) ∧
        (¬ learning → ¬ beyond n → t.ll.floors.get n = some (o + (e.get n - o) / span) ∧
          t.reg (R.LL_FLOOR n.val) = BitVec.ofInt 16 ((o + (e.get n - o) / span) / 65536))) ∧
      (stat.getLsbD (4 + n.val) = false → t.ll.floors.get n = s.ll.floors.get n) ∧
      (hit → enough → ¬ active → evt t 6 ∧ (t.reg R.LL_STAT).getLsbD 2 = true ∧ (t.reg R.LL_STAT).getLsbD 3 = true ∧ t.llStage = 1) ∧
      (hit → ¬ enough → t.ll.s0run = s.ll.s0run + 1 ∧ t.reg R.LL_STAT = stat) ∧ (¬ hit → t.ll.s0run = 0 ∧ t.reg R.LL_STAT = stat))) ∧
    gives .settleEnd (fun t => (t.reg R.LL_STAT).getLsbD 3 = false ∧ t.ll.starting = false ∧ followed t ∧ ∀ a, a ≠ R.LL_STAT → t.reg a = s.reg a) ∧
    -- S1
    (¬ (valid ∧ active) → same (.s1Frame x)) ∧
    (valid → active →
      let score := fun (k : Nat) => min 255 (((List.finRange 16).map (fun m =>
        ((s.reg (R.LL_TPL k m.val)).setWidth 8).toInt * (f.get m - s.ll.bases.get m / 65536))).sum / 32).toNat
      let cfg := s.reg R.LL_S1_CFG
      let quiet := ∀ k, k < 6 → score k < cfg.toNat % 256
      let hold := max 1 (cfg.toNat / 256 % 16)
      let stays := (s.reg R.LL_CTRL).getLsbD 2 = true ∨ (s.reg R.LL_CTRL).getLsbD 3 = true
      gives (.s1Frame x) (fun t => t.reg (R.LL_BAND b.val) = BitVec.ofInt 16 (f.get b) ∧ t.reg (R.LL_SCORE c.val) = BitVec.ofNat 16 (score c.val) ∧
        (¬ quiet → t.ll.bases.get b = s.ll.bases.get b) ∧
        (quiet → let g := s.ll.bases.get b + (f.get b * 65536 - s.ll.bases.get b) * 4 / (375 * max 1 ((s.reg R.LL_S0_CFG).toNat / 256) : Nat)
          t.ll.bases.get b = g ∧ t.reg (R.LL_BASE b.val) = BitVec.ofInt 16 (g / 65536)) ∧
        (quiet → ¬ stays → (s.reg R.LL_IDLE).toNat % 4096 ≤ s.ll.quiet + 1 → idle t) ∧
        (quiet → stays → t.ll.quiet = s.ll.quiet + 1 ∧ t.ll.s1run = 0) ∧
        (¬ quiet → stays → hold ≤ s.ll.s1run + 1 → s.ll.s2on = false →
          ((s.reg R.LL_CTRL).getLsbD 1 = true → evt t 7 ∧ t.llStage = 2 ∧ t.ll.s2on = true ∧ t.ll.s2frames = 0) ∧
          ((s.reg R.LL_CTRL).getLsbD 1 = false → s.llStage < 3 → evt t 8 ∧ t.llStage = 3)) ∧
        (let tc := s.reg (R.LL_TPLCFG c.val)
         tc.getLsbD 0 = true → tc.toNat / 256 ≤ score c.val → hold ≤ s.ll.hwrun.get c + 1 → s.ll.hwheld.getLsbD c.val = false →
           evt t c.val ∧ t.reg64 (R.LL_LASTTIME 0) = BitVec.ofNat 64 s.time ∧
           t.reg (R.LL_COUNT c.val) = BitVec.ofNat 16 (min 0xFFFF ((s.reg (R.LL_COUNT c.val)).toNat + 1))))) ∧
    -- S2 and verdicts
    (¬ (valid ∧ active ∧ s.ll.s2on = true ∧ 4 ≤ s.ll.s2frames) → same (.s2Result lags loc q)) ∧
    (valid → active → s.ll.s2on = true → 4 ≤ s.ll.s2frames → gives (.s2Result lags loc q) (fun t => evt t 8 ∧ t.llStage = 3 ∧
      (stat &&& 0xF0 = 0xF0 → t.reg (R.LL_LAG c.val) = BitVec.ofInt 16 (max (-128) (min 128 (lags.get c).toInt)) ∧ t.reg R.LL_LOC = loc ∧ t.reg R.LL_LOCQ = q.setWidth 16 ∧ t.ll.located = true) ∧
      (stat &&& 0xF0 ≠ 0xF0 → t.reg (R.LL_LAG c.val) = s.reg (R.LL_LAG c.val) ∧ t.reg R.LL_LOC = 0 ∧ t.reg R.LL_LOCQ = 0 ∧ t.ll.located = false) ∧
      ((s.reg R.LL_EVT).getLsbD 8 = true → evt t 10))) ∧
    (let k := v.toNat % 8
     let conf := v.toNat / 8 % 256
     let raises := on ∧ 1 ≤ k ∧ k ≤ 6 ∧ (s.reg R.LL_S3_THR).toNat % 256 ≤ conf
     (¬ raises → exec (.verdictPost v) s = .next (s.setReg R.LL_VERDICT (v &&& 0x07FF))) ∧
     (raises → gives (.verdictPost v) (fun t => t.reg R.LL_VERDICT = v &&& 0x07FF ∧ evt t (k - 1) ∧
       t.reg R.LL_LAST = BitVec.ofNat 16 (k + 8 + conf * 16 + if s.ll.located then 4096 else 0) ∧ t.reg64 (R.LL_LASTTIME 0) = BitVec.ofNat 64 s.time ∧
       t.reg (R.LL_COUNT (k - 1)) = BitVec.ofNat 16 (min 0xFFFF ((s.reg (R.LL_COUNT (k - 1))).toNat + 1)) ∧
       ((s.reg R.BH_PROT_LL).getLsbD (k - 1) = true → (s.reg R.BH_PROT_EN).getLsbD 3 = true → (t.reg R.BH_PROT_CAUSE).getLsbD 3 = true)))) ∧
    -- sensors and modes
    (on → stat.getLsbD (4 + n.val) = true → gives (.sensorFail n) (fun t => (t.reg R.LL_STAT).getLsbD (4 + n.val) = false ∧ evt t 9)) ∧
    ((¬ on ∨ stat.getLsbD (4 + n.val) = false) → same (.sensorFail n)) ∧
    (on → gives (.sensorRecovery n) (fun t => (t.reg R.LL_STAT).getLsbD (4 + n.val) = true) ∧
      (200 ≤ s.ll.learn → gives .learnEnd (fun t => (t.reg R.LL_STAT).getLsbD 8 = false ∧ t.ll = s.ll ∧
        ∀ o, s.ll.floors.get n = some o → t.reg (R.LL_FLOOR n.val) = BitVec.ofInt 16 (o / 65536)))) ∧
    (¬ on → same (.sensorRecovery n)) ∧ (¬ (on ∧ 200 ≤ s.ll.learn) → same .learnEnd) ∧
    (ctrl.getLsbD 0 = false → gives (.listenerEnable ctrl) (fun t => t.reg R.LL_CTRL = ctrl &&& 0x1F ∧ idle t) ∧
      gives (.forceact ctrl) (fun t => t.reg R.LL_CTRL = (ctrl ||| 8) &&& 0x1F ∧ idle t)) ∧
    (ctrl.getLsbD 0 = true → ¬ on → ∀ i ∈ [Instr.listenerEnable ctrl, .forceact ctrl], gives i (fun t => t.ll = Listener.reset ∧
      ∀ a, 0xF0701000 ≤ a → a < 0xF0702000 → t.reg a = regReset a)) ∧
    (ctrl.getLsbD 0 = true → on → (active ∨ ctrl.getLsbD 3 = false) → exec (.listenerEnable ctrl) s = .next (s.setReg R.LL_CTRL (ctrl &&& 0x1F))) ∧
    (ctrl.getLsbD 0 = true → on → ¬ active → gives (.forceact ctrl) (fun t => t.reg R.LL_CTRL = (ctrl ||| 8) &&& 0x1F ∧
      (t.reg R.LL_STAT).getLsbD 2 = true ∧ (t.reg R.LL_STAT).getLsbD 3 = true ∧ t.llStage = 1))

/-! ## Start-up, resets and the host (spec/17) -/

/-- R463–R476: VBH power-on, package power-on and its conditions, the warm reset, resets of crews and control cores, the loader
port, and what firmware powers, loads and brings up. The operands and steps of the bring-up are the model's choice (log entry
57). -/
def Obligations.StartUpAndResets : Prop :=
  ∀ (s : State) (crew : Fin 96) (v devid sysid : Word) (sec : Section) (draw : Nat),
    let c := crew.val
    let same := fun (i : Instr) => exec i s = .next s
    let gives := fun (i : Instr) (P : State → Prop) => ∃ t, exec i s = .next t ∧ P t
    let rst := R.COX_RSTSTAT c
    let fresh := fun (t : State) => t.mem = [] ∧ (∀ a, a ≠ R.BH_BOOT → t.reg a = regReset a) ∧ t.reg R.BH_BOOT = s.bh.bootRec &&& 0xF ∧
      (∀ k, t.core k = coreDefault (coreKey k)) ∧ t.vcOn = 0 ∧ t.vmeshOn = false ∧ t.vioOn = false ∧ t.time = 0 ∧ t.flash = s.flash ∧
      t.pending = s.pending ∧ t.bh.recorded = s.bh.recorded ∧ t.bh.bootRec = s.bh.bootRec ∧ t.bh.keyFuse = s.bh.keyFuse
    let off := s.pwr.stage1 = false ∧ s.onlyVbh = true
    let sound := 4000 ≤ (s.reg R.PWR_VIN).toNat ∧ s.reg R.BH_PROT_CAUSE = 0 ∧ (s.reg R.PWR_FLT).getLsbD 1 = false ∧ (s.reg R.PWR_FLT).getLsbD 2 = false
    let powered := fun (t : State) => t.pwr.stage1 = true ∧ t.vioOn = true ∧ t.vmeshOn = false ∧ t.bh.tripId = none ∧ t.mem = s.mem ∧
      (∀ a, 0xF0600000 ≤ a → a < 0xF0607000 → t.reg a = regReset a) ∧ (∀ k n, (t.core (.seat k n)).mode = .idle)
    let held := fun (t : State) (k : Fin 96) => (t.core (.cox k)).mode = .reset ∧ (t.reg (R.COX_RSTSTAT k.val)).getLsbD 0 = true
    exec .vbhPowerOn s = exec .auxLoss s ∧ gives .vbhPowerOn fresh ∧ gives .auxLoss fresh ∧
    let romPhase := if (s.reg R.BH_BOOT).getLsbD 6 = true then 6 else 1
    let bhRuns := (s.core .boathouse).mode = .running
    (s.inRom = true → off → sound → s.bh.tripId = none → gives .stage1Check (fun t => powered t ∧ t.bh.phase = romPhase)) ∧
    ((s.inRom = false ∨ s.bh.tripId ≠ none) → same .stage1Check) ∧
    ((¬ off ∨ ¬ sound) → same .stage1Check ∧ same .packagePowerOn ∧ same .uvinRestart) ∧
    -- after a step fault other than UVIN, only on a commitment made since
    (let renewed := (s.reg R.PWR_CAUSE).toNat % 16 ≠ 1 ∧ ∃ old x, s.bh.tripId = some old ∧ s.bh.commit = some x ∧ x.1.id ≠ old ∧ x.1.target ≠ 0
     (bhRuns → off → sound → (s.bh.tripId = none ∨ renewed) → gives .packagePowerOn (fun t => powered t ∧
       t.bh.phase = if s.inRom = true then romPhase else 8)) ∧
     ((¬ bhRuns ∨ (s.bh.tripId ≠ none ∧ ¬ renewed)) → same .packagePowerOn)) ∧
    (s.firmware = true → off → sound → (s.reg R.PWR_CAUSE).toNat % 16 = 1 → 4200 ≤ (s.reg R.PWR_VIN).toNat → gives .uvinRestart powered) ∧
    ((s.firmware = false ∨ (s.reg R.PWR_CAUSE).toNat % 16 ≠ 1 ∨ (s.reg R.PWR_VIN).toNat < 4200) → same .uvinRestart) ∧
    -- warm reset
    (s.warm = true → same .warm ∧ gives .warmResetDone (fun t => t.warm = false ∧ t.mem = s.mem ∧ t.ports = [] ∧ t.ini = [] ∧ t.rxc = [] ∧ t.routers = [] ∧ t.meshWait = [] ∧ t.ops = [] ∧
      (∀ a, 0xF0600000 ≤ a → a < 0xF0607000 → t.reg a = regReset a) ∧ (∀ a, 0xF1000000 ≤ a → a < 0xF1C00000 → t.reg a = regReset a) ∧
      (∀ k n, (t.core (.seat k n)).mode = .idle) ∧ (∀ k, held t k) ∧ t.core .boathouse = s.core .boathouse ∧ t.bh = s.bh ∧ t.pwr = s.pwr)) ∧
    (s.warm = false → same .warmResetDone ∧ gives .warm (fun t => t.warm = true ∧ t.mem = s.mem ∧ t.rxc = [] ∧ t.dma = [] ∧ t.ops = [] ∧
      (∀ k, k < 16 → t.slotState k = 0) ∧ (∀ k n, (t.core (.seat k n)).mode = .idle) ∧ (∀ k, held t k) ∧
      (∀ p, p < 32 → s.linkUp p = true → t.portState p = 7))) ∧
    -- crews and control cores
    (s.crewUp c = true →
      gives (.coxCorerst crew) (fun t => held t crew ∧ (∀ k, k ≠ .cox crew → t.core k = s.core k) ∧ (∀ a, a ≠ rst → t.reg a = s.reg a) ∧ t.mem = s.mem) ∧
      (s.crewAssigned c = true → exec (.crewrst crew) s = .next (s.setReg rst (s.reg rst ||| 2))) ∧
      (s.crewAssigned c = false → gives (.crewrst crew) (fun t => t.reg rst = 5 ∧ t.crewRst.getLsbD c = true ∧ t.mem = s.mem ∧ held t crew ∧
        (∀ n, (t.core (.seat crew n)).mode = .idle) ∧ (∀ a, 0xF0000000 + c * 0x10000 ≤ a → a < 0xF0000000 + c * 0x10000 + 0x3C00 → t.reg a = regReset a))) ∧
      ((s.reg rst).getLsbD 0 = true → exec (.run crew) s = .next ((s.setReg rst (s.reg rst &&& 0xFFFE)).setCore (.cox crew)
        { s.core (.cox crew) with mode := .running, pc := s.reg32 (R.COX_BOOT_LO c) &&& 0xFFFFFFFE })) ∧
      ((s.reg rst).getLsbD 0 = false → same (.run crew))) ∧
    (s.crewUp c = false → same (.coxCorerst crew) ∧ same (.crewrst crew) ∧ same (.run crew)) ∧
    (s.crewRst.getLsbD c = true → gives (.crewResetDone crew) (fun t => t.crewRst.getLsbD c = false ∧ t.reg rst = s.reg rst &&& 0xFFFB ∧
      (∀ a, a ≠ rst → t.reg a = s.reg a) ∧ t.mem = s.mem)) ∧
    (s.crewRst.getLsbD c = false → same (.crewResetDone crew)) ∧
    (let at_ := (s.reg32 (R.COX_LDADDR_LO c)).toNat % 0x800000
     let w := 0x20000000 + c * 0x800000 + at_
     (s.crewMem c = true → s.inCacheRange w = false → gives (.lddata crew v) (fun t => t.word w = v ∧ (∀ y, y ≠ w → t.word y = s.word y) ∧
       t.reg32 (R.COX_LDADDR_LO c) = BitVec.ofNat 32 ((at_ + 1) % 0x800000) ∧ t.cores = s.cores)) ∧
     ((s.crewMem c = false ∨ s.inCacheRange w = true) → exec (.lddata crew v) s = .next (s.setReg rst (s.reg rst ||| 2)))) ∧
    -- firmware as shipped
    (s.firmware = false → same (.coxLoad true) ∧ same (.coxLoad false) ∧ same (.fabricBringup devid sysid) ∧ same (.domainSectionPowerUp sec draw)) ∧
    (s.firmware = true →
      gives (.coxLoad true) (fun t => t.fld R.HST_BOOTSTAT 0 4 = 3 ∧ t.mem = s.mem ∧ t.cores = s.cores) ∧
      (s.crewUp c = true → (s.reg rst).getLsbD 0 = true → s.coxImage.length ≤ 0x7C0000 → gives (.coxLoad false) (fun t =>
        (t.core (.cox crew)).mode = .running ∧ (t.core (.cox crew)).pc = 0x00100000 ∧ (t.reg rst).getLsbD 0 = false ∧
        ∀ i, i < s.coxImage.length → t.word (0x20000000 + c * 0x800000 + i) = s.coxImage.getD i 0)) ∧
      -- the bring-up in two steps: the identity and the ports, then the routing table and the stroke
      ((∀ k, k < 96 → s.crewUp k = true) → s.bh.phase ≠ 4 → (∀ p, p < 32 → s.portState p = 0) →
        (∀ p, p < 32 → (s.reg (R.GW_CTRL p)).getLsbD 0 = false) → gives (.fabricBringup devid sysid) (fun t => t.bh.phase = 4 ∧
        t.fld R.HST_BOOTSTAT 0 4 = 4 ∧ t.reg R.GW_SYSID = sysid ∧ t.reg R.GW_DEVID = (devid ||| 0x8000) &&& 0x80FF ∧ t.stkState = s.stkState ∧
        t.mem = s.mem ∧ (∀ p, p < 32 → s.gwUp p = true → t.portState p = 1 ∧ (t.reg (R.GW_CTRL p)).getLsbD 0 = true))) ∧
      ((∀ k, k < 96 → s.crewUp k = true) → s.bh.phase = 4 → gives (.fabricBringup devid sysid) (fun t => t.mem = s.mem ∧
        (∀ d, d < 256 → t.reg (R.RT_W0 d) = s.defaultEntry d &&& 0x1FFF) ∧ (t.reg R.STK_CTRL).getLsbD 0 = true ∧
        (s.stkState = 0 → t.stkState = 1 ∧ t.ports = s.ports))) ∧
      ((∃ k, k < 96 ∧ s.crewUp k = false) → same (.fabricBringup devid sysid)) ∧
      (let small := draw ≤ 8000
       let may := s.pwr.stage1 = true ∧ s.zeroed = true ∧ s.nextSection sec = true ∧ (∀ k, sec = .vstore k → small) ∧ (∀ k, sec = .vgw k → small) ∧
         s.paceOn = true ∧ (s.reg32 R.PACE_DEMAND_LO).toNat + draw ≤ s.pwr.hi
       (¬ may → same (.domainSectionPowerUp sec draw)) ∧
       (may → gives (.domainSectionPowerUp sec draw) (fun t => t.fld R.HST_BOOTSTAT 0 4 = 2 ∧ t.mem = s.mem ∧
         (sec = .vmesh → t.vmeshOn = true ∧ s.vmeshOn = false) ∧ (∀ k, sec = .vstore k → t.storeOn = s.storeOn ||| k ∧ s.vmeshOn = true) ∧
         (∀ k, sec = .vgw k → t.vgwOn.getLsbD k.val = true ∧ s.storeOn = BitVec.allOnes 96) ∧
         (∀ k, sec = .vc k → t.crewOn k.val = true ∧ s.vgwOn = BitVec.allOnes 16)))))

/-- R59–R62, R359, R463, R469, R479–R487: requests through PF0 and a VF, messages, functions and their resets, and the host DMA
channels; and what the host and a channel get as the last answer to their accesses leaves the mesh. The place of a bit of aer and its
stay until PERST#, and the places of items in configuration space, are the model's choice (log entry 38). -/
def Obligations.HostInterface : Prop :=
  (∀ (s : State) (k : Fin 16) (fn : Fin 17) (v bits : Word) (crew : BitVec 7) (dw : Nat) (x : BitVec 32) (on : Bool) (speed : Fin 7) (width : Fin 32)
    (data : List Word) (d : List (BitVec 8)),
    let n := k.val + 1
    let m := fn.val
    let same := fun (i : Instr) => exec i s = .next s
    let gives := fun (i : Instr) (P : State → Prop) => ∃ t, exec i s = .next t ∧ P t
    -- a vector rises: a message, or a pending bit
    let raised := fun (t : State) (a vec : Nat) => s.vioOn = true → (s.fn a).present = true →
      ((s.fn a).masked vec = false → (s.fn a).bme = true → (s.fn a).d3 = false → t.out = s.out ++ [.msix a vec]) ∧
      ((s.fn a).masked vec = true ∨ (s.fn a).bme = false ∨ (s.fn a).d3 = true → (t.fn a).pba.getLsbD vec = true ∧ t.out = s.out)
    let there := s.vioOn = true ∧ (s.fn m).present = true
    let up := s.vioOn = true ∧ s.perst = false ∧ s.link.1 ≠ 0
    let bar := up ∧ (s.fn 0).mse = true
    let chan := fun (t : State) => t.chan m
    let halts := fun (t : State) (cause : Nat) => t.chWord m 5 = BitVec.ofNat 16 (2 + 4 * cause) ∧ chan t = ⟨[], 0, false, false⟩ ∧ t.mem = s.mem
    let runs := s.vioOn = true ∧ s.warm = false ∧ (s.fn m).present = true ∧ s.chState m = 1 ∧ (s.fn m).d3 = false ∧ (s.fn m).bme = true ∧
      (s.chan m).abort = false
    let write : HostReq := ⟨.bar0, dw, 1, 15, 0, some [x]⟩
    let read : HostReq := ⟨.bar0, dw, 1, 15, 0, none⟩
    let atomic : HostReq := ⟨.atomic, dw, 1, 15, 0, some [x]⟩
    let config : Nat → Option (List (BitVec 32)) → HostReq := fun i v => ⟨.config, i, 1, 15, 0, v⟩
    let store := 0x20000000 ≤ 2 * dw ∧ 2 * dw + 1 < 0x50000000
    let both := fun (P : Nat → Prop) => P (2 * dw) ∧ P (2 * dw + 1)
    -- an access of the host interface to memory begins: its packet stands at link H of its router
    let begins := fun (t : State) (use : OpFor) (lane base len : Nat) (ws : Option (List (Nat × Word))) => ∃ (o : MemOp) (p : Packet),
      t.ops = s.ops ++ [o] ∧ o.who = .host ∧ s.opTag .host = some o.tag ∧ o.use = use ∧ o.todo = [] ∧ o.left = 1 ∧ o.got = [] ∧ o.bad = none ∧
      t.atInput 90 2 0 = s.atInput 90 2 0 ++ [p] ∧ p.req = .host ∧ p.tag = o.tag ∧ p.dst = memCrew base ∧ p.exit = .crew ∧ p.lane = lane ∧
      p.poison = false ∧ p.addr = base ∧ p.len = len ∧ p.kind = (if ws = none then .read else .write) ∧ p.words = ws.getD []
    let idle := ∀ o ∈ s.ops, o.todo = []
    let data2 := some [(2 * dw, x.setWidth 16), (2 * dw + 1, (x >>> 16).setWidth 16)]
    let serves := fun (i : HostReq → Instr) (a lane : Nat) => (s.opTag .host = none → same (i write) ∧ same (i read)) ∧
      (s.opTag .host ≠ none → idle →
        gives (i write) (fun t => begins t (.host a write) lane (2 * dw) 2 data2 ∧ t.lastRead = some ⟨.ok, []⟩ ∧ t.mem = s.mem) ∧
        gives (i read) (fun t => begins t (.host a read) lane (2 * dw) 2 none ∧ t.lastRead = s.lastRead ∧ t.mem = s.mem))
    -- requests
    (¬ bar → same (.hostRequest write) ∧ same (.hostRequest read) ∧ same (.hostRequest atomic)) ∧ (¬ up → same (.vfAccess k write)) ∧
    (bar → (s.fn 0).d3 = true → exec (.hostRequest read) s = .next { s with lastRead := some ⟨.unsupported, []⟩ }) ∧
    (bar → (s.fn 0).d3 = false →
      gives (.hostRequest atomic) (fun t => t.mem = s.mem ∧ t.regs = s.regs ∧ t.lastRead = some ⟨.unsupported, []⟩ ∧ t.aer = s.aer ||| 0x100000) ∧
      (inRegs (2 * dw) = true →
        (s.pfErrors read = [] → gives (.hostRequest read) (fun t => t.ctl = s.ctl ++ [⟨.host, .host read, 0, []⟩] ∧ t.lastRead = s.lastRead)) ∧
        (s.pfErrors write = [] → gives (.hostRequest write) (fun t => t.ctl = s.ctl ++ [⟨.host, .host write, 0, []⟩] ∧
          t.lastRead = some ⟨.ok, []⟩))) ∧
      (store →
        (both (fun w => s.pfMapped w true = true ∧ s.pfMapped w false = true) → s.crewMem (memCrew (2 * dw)) = true → serves Instr.hostRequest 0 0) ∧
        (s.crewMem (memCrew (2 * dw)) = false → s.reg R.HST_ACCERR_STAT = 0 →
          let noted := fun (t : State) => t.mem = s.mem ∧ t.ops = s.ops ∧ t.reg R.HST_ACCERR_STAT = 8 ∧
            t.reg32 R.HST_ACCERR_ADDR_LO = BitVec.ofNat 32 (2 * dw) ∧ (t.reg (R.MESH_ERR (routerBefore 90 (memCrew (2 * dw))))).getLsbD 2 = true
          (both (fun w => s.pfMapped w true = true) → gives (.hostRequest write) (fun t => noted t ∧ t.lastRead = some ⟨.discarded, []⟩)) ∧
          (both (fun w => s.pfMapped w false = true) → gives (.hostRequest read) (fun t => noted t ∧ t.lastRead = some ⟨.completerAbort, []⟩ ∧
            t.aer = s.aer ||| 0x8000 ∧ ((s.fn 0).serr = true → t.out.getLast? = some .pcieError)))))) ∧
    (up → gives (.hostRequest (config 0 none)) (fun t => t.lastRead = some ⟨.ok, wordsBytes ((0x9600 : Word) ++ (0x1F9B : Word)) true⟩ ∧ t.mem = s.mem) ∧
      gives (.hostRequest (config 1 (some [x]))) (fun t => (t.fn 0).mse = x.getLsbD 1 ∧ (t.fn 0).bme = x.getLsbD 2 ∧ (t.fn 0).serr = x.getLsbD 8 ∧
        t.mem = s.mem)) ∧
    (up → (s.fn n).present = true → (s.fn n).d3 = false → store →
      (s.slotState k.val = 1 → both (fun w => s.vfMay k.val w = true) → serves (Instr.vfAccess k) n (s.slotLane k.val)) ∧
      ((s.slotState k.val ≠ 1 ∨ s.vfMay k.val (2 * dw) = false) → gives (.vfAccess k write) (fun t => t.mem = s.mem ∧ t.regs = s.regs ∧
        t.cores = s.cores ∧ t.ops = s.ops ∧ t.lastRead = some ⟨.discarded, []⟩ ∧ (mapGet (fun _ => (0 : Word)) t.vfErr n).getLsbD 2 = true))) ∧
    -- messages and doorbells
    (s.warm = true → same .rearm ∧ same (.irqSend v)) ∧
    (s.warm = false → (s.hostFault = false → same .rearm) ∧ (s.hostFault = true → gives .rearm (fun t => raised t 0 0 ∧ t.mem = s.mem)) ∧
      (let f := v.toNat % 32
       let vec := v.toNat / 32 % 64
       let bad := 16 < f ∨ (s.fn f).present = false ∨ vec < if f = 0 then 3 else 2
       gives (.irqSend v) (fun t => t.reg R.HST_IRQ_SEND = v &&& 0x07FF ∧ t.mem = s.mem ∧
         (bad → t.reg R.HST_LINK = s.reg R.HST_LINK ||| 0x0200 ∧ t.out = s.out) ∧ (¬ bad → t.reg R.HST_LINK = s.reg R.HST_LINK ∧ raised t f vec)))) ∧
    ((s.fn n).present = false → same (.vfDbell k bits crew) ∧ same (.vfReset k)) ∧
    ((s.fn n).present = true →
      (s.slotState k.val = 1 → crew.toNat < 96 → s.crewAssigned crew.toNat = true → s.crewSlot crew.toNat = k.val → s.crewUp crew.toNat = true →
        exec (.vfDbell k bits crew) s = .next (s.setReg (R.COX_DBELL_STAT crew.toNat) (s.reg (R.COX_DBELL_STAT crew.toNat) ||| bits))) ∧
      ((s.slotState k.val ≠ 1 ∨ s.crewSlot crew.toNat ≠ k.val) → gives (.vfDbell k bits crew) (fun t => t.regs = s.regs ∧
        (mapGet (fun _ => (0 : Word)) t.vfErr n).getLsbD 0 = true)) ∧
      gives (.vfReset k) (fun t => t.fn n = { HostFn.reset n with present := true } ∧ t.chan n = ⟨[], 0, false, false⟩ ∧ t.chState n = 0 ∧ t.regs = s.regs ∧ t.mem = s.mem)) ∧
    -- functions
    (s.vioOn = true → exec (.linkTraining speed width on) s = .next { s with perst := false, link := (speed.val, width.val, on) }) ∧
    (s.vioOn = false → exec (.linkTraining speed width on) s = .next { s with perst := false }) ∧
    (∀ kind, gives (.pf0Reset kind) (fun t => t.mem = s.mem ∧ t.cores = s.cores ∧ t.fn 0 = HostFn.reset 0 ∧ (t.fn n).present = false ∧
      (∀ a, 0xF0609000 ≤ a → a < 0xF060A000 → t.reg a = regReset a) ∧ t.chan n = ⟨[], 0, false, false⟩ ∧
      ((kind = .perst ∨ kind = .linkDown) → t.link = (0, 0, false)) ∧ ((kind = .hot ∨ kind = .flr) → t.link = s.link) ∧
      t.perst = (s.perst || decide (kind = .perst)) ∧ (kind = .perst → t.aer = 0) ∧ (kind ≠ .perst → t.aer = s.aer))) ∧
    (s.vioOn = true → gives (.vfEnable on) (fun t => (t.fn n).present = on ∧ t.mem = s.mem ∧ t.regs = s.regs)) ∧
    (¬ there → same (.bmeClear fn on) ∧ same (.d3hot fn on)) ∧
    (there → gives (.bmeClear fn on) (fun t => (t.fn m).bme = on ∧ t.mem = s.mem ∧ (on = false → s.chState m = 1 → halts t 7)) ∧
      gives (.d3hot fn on) (fun t => (t.fn m).d3 = on ∧ t.mem = s.mem)) ∧
    -- host DMA
    (there → s.warm = false →
      (s.chState m ≠ 1 → (s.fn m).bme = true → gives (.hdmaStart fn) (fun t => t.chState m = 1 ∧ chan t = ⟨[], 0, true, false⟩ ∧ t.chWord m 6 = 0 ∧
        t.chLong m 8 = s.chLong m 0 / 32 * 32 ∧ t.mem = s.mem)) ∧
      (s.chState m ≠ 1 → (s.fn m).bme = false → gives (.hdmaStart fn) (fun t => halts t 7)) ∧ (s.chState m = 1 → same (.hdmaStart fn)) ∧
      (let waits := s.chState m = 1 ∧ hdFlag (s.chan m).desc 0 = false ∧ ∃ o ∈ s.ops, o.use = .channel m
       gives (.hdmaAbort fn) (fun t => t.mem = s.mem ∧ (waits → t.chState m = 1 ∧ chan t = ⟨[], 0, false, true⟩ ∧ t.ops = s.ops) ∧
         (¬ waits → t.chState m = 0 ∧ chan t = ⟨[], 0, false, false⟩)))) ∧
    (¬ runs → same (.hdmaDescriptorFetch fn (some d)) ∧ same (.hdmaCompletion fn data false)) ∧
    (runs → (s.chan m).fetch = true →
      gives (.hdmaDescriptorFetch fn none) (fun t => halts t 2) ∧
      (hdBad d = true → gives (.hdmaDescriptorFetch fn (some d)) (fun t => halts t 1)) ∧
      (hdBad d = false → s.hdAllowed m d = false → gives (.hdmaDescriptorFetch fn (some d)) (fun t => halts t 4)) ∧
      (hdBad d = false → s.hdAllowed m d = true → gives (.hdmaDescriptorFetch fn (some d)) (fun t => chan t = ⟨d, 0, false, false⟩ ∧ t.chState m = 1 ∧
        t.mem = s.mem)) ∧ same (.hdmaCompletion fn data false)) ∧
    (runs → (s.chan m) = ⟨d, 0, false, false⟩ → d ≠ [] → 0 < hdLen d →
      let lane := if m = 0 then 0 else s.slotLane (m - 1)
      let short := hdLen d ≤ 128 ∧ ∀ i, i < hdLen d → memCrew (hdDev d + i) = memCrew (hdDev d)
      (s.opTag .host = none → same (.hdmaCompletion fn data false)) ∧
      (s.opTag .host ≠ none → idle → short → s.chBusy m = false →
        (hdFlag d 0 = false → data.length = hdLen d → (∀ i, i < hdLen d → s.chMay m (hdDev d + i) true = true) →
          gives (.hdmaCompletion fn data false) (fun t => begins t (.channel m) lane (hdDev d) (hdLen d)
            (some ((List.range (hdLen d)).map (fun i => (hdDev d + i, data.getD i 0)))) ∧ chan t = ⟨d, hdLen d, false, false⟩ ∧ t.chState m = 1 ∧
            t.mem = s.mem)) ∧
        (hdFlag d 0 = true → (∀ i, i < hdLen d → s.chMay m (hdDev d + i) false = true) →
          gives (.hdmaCompletion fn data false) (fun t => begins t (.channel m) lane (hdDev d) (hdLen d) none ∧ chan t = s.chan m ∧
            t.chState m = 1 ∧ t.mem = s.mem)))) ∧
    (s.vioOn = true → s.chState m = 1 → (s.chan m).fetch = true → gives (.cplto fn) (fun t => halts t 3)) ∧
    (s.chState m ≠ 1 → same (.cplto fn))) ∧
  -- the last answer to an access of the host interface leaves the mesh by link H
  (∀ (s : State) (r : Fin 96) (i : Nat) (a : Packet) (o : MemOp) (m : Fin 17) (d : List (BitVec 8)) (data : List Word) (dw : Nat) (lo hi : Word)
      (x : BitVec 32), s.meshUp = true → i < 7 → s.meshIn r.val i 1 = [a] → (∀ j v, (j, v) ≠ (i, 1) → s.meshIn r.val j v = []) →
    mapGet (fun _ => []) s.meshWait (meshKey r.val i 1) = [] → a.vc = 1 → a.load = none → routeOut r.val a = 6 → a.flits ≤ 8 →
    a.promoted = false → s.overAge a = false → s.holder r.val 6 1 = none → s.ops = [o] → o.who = a.req → o.tag = a.tag → o.todo = [] → o.left = 1 →
    o.bad = none → o.got = [] →
    let ends := fun (P : State → Prop) => ∃ t, exec (.routerArbitration r ⟨6, .none⟩) s = .next t ∧ t.ops = [] ∧ t.mem = s.mem ∧ t.cores = s.cores ∧ P t
    let write : HostReq := ⟨.bar0, dw, 1, 15, 0, some [x]⟩
    let read : HostReq := ⟨.bar0, dw, 1, 15, 0, none⟩
    let n := m.val
    -- a request of the host
    (o.use = .host n read →
      (a.kind ≠ .error → a.poison = false → a.words = [(2 * dw, lo), (2 * dw + 1, hi)] → ends (fun t =>
        t.lastRead = some ⟨.ok, [lo.setWidth 8, (lo >>> 8).setWidth 8, hi.setWidth 8, (hi >>> 8).setWidth 8]⟩)) ∧
      (a.kind ≠ .error → a.poison = true → a.cause = .none → ends (fun t => t.lastRead = some ⟨.poisoned, []⟩)) ∧
      (a.kind = .error → (a.cause = .unpowered ∨ a.cause = .unmapped) →
        (n = 0 → s.reg R.HST_ACCERR_STAT = 0 → ends (fun t => t.lastRead = some ⟨.completerAbort, []⟩ ∧
          t.reg R.HST_ACCERR_STAT = (if a.cause = .unpowered then 8 else 1) ∧ t.reg32 R.HST_ACCERR_ADDR_LO = BitVec.ofNat 32 a.addr)) ∧
        (n ≠ 0 → ends (fun t => t.lastRead = some ⟨.unsupported, []⟩ ∧ (mapGet (fun _ => (0 : Word)) t.vfErr n).getLsbD 2 = true)))) ∧
    (o.use = .host n write → a.kind ≠ .error → a.poison = false → ends (fun t => t.lastRead = s.lastRead)) ∧
    -- a channel
    (o.use = .channel n →
      let ended := fun (t : State) => t.chState n = 0 ∧ t.chan n = ⟨[], 0, false, false⟩
      let signals := fun (t : State) => ended t ∧ t.chWord n 7 ++ t.chWord n 6 = (s.chWord n 7 ++ s.chWord n 6) + (1 : BitVec 32)
      let plain := hdFlag d 1 = true ∧ hdFlag d 2 = false ∧ hdFlag d 3 = false
      ((s.chan n).abort = true → ends ended) ∧
      (s.chan n = ⟨d, hdLen d, false, false⟩ → plain → hdFlag d 0 = false → a.kind ≠ .error → a.poison = false → ends signals) ∧
      (s.chan n = ⟨d, 0, false, false⟩ → plain → hdFlag d 0 = true → s.chRuns n = true → a.kind ≠ .error → a.poison = false →
        a.words = (List.range (hdLen d)).map (fun j => (hdDev d + j, data.getD j 0)) → ends (fun t => signals t ∧
          t.out = s.out ++ [.hostWrite (hdHost d) (((List.range (hdLen d)).map (fun j => data.getD j 0)).flatMap
            (fun (w : Word) => [w.setWidth 8, (w >>> 8).setWidth 8]))])) ∧
      ((s.chan n).abort = false → a.kind = .error → ends (fun t => t.chan n = ⟨[], 0, false, false⟩ ∧
        t.chWord n 5 = BitVec.ofNat 16 (2 + 4 * if a.cause = .memErr ∨ (a.cause = .poisoned ∧ hdFlag (s.chan n).desc 0 = true) then 5 else 4)))))

/-! ## The machine as a whole -/

/-- The state after reset is in its canonical form, with an empty queue and every domain but VBH off; registers hold the reset
values of their rows, as R447, R462 and R468 give them. That memory reads 0 before it is written is the model's reading (log
entry 4). -/
def Obligations.ResetState : Prop :=
  let s := State.reset
  s.canonical ∧ s.pending = [] ∧ s.vcOn = 0 ∧ s.storeOn = 0 ∧ s.vmeshOn = false ∧ s.vgwOn = 0 ∧ s.vioOn = false ∧ s.pwr.stage1 = false ∧
  s.time = 0 ∧ (∀ a, s.reg a = regReset a) ∧ s.reg R.LL_CTRL = 0x13 ∧ s.reg R.LL_STAT = 0x1F0 ∧ s.reg R.BH_PROT_TMAX = 0x55F0 ∧
  s.ll.starting = true ∧ s.stkState = 0 ∧ (∀ c n, (s.core (.seat c n)).mode = .idle) ∧ (∀ c, (s.core (.cox c)).mode = .reset) ∧
  (s.core .boathouse).mode = .reset ∧ (∀ c, c < 96 → (s.reg (R.COX_RSTSTAT c)).getLsbD 0 = true) ∧ (∀ w, s.word w = 0)

/-- Every command answers a next state in every state: the model stops on none. No command touches the queue of commands, and none
but the end of a flash command and the update of firmware changes flash (R425, R426). That an event whose condition does not
hold leaves the state as it is, is the model's choice (log entry 10). -/
def Obligations.EveryCommandCompletes : Prop :=
  ∀ (i : Instr) (s : State), ∃ t, exec i s = .next t ∧ t.pending = s.pending ∧
    (t.flash = s.flash ∨ i = .flashDone ∨ ∃ image, i = .firmwareUpdate image)

/-- Every step keeps the canonical form: memory, flash, register words and cores in rising order, with no entry that an unlisted
place holds anyway. The form is the model's own (log entry 4). -/
def Obligations.StepKeepsTheCanonicalForm : Prop :=
  ∀ s t : State, s.canonical → step s = .next t → t.canonical
end

