-- ==== Sys2Proof/Laws/Core.lean ====
section
/-! SUPPORT. Laws of the shared course of an instruction: what `runInsn` gives when the core is able to carry it out. -/
namespace Sys2Proof.Machine
open Host

/-- A core able to name some registers is able to name fewer. -/
theorem State.able_mono {s : State} {c : CoreId} {ws ws' : List (Fin 16)} {as as' : List (Fin 8)} {vs vs' : List (Fin 16)}
    (h : s.able c ws as vs) (hw : ∀ r ∈ ws', r ∈ ws) (ha : ∀ r ∈ as', r ∈ as) (hv : ∀ r ∈ vs', r ∈ vs) :
    s.able c ws' as' vs' :=
  ⟨h.1, fun r hr => h.2.1 r (hw r hr), fun r hr => h.2.2.1 r (ha r hr), fun r hr => h.2.2.2 r (hv r hr)⟩

/-- The registers of an instruction are free exactly when it is not blocked. -/
theorem Insn.blocked_eq_false {i : Insn} {k : Core} (hw : ∀ r ∈ i.ws, k.busyW.getLsbD r.val = false)
    (ha : ∀ r ∈ i.as, k.busyA.getLsbD r.val = false) (hv : ∀ r ∈ i.vs, k.vPending r = false) : i.blocked k = false := by
  simp only [Insn.blocked, Bool.or_eq_false_iff, List.any_eq_false]
  exact ⟨⟨fun r hr => by rw [hw r hr]; decide, fun r hr => by rw [ha r hr]; decide⟩, fun r hr => by rw [hv r hr]; decide⟩

/-- The course of an instruction that the fetch finds, on a core able to carry it out: its body decides. -/
theorem State.runInsn_able {s : State} {c : CoreId} {i : Insn} {body : State → Res} (hf : (s.fetch c).2 = .word i.word)
    (h : s.able c i.ws i.as i.vs) (ho : i.on c = true) (hl : (i.transfer && atLoopEnd ((s.fetched c).core c)) = false) :
    s.runInsn c i body =
      match body (s.fetched c) with
      | .done t => s.ran c t
      | .jump t pc => if pc.getLsbD 0 then s.traps c (s.fetched c) 5 pc else s.went c t pc
      | .exc t code eval => s.traps c t code eval
      | .excNext t code eval => t.raise c code false (((s.fetched c).core c).pc + 2) eval
      | .wait t => t
      | .stall => s := by
  obtain ⟨hi, hw, ha, hv⟩ := h
  unfold State.runInsn
  rw [if_pos hi]
  generalize hs : s.fetch c = p at hf
  obtain ⟨t, b⟩ := p
  have ht : s.fetched c = t := by simp [State.fetched, hs]
  simp only at hf
  subst hf
  rw [ht] at hw ha hv hl
  simp only [Insn.blocked_eq_false hw ha hv, ho, hl, ht, State.ran, State.went, State.traps]
  cases body t <;> simp

/-- A core that does not execute instructions leaves the state as it was. -/
theorem State.runInsn_idle {s : State} {c : CoreId} {i : Insn} {body : State → Res} (h : s.issues c = false) :
    s.runInsn c i body = s := by
  simp [State.runInsn, h]

/-- Another instruction than the one fetched does nothing. -/
theorem State.runInsn_other {s : State} {c : CoreId} {i : Insn} {body : State → Res} {w : BitVec 32} (hi : s.issues c = true)
    (hf : (s.fetch c).2 = .word w) (hw : w ≠ i.word) (ha : assigned w = true) : s.runInsn c i body = s := by
  unfold State.runInsn
  rw [if_pos hi]
  generalize s.fetch c = p at hf
  obtain ⟨t, b⟩ := p
  simp only at hf
  subst hf
  simp [hw, ha]

/-- An instruction on the registers of its core. -/
theorem State.regInsn_able {s : State} {c : CoreId} {i : Insn} {f : Core → Core} (hf : (s.fetch c).2 = .word i.word)
    (h : s.able c i.ws i.as i.vs) (ho : i.on c = true) (hl : (i.transfer && atLoopEnd ((s.fetched c).core c)) = false) :
    s.regInsn c i f = s.ran c ((s.fetched c).setCore c (f ((s.fetched c).core c))) := by
  simp only [State.regInsn, State.runInsn_able hf h ho hl]

/-- Every core implements an instruction that none is excluded from. -/
theorem Insn.on_default {i : Insn} {c : CoreId} (h : i.onSeat = true ∧ i.onCox = true ∧ i.onBh = true) : i.on c = true := by
  cases c <;> simp [Insn.on, h]

end Sys2Proof.Machine
end

