-- ==== Sys2Proof/Laws/Maps.lean ====
section
/-! SUPPORT. Laws of the sparse maps: what a read gives after a write, that writes compose, and that the canonical form is
kept. -/
namespace Sys2Proof.Machine

variable {α : Type} {dflt : Nat → α}

theorem mapGet_mapErase_same (m : List (Nat × α)) (k : Nat) : mapGet dflt (mapErase k m) k = dflt k := by
  induction m with
  | nil => rfl
  | cons p m ih =>
    simp only [mapErase]
    split
    · exact ih
    · rename_i h
      simp only [mapGet, if_neg h, ih]

theorem mapGet_mapErase_ne (m : List (Nat × α)) {k j : Nat} (h : j ≠ k) : mapGet dflt (mapErase k m) j = mapGet dflt m j := by
  induction m with
  | nil => rfl
  | cons p m ih =>
    simp only [mapErase, mapGet]
    split
    · rename_i e
      rw [ih, if_neg (by omega)]
    · simp only [mapGet, ih]

theorem mapGet_mapInsert_same (m : List (Nat × α)) (k : Nat) (v : α) (h : ∀ p ∈ m, p.1 ≠ k) :
    mapGet dflt (mapInsert k v m) k = v := by
  induction m with
  | nil => simp [mapInsert, mapGet]
  | cons p m ih =>
    simp only [mapInsert]
    split
    · simp [mapGet]
    · simp only [mapGet, if_neg (h p List.mem_cons_self)]
      exact ih (fun q hq => h q (List.mem_cons_of_mem _ hq))

theorem mapGet_mapInsert_ne (m : List (Nat × α)) {k j : Nat} (v : α) (h : j ≠ k) :
    mapGet dflt (mapInsert k v m) j = mapGet dflt m j := by
  induction m with
  | nil => simp [mapInsert, mapGet, Ne.symm h]
  | cons p m ih =>
    simp only [mapInsert]
    split
    · simp only [mapGet, if_neg (Ne.symm h)]
    · simp only [mapGet, ih]

theorem mem_mapErase {m : List (Nat × α)} {k : Nat} {p : Nat × α} : p ∈ mapErase k m ↔ p ∈ m ∧ p.1 ≠ k := by
  induction m with
  | nil => simp [mapErase]
  | cons q m ih =>
    simp only [mapErase]
    split
    · rename_i e
      rw [ih, List.mem_cons]
      constructor
      · exact fun h => ⟨Or.inr h.1, h.2⟩
      · rintro ⟨rfl | h, h2⟩
        · exact absurd e h2
        · exact ⟨h, h2⟩
    · rename_i e
      rw [List.mem_cons, List.mem_cons, ih]
      constructor
      · rintro (rfl | h)
        · exact ⟨Or.inl rfl, e⟩
        · exact ⟨Or.inr h.1, h.2⟩
      · rintro ⟨rfl | h, h2⟩
        · exact Or.inl rfl
        · exact Or.inr ⟨h, h2⟩

theorem mapErase_mapInsert_same (m : List (Nat × α)) (k : Nat) (v : α) : mapErase k (mapInsert k v m) = mapErase k m := by
  induction m with
  | nil => simp [mapInsert, mapErase]
  | cons p m ih =>
    simp only [mapInsert]
    split
    · simp [mapErase]
    · simp only [mapErase, ih]

theorem mapErase_idem (m : List (Nat × α)) (k : Nat) : mapErase k (mapErase k m) = mapErase k m := by
  induction m with
  | nil => rfl
  | cons p m ih =>
    simp only [mapErase]
    split
    · exact ih
    · rename_i e
      simp only [mapErase, if_neg e, ih]

variable [DecidableEq α]

/-- A read after a write of the same key. -/
@[simp] theorem mapGet_mapSet_same (m : List (Nat × α)) (k : Nat) (v : α) : mapGet dflt (mapSet dflt m k v) k = v := by
  unfold mapSet
  split
  · rename_i h; rw [mapGet_mapErase_same, h]
  · exact mapGet_mapInsert_same _ _ _ (fun p hp => (mem_mapErase.mp hp).2)

/-- A read after a write of another key. -/
theorem mapGet_mapSet_ne (m : List (Nat × α)) {k j : Nat} (v : α) (h : j ≠ k) :
    mapGet dflt (mapSet dflt m k v) j = mapGet dflt m j := by
  unfold mapSet
  split
  · exact mapGet_mapErase_ne m h
  · rw [mapGet_mapInsert_ne _ v h, mapGet_mapErase_ne m h]

/-- The later of two writes of one key prevails. -/
@[simp] theorem mapSet_mapSet (m : List (Nat × α)) (k : Nat) (v w : α) :
    mapSet dflt (mapSet dflt m k v) k w = mapSet dflt m k w := by
  have h : mapErase k (mapSet dflt m k v) = mapErase k m := by
    unfold mapSet
    split
    · exact mapErase_idem m k
    · rw [mapErase_mapInsert_same, mapErase_idem]
  unfold mapSet at h ⊢
  rw [h]

theorem mapWf_cons {p : Nat × α} {m : List (Nat × α)} :
    mapWf dflt (p :: m) = true ↔ p.2 ≠ dflt p.1 ∧ (∀ q ∈ m, p.1 < q.1) ∧ mapWf dflt m = true := by
  simp [mapWf, List.all_eq_true, and_assoc]

theorem mapErase_wf {m : List (Nat × α)} (k : Nat) (h : mapWf dflt m = true) : mapWf dflt (mapErase k m) = true := by
  induction m with
  | nil => rfl
  | cons p m ih =>
    obtain ⟨h1, h2, h3⟩ := mapWf_cons.mp h
    simp only [mapErase]
    split
    · exact ih h3
    · exact mapWf_cons.mpr ⟨h1, fun q hq => h2 q (mem_mapErase.mp hq).1, ih h3⟩

omit [DecidableEq α] in
theorem mem_mapInsert {m : List (Nat × α)} {k : Nat} {v : α} {p : Nat × α} :
    p ∈ mapInsert k v m ↔ p = (k, v) ∨ p ∈ m := by
  induction m with
  | nil => simp [mapInsert]
  | cons q m ih =>
    simp only [mapInsert]
    split
    · simp
    · simp only [List.mem_cons, ih]
      exact ⟨fun h => h.elim (fun h => Or.inr (Or.inl h)) (fun h => h.elim Or.inl (fun h => Or.inr (Or.inr h))),
        fun h => h.elim (fun h => Or.inr (Or.inl h)) (fun h => h.elim Or.inl (fun h => Or.inr (Or.inr h)))⟩

theorem mapInsert_wf {m : List (Nat × α)} {k : Nat} {v : α} (h : mapWf dflt m = true) (hv : v ≠ dflt k)
    (hk : ∀ p ∈ m, p.1 ≠ k) : mapWf dflt (mapInsert k v m) = true := by
  induction m with
  | nil => simp [mapInsert, mapWf, hv]
  | cons p m ih =>
    obtain ⟨h1, h2, h3⟩ := mapWf_cons.mp h
    simp only [mapInsert]
    split
    · rename_i hlt
      refine mapWf_cons.mpr ⟨hv, fun q hq => ?_, h⟩
      rcases List.mem_cons.mp hq with rfl | hq
      · exact hlt
      · exact Nat.lt_trans hlt (h2 q hq)
    · rename_i hge
      have hne := hk p List.mem_cons_self
      refine mapWf_cons.mpr ⟨h1, fun q hq => ?_, ih h3 (fun q hq => hk q (List.mem_cons_of_mem _ hq))⟩
      rcases mem_mapInsert.mp hq with rfl | hq
      · exact Nat.lt_of_le_of_ne (Nat.not_lt.mp hge) hne
      · exact h2 q hq

/-- A write keeps the canonical form. -/
theorem mapSet_wf {m : List (Nat × α)} (k : Nat) (v : α) (h : mapWf dflt m = true) : mapWf dflt (mapSet dflt m k v) = true := by
  unfold mapSet
  split
  · exact mapErase_wf k h
  · rename_i hv
    exact mapInsert_wf (mapErase_wf k h) hv (fun p hp => (mem_mapErase.mp hp).2)

/-- Dropping entries keeps the canonical form. -/
theorem mapFilter_wf {m : List (Nat × α)} (f : Nat × α → Bool) (h : mapWf dflt m = true) : mapWf dflt (m.filter f) = true := by
  induction m with
  | nil => rfl
  | cons p m ih =>
    obtain ⟨h1, h2, h3⟩ := mapWf_cons.mp h
    simp only [List.filter_cons]
    split
    · exact mapWf_cons.mpr ⟨h1, fun q hq => h2 q (List.mem_filter.mp hq).1, ih h3⟩
    · exact ih h3

/-- Two maps in canonical form that read alike are equal. -/
theorem mapWf_ext {m n : List (Nat × α)} (hm : mapWf dflt m = true) (hn : mapWf dflt n = true)
    (h : ∀ k, mapGet dflt m k = mapGet dflt n k) : m = n := by
  have low : ∀ (l : List (Nat × α)) (k : Nat), (∀ q ∈ l, k < q.1) → mapGet dflt l k = dflt k := by
    intro l k hl
    induction l with
    | nil => rfl
    | cons q l ih =>
      have := hl q List.mem_cons_self
      simp only [mapGet, if_neg (by omega : ¬ q.1 = k)]
      exact ih (fun r hr => hl r (List.mem_cons_of_mem _ hr))
  induction m generalizing n with
  | nil =>
    cases n with
    | nil => rfl
    | cons q n =>
      have := h q.1
      simp only [mapGet, if_true] at this
      exact absurd this.symm (mapWf_cons.mp hn).1
  | cons p m ih =>
    obtain ⟨p1, p2, p3⟩ := mapWf_cons.mp hm
    cases n with
    | nil =>
      have := h p.1
      simp only [mapGet, if_true] at this
      exact absurd this p1
    | cons q n =>
      obtain ⟨q1, q2, q3⟩ := mapWf_cons.mp hn
      have e : p.1 = q.1 := by
        rcases Nat.lt_trichotomy p.1 q.1 with hlt | heq | hgt
        · have := h p.1
          simp only [mapGet, if_true, if_neg (by omega : ¬ q.1 = p.1)] at this
          rw [low n p.1 (fun r hr => Nat.lt_trans hlt (q2 r hr))] at this
          exact absurd this p1
        · exact heq
        · have := h q.1
          simp only [mapGet, if_true, if_neg (by omega : ¬ p.1 = q.1)] at this
          rw [low m q.1 (fun r hr => Nat.lt_trans hgt (p2 r hr))] at this
          exact absurd this.symm q1
      have v : p.2 = q.2 := by
        have := h p.1
        simpa only [mapGet, if_true, if_pos e.symm] using this
      have t : m = n := by
        refine ih p3 q3 (fun k => ?_)
        by_cases hk : p.1 = k
        · subst hk
          rw [low m _ p2, low n _ (by rw [e]; exact q2)]
        · have := h k
          simpa only [mapGet, if_neg hk, if_neg (by omega : ¬ q.1 = k)] using this
      rw [t]
      congr 1
      exact Prod.ext e v

/-! ## Words of memory -/

theorem memSetWord_wf {m : List Host.Cell} (w : Nat) (v : Word) (h : Memory.wf m = true) :
    Memory.wf (memSetWord m w v) = true := mapSet_wf _ _ (mapSet_wf _ _ h)

/-- A write of words keeps the canonical form. -/
theorem memSetWords_wf {m : List Host.Cell} (ws : List (Nat × Word)) (h : Memory.wf m = true) :
    Memory.wf (memSetWords m ws) = true := by
  induction ws generalizing m with
  | nil => exact h
  | cons p ws ih => exact ih (memSetWord_wf p.1 p.2 h)

/-- A byte outside a word written is as before. -/
theorem mapGet_memSetWord_ne (m : List Host.Cell) {w x : Nat} (v : Word) (h : ¬ (2 * w ≤ x ∧ x < 2 * w + 2)) :
    mapGet memDefault (memSetWord m w v) x = mapGet memDefault m x := by
  unfold memSetWord
  rw [mapGet_mapSet_ne _ _ (by omega), mapGet_mapSet_ne _ _ (by omega)]

/-- A byte outside every word written is as before. -/
theorem mapGet_memSetWords_ne (m : List Host.Cell) (ws : List (Nat × Word)) {x : Nat}
    (h : ∀ p ∈ ws, ¬ (2 * p.1 ≤ x ∧ x < 2 * p.1 + 2)) : mapGet memDefault (memSetWords m ws) x = mapGet memDefault m x := by
  induction ws generalizing m with
  | nil => rfl
  | cons p ws ih =>
    simp only [memSetWords]
    rw [ih _ (fun q hq => h q (List.mem_cons_of_mem _ hq)), mapGet_memSetWord_ne _ _ (h p List.mem_cons_self)]

/-- A word reads what was written to it. -/
theorem memWord_memSetWord_same (m : List Host.Cell) (w : Nat) (v : Word) : memWord (memSetWord m w v) w = v := by
  unfold memWord memSetWord
  rw [mapGet_mapSet_same, mapGet_mapSet_ne _ _ (by omega), mapGet_mapSet_same]
  apply BitVec.eq_of_getLsbD_eq
  intro i hi
  rw [BitVec.getLsbD_append]
  split <;> rename_i h
  · simp [h]
  · have : 8 + (i - 8) = i := by omega
    simp [BitVec.getLsbD_setWidth, BitVec.getLsbD_ushiftRight, this]
    omega

/-- Another word reads as before. -/
theorem memWord_memSetWord_ne (m : List Host.Cell) {w x : Nat} (v : Word) (h : x ≠ w) :
    memWord (memSetWord m w v) x = memWord m x := by
  unfold memWord
  rw [mapGet_memSetWord_ne _ _ (by omega), mapGet_memSetWord_ne _ _ (by omega)]

end Sys2Proof.Machine
end

