-- ==== Sys2Proof/Laws/Mesh.lean ====
section
/-! SUPPORT. Laws of the mesh's local inputs: what the injection of a packet does, and what it leaves. -/
namespace Sys2Proof.Machine

/-- What fits and the rest are the whole list, in its order. -/
theorem fitting_append (n : Nat) (ps : List Packet) : (fitting n ps).1 ++ (fitting n ps).2 = ps := by
  induction ps generalizing n with
  | nil => rfl
  | cons p ps ih =>
    unfold fitting
    split
    · simp [ih]
    · rfl

/-- What fits is no larger than the room there is. -/
theorem fitting_le (n : Nat) (ps : List Packet) : flitsOf (fitting n ps).1 ≤ n := by
  induction ps generalizing n with
  | nil => simp [fitting, flitsOf]
  | cons p ps ih =>
    unfold fitting
    split
    · have h := ih (n - p.flits)
      simp only [flitsOf, List.map_cons, List.sum_cons] at h ⊢
      omega
    · simp [flitsOf]

/-- Packets that move into an input stay in order with those that wait there. -/
theorem State.atInput_pump (s : State) (r input vc : Nat) : (s.pump r input vc).atInput r input vc = s.atInput r input vc := by
  unfold State.pump
  simp only
  split
  · rfl
  · simp only [State.atInput, State.meshIn, State.setMeshIn, mapGet_mapSet_same, List.append_assoc, fitting_append]

/-- An injected packet stands last at its input. -/
theorem State.atInput_inject (s : State) (r input vc : Nat) (p : Packet) :
    (s.inject r input vc p).atInput r input vc = s.atInput r input vc ++ [p] := by
  unfold State.inject
  simp only [State.atInput_pump]
  simp [State.atInput, State.meshIn]

/-- Nothing but what is at the routers, or waits there, changes as packets move into an input. -/
theorem State.pump_frame (s : State) (r input vc : Nat) :
    { s.pump r input vc with routers := [], meshWait := [] } = { s with routers := [], meshWait := [] } := by
  unfold State.pump
  simp only
  split <;> rfl

/-- Nothing but what is at the routers, or waits there, changes with an injected packet. -/
theorem State.inject_frame (s : State) (r input vc : Nat) (p : Packet) :
    { s.inject r input vc p with routers := [], meshWait := [] } = { s with routers := [], meshWait := [] } := by
  unfold State.inject
  simp only [State.pump_frame]

/-- The tag given to an access of a requester is none that it has in use (R254). -/
theorem State.opTag_free {s : State} {q : MeshReq} {t : Nat} (h : s.opTag q = some t) : t < 256 ∧ ∀ o ∈ s.ops, o.who = q → o.tag ≠ t := by
  have h1 := List.find?_some h
  have h2 := List.mem_of_find?_eq_some h
  refine ⟨List.mem_range.mp h2, fun o ho hq ht => ?_⟩
  simp only [Bool.not_eq_true', List.any_eq_false] at h1
  exact h1 o ho (by simp [hq, ht])

end Sys2Proof.Machine
end

