-- ==== Sys2Proof/Laws/State.lean ====
section
/-! SUPPORT. What each update of the state leaves as it is, field by field, and what it reads back. -/
namespace Sys2Proof.Machine

/-! ## Read back -/

theorem coreKey_inj {c c' : CoreId} (h : coreKey c = coreKey c') : c = c' := by
  cases c <;> cases c' <;> simp only [coreKey] at h <;>
    first
    | rfl
    | (congr 1 <;> ext <;> omega)
    | (exfalso; omega)

/-- A core written reads back. -/
@[simp] theorem State.core_setCore_same (s : State) (c : CoreId) (k : Core) : (s.setCore c k).core c = k :=
  mapGet_mapSet_same _ _ _

/-- Another core is as before. -/
theorem State.core_setCore_ne (s : State) {c c' : CoreId} (k : Core) (h : c' ≠ c) : (s.setCore c k).core c' = s.core c' :=
  mapGet_mapSet_ne _ _ (fun e => h (coreKey_inj e))

/-- The later of two writes of one core prevails. -/
@[simp] theorem State.setCore_setCore (s : State) (c : CoreId) (k k' : Core) : (s.setCore c k).setCore c k' = s.setCore c k' := by
  simp [State.setCore]

/-- A register word written reads back. -/
@[simp] theorem State.reg_setReg_same (s : State) (a : Nat) (v : Word) : (s.setReg a v).reg a = v := mapGet_mapSet_same _ _ _

/-- Another register word is as before. -/
theorem State.reg_setReg_ne (s : State) {a b : Nat} (v : Word) (h : b ≠ a) : (s.setReg a v).reg b = s.reg b :=
  mapGet_mapSet_ne _ _ h

/-- A core is as before when a register word is written. -/
@[simp] theorem State.core_setReg (s : State) (a : Nat) (v : Word) (c : CoreId) : (s.setReg a v).core c = s.core c := rfl

/-- A register word is as before when a core is written. -/
@[simp] theorem State.reg_setCore (s : State) (c : CoreId) (k : Core) (a : Nat) : (s.setCore c k).reg a = s.reg a := rfl

/-- A port written reads back. -/
@[simp] theorem State.port_setPort_same (s : State) (p : Nat) (x : Port) : (s.setPort p x).port p = x := mapGet_mapSet_same _ _ _

/-- A word of memory written reads back. -/
theorem State.word_writeWord_same (s : State) (w : Nat) (v : Word) : (s.writeWord w v).word w = v :=
  memWord_memSetWord_same _ _ _

/-- Another word of memory is as before. -/
theorem State.word_writeWord_ne (s : State) {w x : Nat} (v : Word) (h : x ≠ w) : (s.writeWord w v).word x = s.word x :=
  memWord_memSetWord_ne _ _ h

/-! ## Frames -/

@[simp] theorem State.writeWords_time (s : State) (ws : List (Nat × Word)) : (s.writeWords ws).time = s.time := rfl
@[simp] theorem State.writeWords_regs (s : State) (ws : List (Nat × Word)) : (s.writeWords ws).regs = s.regs := rfl
@[simp] theorem State.writeWords_flash (s : State) (ws : List (Nat × Word)) : (s.writeWords ws).flash = s.flash := rfl
@[simp] theorem State.writeWords_cores (s : State) (ws : List (Nat × Word)) : (s.writeWords ws).cores = s.cores := rfl
@[simp] theorem State.writeWords_clock (s : State) (ws : List (Nat × Word)) : (s.writeWords ws).clock = s.clock := rfl
@[simp] theorem State.writeWords_cc (s : State) (ws : List (Nat × Word)) : (s.writeWords ws).cc = s.cc := rfl
@[simp] theorem State.writeWords_sched (s : State) (ws : List (Nat × Word)) : (s.writeWords ws).sched = s.sched := rfl
@[simp] theorem State.writeWords_ctlRound (s : State) (ws : List (Nat × Word)) : (s.writeWords ws).ctlRound = s.ctlRound := rfl
@[simp] theorem State.writeWords_meshHold (s : State) (ws : List (Nat × Word)) : (s.writeWords ws).meshHold = s.meshHold := rfl
@[simp] theorem State.writeWords_ops (s : State) (ws : List (Nat × Word)) : (s.writeWords ws).ops = s.ops := rfl
@[simp] theorem State.writeWords_outReads (s : State) (ws : List (Nat × Word)) : (s.writeWords ws).outReads = s.outReads := rfl
@[simp] theorem State.writeWords_meshWait (s : State) (ws : List (Nat × Word)) : (s.writeWords ws).meshWait = s.meshWait := rfl
@[simp] theorem State.writeWords_ctl (s : State) (ws : List (Nat × Word)) : (s.writeWords ws).ctl = s.ctl := rfl
@[simp] theorem State.writeWords_banks (s : State) (ws : List (Nat × Word)) : (s.writeWords ws).banks = s.banks := rfl
@[simp] theorem State.writeWords_early (s : State) (ws : List (Nat × Word)) : (s.writeWords ws).early = s.early := rfl
@[simp] theorem State.writeWords_snaps (s : State) (ws : List (Nat × Word)) : (s.writeWords ws).snaps = s.snaps := rfl
@[simp] theorem State.writeWords_hcasRes (s : State) (ws : List (Nat × Word)) : (s.writeWords ws).hcasRes = s.hcasRes := rfl
@[simp] theorem State.writeWords_lastRead (s : State) (ws : List (Nat × Word)) : (s.writeWords ws).lastRead = s.lastRead := rfl
@[simp] theorem State.writeWords_freeCtr (s : State) (ws : List (Nat × Word)) : (s.writeWords ws).freeCtr = s.freeCtr := rfl
@[simp] theorem State.writeWords_vcOn (s : State) (ws : List (Nat × Word)) : (s.writeWords ws).vcOn = s.vcOn := rfl
@[simp] theorem State.writeWords_inRst (s : State) (ws : List (Nat × Word)) : (s.writeWords ws).inRst = s.inRst := rfl
@[simp] theorem State.writeWords_storeOn (s : State) (ws : List (Nat × Word)) : (s.writeWords ws).storeOn = s.storeOn := rfl
@[simp] theorem State.writeWords_vmeshOn (s : State) (ws : List (Nat × Word)) : (s.writeWords ws).vmeshOn = s.vmeshOn := rfl
@[simp] theorem State.writeWords_vgwOn (s : State) (ws : List (Nat × Word)) : (s.writeWords ws).vgwOn = s.vgwOn := rfl
@[simp] theorem State.writeWords_vioOn (s : State) (ws : List (Nat × Word)) : (s.writeWords ws).vioOn = s.vioOn := rfl
@[simp] theorem State.writeWords_routers (s : State) (ws : List (Nat × Word)) : (s.writeWords ws).routers = s.routers := rfl
@[simp] theorem State.writeWords_exits (s : State) (ws : List (Nat × Word)) : (s.writeWords ws).exits = s.exits := rfl
@[simp] theorem State.writeWords_outWrites (s : State) (ws : List (Nat × Word)) : (s.writeWords ws).outWrites = s.outWrites := rfl
@[simp] theorem State.writeWords_holding (s : State) (ws : List (Nat × Word)) : (s.writeWords ws).holding = s.holding := rfl
@[simp] theorem State.writeWords_noDispatch (s : State) (ws : List (Nat × Word)) : (s.writeWords ws).noDispatch = s.noDispatch := rfl
@[simp] theorem State.writeWords_seatsZeroed (s : State) (ws : List (Nat × Word)) : (s.writeWords ws).seatsZeroed = s.seatsZeroed := rfl
@[simp] theorem State.writeWords_storesZeroed (s : State) (ws : List (Nat × Word)) : (s.writeWords ws).storesZeroed = s.storesZeroed := rfl
@[simp] theorem State.writeWords_ports (s : State) (ws : List (Nat × Word)) : (s.writeWords ws).ports = s.ports := rfl
@[simp] theorem State.writeWords_stroke (s : State) (ws : List (Nat × Word)) : (s.writeWords ws).stroke = s.stroke := rfl
@[simp] theorem State.writeWords_ini (s : State) (ws : List (Nat × Word)) : (s.writeWords ws).ini = s.ini := rfl
@[simp] theorem State.writeWords_rxc (s : State) (ws : List (Nat × Word)) : (s.writeWords ws).rxc = s.rxc := rfl
@[simp] theorem State.writeWords_limits (s : State) (ws : List (Nat × Word)) : (s.writeWords ws).limits = s.limits := rfl
@[simp] theorem State.writeWords_ownIn (s : State) (ws : List (Nat × Word)) : (s.writeWords ws).ownIn = s.ownIn := rfl
@[simp] theorem State.writeWords_dma (s : State) (ws : List (Nat × Word)) : (s.writeWords ws).dma = s.dma := rfl
@[simp] theorem State.writeWords_pwr (s : State) (ws : List (Nat × Word)) : (s.writeWords ws).pwr = s.pwr := rfl
@[simp] theorem State.writeWords_killAt (s : State) (ws : List (Nat × Word)) : (s.writeWords ws).killAt = s.killAt := rfl
@[simp] theorem State.writeWords_zeroPass (s : State) (ws : List (Nat × Word)) : (s.writeWords ws).zeroPass = s.zeroPass := rfl
@[simp] theorem State.writeWords_fns (s : State) (ws : List (Nat × Word)) : (s.writeWords ws).fns = s.fns := rfl
@[simp] theorem State.writeWords_hdma (s : State) (ws : List (Nat × Word)) : (s.writeWords ws).hdma = s.hdma := rfl
@[simp] theorem State.writeWords_vfRegs (s : State) (ws : List (Nat × Word)) : (s.writeWords ws).vfRegs = s.vfRegs := rfl
@[simp] theorem State.writeWords_vfErr (s : State) (ws : List (Nat × Word)) : (s.writeWords ws).vfErr = s.vfErr := rfl
@[simp] theorem State.writeWords_perst (s : State) (ws : List (Nat × Word)) : (s.writeWords ws).perst = s.perst := rfl
@[simp] theorem State.writeWords_link (s : State) (ws : List (Nat × Word)) : (s.writeWords ws).link = s.link := rfl
@[simp] theorem State.writeWords_aer (s : State) (ws : List (Nat × Word)) : (s.writeWords ws).aer = s.aer := rfl
@[simp] theorem State.writeWords_fltSeen (s : State) (ws : List (Nat × Word)) : (s.writeWords ws).fltSeen = s.fltSeen := rfl
@[simp] theorem State.writeWords_warm (s : State) (ws : List (Nat × Word)) : (s.writeWords ws).warm = s.warm := rfl
@[simp] theorem State.writeWords_crewRst (s : State) (ws : List (Nat × Word)) : (s.writeWords ws).crewRst = s.crewRst := rfl
@[simp] theorem State.writeWords_bh (s : State) (ws : List (Nat × Word)) : (s.writeWords ws).bh = s.bh := rfl
@[simp] theorem State.writeWords_ll (s : State) (ws : List (Nat × Word)) : (s.writeWords ws).ll = s.ll := rfl
@[simp] theorem State.writeWords_out (s : State) (ws : List (Nat × Word)) : (s.writeWords ws).out = s.out := rfl
@[simp] theorem State.writeWords_pending (s : State) (ws : List (Nat × Word)) : (s.writeWords ws).pending = s.pending := rfl

@[simp] theorem State.setReg_time (s : State) (a : Nat) (v : Word) : (s.setReg a v).time = s.time := rfl
@[simp] theorem State.setReg_mem (s : State) (a : Nat) (v : Word) : (s.setReg a v).mem = s.mem := rfl
@[simp] theorem State.setReg_flash (s : State) (a : Nat) (v : Word) : (s.setReg a v).flash = s.flash := rfl
@[simp] theorem State.setReg_eccOne (s : State) (a : Nat) (v : Word) : (s.setReg a v).eccOne = s.eccOne := rfl
@[simp] theorem State.setReg_eccTwo (s : State) (a : Nat) (v : Word) : (s.setReg a v).eccTwo = s.eccTwo := rfl
@[simp] theorem State.setReg_cores (s : State) (a : Nat) (v : Word) : (s.setReg a v).cores = s.cores := rfl
@[simp] theorem State.setReg_clock (s : State) (a : Nat) (v : Word) : (s.setReg a v).clock = s.clock := rfl
@[simp] theorem State.setReg_cc (s : State) (a : Nat) (v : Word) : (s.setReg a v).cc = s.cc := rfl
@[simp] theorem State.setReg_sched (s : State) (a : Nat) (v : Word) : (s.setReg a v).sched = s.sched := rfl
@[simp] theorem State.setReg_ctlRound (s : State) (a : Nat) (v : Word) : (s.setReg a v).ctlRound = s.ctlRound := rfl
@[simp] theorem State.setReg_meshHold (s : State) (a : Nat) (v : Word) : (s.setReg a v).meshHold = s.meshHold := rfl
@[simp] theorem State.setReg_ops (s : State) (a : Nat) (v : Word) : (s.setReg a v).ops = s.ops := rfl
@[simp] theorem State.setReg_outReads (s : State) (a : Nat) (v : Word) : (s.setReg a v).outReads = s.outReads := rfl
@[simp] theorem State.setReg_meshWait (s : State) (a : Nat) (v : Word) : (s.setReg a v).meshWait = s.meshWait := rfl
@[simp] theorem State.setReg_ctl (s : State) (a : Nat) (v : Word) : (s.setReg a v).ctl = s.ctl := rfl
@[simp] theorem State.setReg_banks (s : State) (a : Nat) (v : Word) : (s.setReg a v).banks = s.banks := rfl
@[simp] theorem State.setReg_early (s : State) (a : Nat) (v : Word) : (s.setReg a v).early = s.early := rfl
@[simp] theorem State.setReg_snaps (s : State) (a : Nat) (v : Word) : (s.setReg a v).snaps = s.snaps := rfl
@[simp] theorem State.setReg_hcasRes (s : State) (a : Nat) (v : Word) : (s.setReg a v).hcasRes = s.hcasRes := rfl
@[simp] theorem State.setReg_lastRead (s : State) (a : Nat) (v : Word) : (s.setReg a v).lastRead = s.lastRead := rfl
@[simp] theorem State.setReg_freeCtr (s : State) (a : Nat) (v : Word) : (s.setReg a v).freeCtr = s.freeCtr := rfl
@[simp] theorem State.setReg_vcOn (s : State) (a : Nat) (v : Word) : (s.setReg a v).vcOn = s.vcOn := rfl
@[simp] theorem State.setReg_inRst (s : State) (a : Nat) (v : Word) : (s.setReg a v).inRst = s.inRst := rfl
@[simp] theorem State.setReg_storeOn (s : State) (a : Nat) (v : Word) : (s.setReg a v).storeOn = s.storeOn := rfl
@[simp] theorem State.setReg_vmeshOn (s : State) (a : Nat) (v : Word) : (s.setReg a v).vmeshOn = s.vmeshOn := rfl
@[simp] theorem State.setReg_vgwOn (s : State) (a : Nat) (v : Word) : (s.setReg a v).vgwOn = s.vgwOn := rfl
@[simp] theorem State.setReg_vioOn (s : State) (a : Nat) (v : Word) : (s.setReg a v).vioOn = s.vioOn := rfl
@[simp] theorem State.setReg_routers (s : State) (a : Nat) (v : Word) : (s.setReg a v).routers = s.routers := rfl
@[simp] theorem State.setReg_exits (s : State) (a : Nat) (v : Word) : (s.setReg a v).exits = s.exits := rfl
@[simp] theorem State.setReg_outWrites (s : State) (a : Nat) (v : Word) : (s.setReg a v).outWrites = s.outWrites := rfl
@[simp] theorem State.setReg_holding (s : State) (a : Nat) (v : Word) : (s.setReg a v).holding = s.holding := rfl
@[simp] theorem State.setReg_noDispatch (s : State) (a : Nat) (v : Word) : (s.setReg a v).noDispatch = s.noDispatch := rfl
@[simp] theorem State.setReg_seatsZeroed (s : State) (a : Nat) (v : Word) : (s.setReg a v).seatsZeroed = s.seatsZeroed := rfl
@[simp] theorem State.setReg_storesZeroed (s : State) (a : Nat) (v : Word) : (s.setReg a v).storesZeroed = s.storesZeroed := rfl
@[simp] theorem State.setReg_ports (s : State) (a : Nat) (v : Word) : (s.setReg a v).ports = s.ports := rfl
@[simp] theorem State.setReg_stroke (s : State) (a : Nat) (v : Word) : (s.setReg a v).stroke = s.stroke := rfl
@[simp] theorem State.setReg_ini (s : State) (a : Nat) (v : Word) : (s.setReg a v).ini = s.ini := rfl
@[simp] theorem State.setReg_rxc (s : State) (a : Nat) (v : Word) : (s.setReg a v).rxc = s.rxc := rfl
@[simp] theorem State.setReg_limits (s : State) (a : Nat) (v : Word) : (s.setReg a v).limits = s.limits := rfl
@[simp] theorem State.setReg_ownIn (s : State) (a : Nat) (v : Word) : (s.setReg a v).ownIn = s.ownIn := rfl
@[simp] theorem State.setReg_dma (s : State) (a : Nat) (v : Word) : (s.setReg a v).dma = s.dma := rfl
@[simp] theorem State.setReg_pwr (s : State) (a : Nat) (v : Word) : (s.setReg a v).pwr = s.pwr := rfl
@[simp] theorem State.setReg_killAt (s : State) (a : Nat) (v : Word) : (s.setReg a v).killAt = s.killAt := rfl
@[simp] theorem State.setReg_zeroPass (s : State) (a : Nat) (v : Word) : (s.setReg a v).zeroPass = s.zeroPass := rfl
@[simp] theorem State.setReg_fns (s : State) (a : Nat) (v : Word) : (s.setReg a v).fns = s.fns := rfl
@[simp] theorem State.setReg_hdma (s : State) (a : Nat) (v : Word) : (s.setReg a v).hdma = s.hdma := rfl
@[simp] theorem State.setReg_vfRegs (s : State) (a : Nat) (v : Word) : (s.setReg a v).vfRegs = s.vfRegs := rfl
@[simp] theorem State.setReg_vfErr (s : State) (a : Nat) (v : Word) : (s.setReg a v).vfErr = s.vfErr := rfl
@[simp] theorem State.setReg_perst (s : State) (a : Nat) (v : Word) : (s.setReg a v).perst = s.perst := rfl
@[simp] theorem State.setReg_link (s : State) (a : Nat) (v : Word) : (s.setReg a v).link = s.link := rfl
@[simp] theorem State.setReg_aer (s : State) (a : Nat) (v : Word) : (s.setReg a v).aer = s.aer := rfl
@[simp] theorem State.setReg_fltSeen (s : State) (a : Nat) (v : Word) : (s.setReg a v).fltSeen = s.fltSeen := rfl
@[simp] theorem State.setReg_warm (s : State) (a : Nat) (v : Word) : (s.setReg a v).warm = s.warm := rfl
@[simp] theorem State.setReg_crewRst (s : State) (a : Nat) (v : Word) : (s.setReg a v).crewRst = s.crewRst := rfl
@[simp] theorem State.setReg_bh (s : State) (a : Nat) (v : Word) : (s.setReg a v).bh = s.bh := rfl
@[simp] theorem State.setReg_ll (s : State) (a : Nat) (v : Word) : (s.setReg a v).ll = s.ll := rfl
@[simp] theorem State.setReg_out (s : State) (a : Nat) (v : Word) : (s.setReg a v).out = s.out := rfl
@[simp] theorem State.setReg_pending (s : State) (a : Nat) (v : Word) : (s.setReg a v).pending = s.pending := rfl

@[simp] theorem State.setFld_time (s : State) (a lo w v : Nat) : (s.setFld a lo w v).time = s.time := rfl
@[simp] theorem State.setFld_mem (s : State) (a lo w v : Nat) : (s.setFld a lo w v).mem = s.mem := rfl
@[simp] theorem State.setFld_flash (s : State) (a lo w v : Nat) : (s.setFld a lo w v).flash = s.flash := rfl
@[simp] theorem State.setFld_eccOne (s : State) (a lo w v : Nat) : (s.setFld a lo w v).eccOne = s.eccOne := rfl
@[simp] theorem State.setFld_eccTwo (s : State) (a lo w v : Nat) : (s.setFld a lo w v).eccTwo = s.eccTwo := rfl
@[simp] theorem State.setFld_cores (s : State) (a lo w v : Nat) : (s.setFld a lo w v).cores = s.cores := rfl
@[simp] theorem State.setFld_clock (s : State) (a lo w v : Nat) : (s.setFld a lo w v).clock = s.clock := rfl
@[simp] theorem State.setFld_cc (s : State) (a lo w v : Nat) : (s.setFld a lo w v).cc = s.cc := rfl
@[simp] theorem State.setFld_sched (s : State) (a lo w v : Nat) : (s.setFld a lo w v).sched = s.sched := rfl
@[simp] theorem State.setFld_ctlRound (s : State) (a lo w v : Nat) : (s.setFld a lo w v).ctlRound = s.ctlRound := rfl
@[simp] theorem State.setFld_meshHold (s : State) (a lo w v : Nat) : (s.setFld a lo w v).meshHold = s.meshHold := rfl
@[simp] theorem State.setFld_ops (s : State) (a lo w v : Nat) : (s.setFld a lo w v).ops = s.ops := rfl
@[simp] theorem State.setFld_outReads (s : State) (a lo w v : Nat) : (s.setFld a lo w v).outReads = s.outReads := rfl
@[simp] theorem State.setFld_meshWait (s : State) (a lo w v : Nat) : (s.setFld a lo w v).meshWait = s.meshWait := rfl
@[simp] theorem State.setFld_ctl (s : State) (a lo w v : Nat) : (s.setFld a lo w v).ctl = s.ctl := rfl
@[simp] theorem State.setFld_banks (s : State) (a lo w v : Nat) : (s.setFld a lo w v).banks = s.banks := rfl
@[simp] theorem State.setFld_early (s : State) (a lo w v : Nat) : (s.setFld a lo w v).early = s.early := rfl
@[simp] theorem State.setFld_snaps (s : State) (a lo w v : Nat) : (s.setFld a lo w v).snaps = s.snaps := rfl
@[simp] theorem State.setFld_hcasRes (s : State) (a lo w v : Nat) : (s.setFld a lo w v).hcasRes = s.hcasRes := rfl
@[simp] theorem State.setFld_lastRead (s : State) (a lo w v : Nat) : (s.setFld a lo w v).lastRead = s.lastRead := rfl
@[simp] theorem State.setFld_freeCtr (s : State) (a lo w v : Nat) : (s.setFld a lo w v).freeCtr = s.freeCtr := rfl
@[simp] theorem State.setFld_vcOn (s : State) (a lo w v : Nat) : (s.setFld a lo w v).vcOn = s.vcOn := rfl
@[simp] theorem State.setFld_inRst (s : State) (a lo w v : Nat) : (s.setFld a lo w v).inRst = s.inRst := rfl
@[simp] theorem State.setFld_storeOn (s : State) (a lo w v : Nat) : (s.setFld a lo w v).storeOn = s.storeOn := rfl
@[simp] theorem State.setFld_vmeshOn (s : State) (a lo w v : Nat) : (s.setFld a lo w v).vmeshOn = s.vmeshOn := rfl
@[simp] theorem State.setFld_vgwOn (s : State) (a lo w v : Nat) : (s.setFld a lo w v).vgwOn = s.vgwOn := rfl
@[simp] theorem State.setFld_vioOn (s : State) (a lo w v : Nat) : (s.setFld a lo w v).vioOn = s.vioOn := rfl
@[simp] theorem State.setFld_routers (s : State) (a lo w v : Nat) : (s.setFld a lo w v).routers = s.routers := rfl
@[simp] theorem State.setFld_exits (s : State) (a lo w v : Nat) : (s.setFld a lo w v).exits = s.exits := rfl
@[simp] theorem State.setFld_outWrites (s : State) (a lo w v : Nat) : (s.setFld a lo w v).outWrites = s.outWrites := rfl
@[simp] theorem State.setFld_holding (s : State) (a lo w v : Nat) : (s.setFld a lo w v).holding = s.holding := rfl
@[simp] theorem State.setFld_noDispatch (s : State) (a lo w v : Nat) : (s.setFld a lo w v).noDispatch = s.noDispatch := rfl
@[simp] theorem State.setFld_seatsZeroed (s : State) (a lo w v : Nat) : (s.setFld a lo w v).seatsZeroed = s.seatsZeroed := rfl
@[simp] theorem State.setFld_storesZeroed (s : State) (a lo w v : Nat) : (s.setFld a lo w v).storesZeroed = s.storesZeroed := rfl
@[simp] theorem State.setFld_ports (s : State) (a lo w v : Nat) : (s.setFld a lo w v).ports = s.ports := rfl
@[simp] theorem State.setFld_stroke (s : State) (a lo w v : Nat) : (s.setFld a lo w v).stroke = s.stroke := rfl
@[simp] theorem State.setFld_ini (s : State) (a lo w v : Nat) : (s.setFld a lo w v).ini = s.ini := rfl
@[simp] theorem State.setFld_rxc (s : State) (a lo w v : Nat) : (s.setFld a lo w v).rxc = s.rxc := rfl
@[simp] theorem State.setFld_limits (s : State) (a lo w v : Nat) : (s.setFld a lo w v).limits = s.limits := rfl
@[simp] theorem State.setFld_ownIn (s : State) (a lo w v : Nat) : (s.setFld a lo w v).ownIn = s.ownIn := rfl
@[simp] theorem State.setFld_dma (s : State) (a lo w v : Nat) : (s.setFld a lo w v).dma = s.dma := rfl
@[simp] theorem State.setFld_pwr (s : State) (a lo w v : Nat) : (s.setFld a lo w v).pwr = s.pwr := rfl
@[simp] theorem State.setFld_killAt (s : State) (a lo w v : Nat) : (s.setFld a lo w v).killAt = s.killAt := rfl
@[simp] theorem State.setFld_zeroPass (s : State) (a lo w v : Nat) : (s.setFld a lo w v).zeroPass = s.zeroPass := rfl
@[simp] theorem State.setFld_fns (s : State) (a lo w v : Nat) : (s.setFld a lo w v).fns = s.fns := rfl
@[simp] theorem State.setFld_hdma (s : State) (a lo w v : Nat) : (s.setFld a lo w v).hdma = s.hdma := rfl
@[simp] theorem State.setFld_vfRegs (s : State) (a lo w v : Nat) : (s.setFld a lo w v).vfRegs = s.vfRegs := rfl
@[simp] theorem State.setFld_vfErr (s : State) (a lo w v : Nat) : (s.setFld a lo w v).vfErr = s.vfErr := rfl
@[simp] theorem State.setFld_perst (s : State) (a lo w v : Nat) : (s.setFld a lo w v).perst = s.perst := rfl
@[simp] theorem State.setFld_link (s : State) (a lo w v : Nat) : (s.setFld a lo w v).link = s.link := rfl
@[simp] theorem State.setFld_aer (s : State) (a lo w v : Nat) : (s.setFld a lo w v).aer = s.aer := rfl
@[simp] theorem State.setFld_fltSeen (s : State) (a lo w v : Nat) : (s.setFld a lo w v).fltSeen = s.fltSeen := rfl
@[simp] theorem State.setFld_warm (s : State) (a lo w v : Nat) : (s.setFld a lo w v).warm = s.warm := rfl
@[simp] theorem State.setFld_crewRst (s : State) (a lo w v : Nat) : (s.setFld a lo w v).crewRst = s.crewRst := rfl
@[simp] theorem State.setFld_bh (s : State) (a lo w v : Nat) : (s.setFld a lo w v).bh = s.bh := rfl
@[simp] theorem State.setFld_ll (s : State) (a lo w v : Nat) : (s.setFld a lo w v).ll = s.ll := rfl
@[simp] theorem State.setFld_out (s : State) (a lo w v : Nat) : (s.setFld a lo w v).out = s.out := rfl
@[simp] theorem State.setFld_pending (s : State) (a lo w v : Nat) : (s.setFld a lo w v).pending = s.pending := rfl

@[simp] theorem State.setBit_time (s : State) (a i : Nat) (b : Bool) : (s.setBit a i b).time = s.time := rfl
@[simp] theorem State.setBit_mem (s : State) (a i : Nat) (b : Bool) : (s.setBit a i b).mem = s.mem := rfl
@[simp] theorem State.setBit_flash (s : State) (a i : Nat) (b : Bool) : (s.setBit a i b).flash = s.flash := rfl
@[simp] theorem State.setBit_eccOne (s : State) (a i : Nat) (b : Bool) : (s.setBit a i b).eccOne = s.eccOne := rfl
@[simp] theorem State.setBit_eccTwo (s : State) (a i : Nat) (b : Bool) : (s.setBit a i b).eccTwo = s.eccTwo := rfl
@[simp] theorem State.setBit_cores (s : State) (a i : Nat) (b : Bool) : (s.setBit a i b).cores = s.cores := rfl
@[simp] theorem State.setBit_clock (s : State) (a i : Nat) (b : Bool) : (s.setBit a i b).clock = s.clock := rfl
@[simp] theorem State.setBit_cc (s : State) (a i : Nat) (b : Bool) : (s.setBit a i b).cc = s.cc := rfl
@[simp] theorem State.setBit_sched (s : State) (a i : Nat) (b : Bool) : (s.setBit a i b).sched = s.sched := rfl
@[simp] theorem State.setBit_ctlRound (s : State) (a i : Nat) (b : Bool) : (s.setBit a i b).ctlRound = s.ctlRound := rfl
@[simp] theorem State.setBit_meshHold (s : State) (a i : Nat) (b : Bool) : (s.setBit a i b).meshHold = s.meshHold := rfl
@[simp] theorem State.setBit_ops (s : State) (a i : Nat) (b : Bool) : (s.setBit a i b).ops = s.ops := rfl
@[simp] theorem State.setBit_outReads (s : State) (a i : Nat) (b : Bool) : (s.setBit a i b).outReads = s.outReads := rfl
@[simp] theorem State.setBit_meshWait (s : State) (a i : Nat) (b : Bool) : (s.setBit a i b).meshWait = s.meshWait := rfl
@[simp] theorem State.setBit_ctl (s : State) (a i : Nat) (b : Bool) : (s.setBit a i b).ctl = s.ctl := rfl
@[simp] theorem State.setBit_banks (s : State) (a i : Nat) (b : Bool) : (s.setBit a i b).banks = s.banks := rfl
@[simp] theorem State.setBit_early (s : State) (a i : Nat) (b : Bool) : (s.setBit a i b).early = s.early := rfl
@[simp] theorem State.setBit_snaps (s : State) (a i : Nat) (b : Bool) : (s.setBit a i b).snaps = s.snaps := rfl
@[simp] theorem State.setBit_hcasRes (s : State) (a i : Nat) (b : Bool) : (s.setBit a i b).hcasRes = s.hcasRes := rfl
@[simp] theorem State.setBit_lastRead (s : State) (a i : Nat) (b : Bool) : (s.setBit a i b).lastRead = s.lastRead := rfl
@[simp] theorem State.setBit_freeCtr (s : State) (a i : Nat) (b : Bool) : (s.setBit a i b).freeCtr = s.freeCtr := rfl
@[simp] theorem State.setBit_vcOn (s : State) (a i : Nat) (b : Bool) : (s.setBit a i b).vcOn = s.vcOn := rfl
@[simp] theorem State.setBit_inRst (s : State) (a i : Nat) (b : Bool) : (s.setBit a i b).inRst = s.inRst := rfl
@[simp] theorem State.setBit_storeOn (s : State) (a i : Nat) (b : Bool) : (s.setBit a i b).storeOn = s.storeOn := rfl
@[simp] theorem State.setBit_vmeshOn (s : State) (a i : Nat) (b : Bool) : (s.setBit a i b).vmeshOn = s.vmeshOn := rfl
@[simp] theorem State.setBit_vgwOn (s : State) (a i : Nat) (b : Bool) : (s.setBit a i b).vgwOn = s.vgwOn := rfl
@[simp] theorem State.setBit_vioOn (s : State) (a i : Nat) (b : Bool) : (s.setBit a i b).vioOn = s.vioOn := rfl
@[simp] theorem State.setBit_routers (s : State) (a i : Nat) (b : Bool) : (s.setBit a i b).routers = s.routers := rfl
@[simp] theorem State.setBit_exits (s : State) (a i : Nat) (b : Bool) : (s.setBit a i b).exits = s.exits := rfl
@[simp] theorem State.setBit_outWrites (s : State) (a i : Nat) (b : Bool) : (s.setBit a i b).outWrites = s.outWrites := rfl
@[simp] theorem State.setBit_holding (s : State) (a i : Nat) (b : Bool) : (s.setBit a i b).holding = s.holding := rfl
@[simp] theorem State.setBit_noDispatch (s : State) (a i : Nat) (b : Bool) : (s.setBit a i b).noDispatch = s.noDispatch := rfl
@[simp] theorem State.setBit_seatsZeroed (s : State) (a i : Nat) (b : Bool) : (s.setBit a i b).seatsZeroed = s.seatsZeroed := rfl
@[simp] theorem State.setBit_storesZeroed (s : State) (a i : Nat) (b : Bool) : (s.setBit a i b).storesZeroed = s.storesZeroed := rfl
@[simp] theorem State.setBit_ports (s : State) (a i : Nat) (b : Bool) : (s.setBit a i b).ports = s.ports := rfl
@[simp] theorem State.setBit_stroke (s : State) (a i : Nat) (b : Bool) : (s.setBit a i b).stroke = s.stroke := rfl
@[simp] theorem State.setBit_ini (s : State) (a i : Nat) (b : Bool) : (s.setBit a i b).ini = s.ini := rfl
@[simp] theorem State.setBit_rxc (s : State) (a i : Nat) (b : Bool) : (s.setBit a i b).rxc = s.rxc := rfl
@[simp] theorem State.setBit_limits (s : State) (a i : Nat) (b : Bool) : (s.setBit a i b).limits = s.limits := rfl
@[simp] theorem State.setBit_ownIn (s : State) (a i : Nat) (b : Bool) : (s.setBit a i b).ownIn = s.ownIn := rfl
@[simp] theorem State.setBit_dma (s : State) (a i : Nat) (b : Bool) : (s.setBit a i b).dma = s.dma := rfl
@[simp] theorem State.setBit_pwr (s : State) (a i : Nat) (b : Bool) : (s.setBit a i b).pwr = s.pwr := rfl
@[simp] theorem State.setBit_killAt (s : State) (a i : Nat) (b : Bool) : (s.setBit a i b).killAt = s.killAt := rfl
@[simp] theorem State.setBit_zeroPass (s : State) (a i : Nat) (b : Bool) : (s.setBit a i b).zeroPass = s.zeroPass := rfl
@[simp] theorem State.setBit_fns (s : State) (a i : Nat) (b : Bool) : (s.setBit a i b).fns = s.fns := rfl
@[simp] theorem State.setBit_hdma (s : State) (a i : Nat) (b : Bool) : (s.setBit a i b).hdma = s.hdma := rfl
@[simp] theorem State.setBit_vfRegs (s : State) (a i : Nat) (b : Bool) : (s.setBit a i b).vfRegs = s.vfRegs := rfl
@[simp] theorem State.setBit_vfErr (s : State) (a i : Nat) (b : Bool) : (s.setBit a i b).vfErr = s.vfErr := rfl
@[simp] theorem State.setBit_perst (s : State) (a i : Nat) (b : Bool) : (s.setBit a i b).perst = s.perst := rfl
@[simp] theorem State.setBit_link (s : State) (a i : Nat) (b : Bool) : (s.setBit a i b).link = s.link := rfl
@[simp] theorem State.setBit_aer (s : State) (a i : Nat) (b : Bool) : (s.setBit a i b).aer = s.aer := rfl
@[simp] theorem State.setBit_fltSeen (s : State) (a i : Nat) (b : Bool) : (s.setBit a i b).fltSeen = s.fltSeen := rfl
@[simp] theorem State.setBit_warm (s : State) (a i : Nat) (b : Bool) : (s.setBit a i b).warm = s.warm := rfl
@[simp] theorem State.setBit_crewRst (s : State) (a i : Nat) (b : Bool) : (s.setBit a i b).crewRst = s.crewRst := rfl
@[simp] theorem State.setBit_bh (s : State) (a i : Nat) (b : Bool) : (s.setBit a i b).bh = s.bh := rfl
@[simp] theorem State.setBit_ll (s : State) (a i : Nat) (b : Bool) : (s.setBit a i b).ll = s.ll := rfl
@[simp] theorem State.setBit_out (s : State) (a i : Nat) (b : Bool) : (s.setBit a i b).out = s.out := rfl
@[simp] theorem State.setBit_pending (s : State) (a i : Nat) (b : Bool) : (s.setBit a i b).pending = s.pending := rfl

@[simp] theorem State.orReg_time (s : State) (a : Nat) (m : Word) : (s.orReg a m).time = s.time := rfl
@[simp] theorem State.orReg_mem (s : State) (a : Nat) (m : Word) : (s.orReg a m).mem = s.mem := rfl
@[simp] theorem State.orReg_flash (s : State) (a : Nat) (m : Word) : (s.orReg a m).flash = s.flash := rfl
@[simp] theorem State.orReg_eccOne (s : State) (a : Nat) (m : Word) : (s.orReg a m).eccOne = s.eccOne := rfl
@[simp] theorem State.orReg_eccTwo (s : State) (a : Nat) (m : Word) : (s.orReg a m).eccTwo = s.eccTwo := rfl
@[simp] theorem State.orReg_cores (s : State) (a : Nat) (m : Word) : (s.orReg a m).cores = s.cores := rfl
@[simp] theorem State.orReg_clock (s : State) (a : Nat) (m : Word) : (s.orReg a m).clock = s.clock := rfl
@[simp] theorem State.orReg_cc (s : State) (a : Nat) (m : Word) : (s.orReg a m).cc = s.cc := rfl
@[simp] theorem State.orReg_sched (s : State) (a : Nat) (m : Word) : (s.orReg a m).sched = s.sched := rfl
@[simp] theorem State.orReg_ctlRound (s : State) (a : Nat) (m : Word) : (s.orReg a m).ctlRound = s.ctlRound := rfl
@[simp] theorem State.orReg_meshHold (s : State) (a : Nat) (m : Word) : (s.orReg a m).meshHold = s.meshHold := rfl
@[simp] theorem State.orReg_ops (s : State) (a : Nat) (m : Word) : (s.orReg a m).ops = s.ops := rfl
@[simp] theorem State.orReg_outReads (s : State) (a : Nat) (m : Word) : (s.orReg a m).outReads = s.outReads := rfl
@[simp] theorem State.orReg_meshWait (s : State) (a : Nat) (m : Word) : (s.orReg a m).meshWait = s.meshWait := rfl
@[simp] theorem State.orReg_ctl (s : State) (a : Nat) (m : Word) : (s.orReg a m).ctl = s.ctl := rfl
@[simp] theorem State.orReg_banks (s : State) (a : Nat) (m : Word) : (s.orReg a m).banks = s.banks := rfl
@[simp] theorem State.orReg_early (s : State) (a : Nat) (m : Word) : (s.orReg a m).early = s.early := rfl
@[simp] theorem State.orReg_snaps (s : State) (a : Nat) (m : Word) : (s.orReg a m).snaps = s.snaps := rfl
@[simp] theorem State.orReg_hcasRes (s : State) (a : Nat) (m : Word) : (s.orReg a m).hcasRes = s.hcasRes := rfl
@[simp] theorem State.orReg_lastRead (s : State) (a : Nat) (m : Word) : (s.orReg a m).lastRead = s.lastRead := rfl
@[simp] theorem State.orReg_freeCtr (s : State) (a : Nat) (m : Word) : (s.orReg a m).freeCtr = s.freeCtr := rfl
@[simp] theorem State.orReg_vcOn (s : State) (a : Nat) (m : Word) : (s.orReg a m).vcOn = s.vcOn := rfl
@[simp] theorem State.orReg_inRst (s : State) (a : Nat) (m : Word) : (s.orReg a m).inRst = s.inRst := rfl
@[simp] theorem State.orReg_storeOn (s : State) (a : Nat) (m : Word) : (s.orReg a m).storeOn = s.storeOn := rfl
@[simp] theorem State.orReg_vmeshOn (s : State) (a : Nat) (m : Word) : (s.orReg a m).vmeshOn = s.vmeshOn := rfl
@[simp] theorem State.orReg_vgwOn (s : State) (a : Nat) (m : Word) : (s.orReg a m).vgwOn = s.vgwOn := rfl
@[simp] theorem State.orReg_vioOn (s : State) (a : Nat) (m : Word) : (s.orReg a m).vioOn = s.vioOn := rfl
@[simp] theorem State.orReg_routers (s : State) (a : Nat) (m : Word) : (s.orReg a m).routers = s.routers := rfl
@[simp] theorem State.orReg_exits (s : State) (a : Nat) (m : Word) : (s.orReg a m).exits = s.exits := rfl
@[simp] theorem State.orReg_outWrites (s : State) (a : Nat) (m : Word) : (s.orReg a m).outWrites = s.outWrites := rfl
@[simp] theorem State.orReg_holding (s : State) (a : Nat) (m : Word) : (s.orReg a m).holding = s.holding := rfl
@[simp] theorem State.orReg_noDispatch (s : State) (a : Nat) (m : Word) : (s.orReg a m).noDispatch = s.noDispatch := rfl
@[simp] theorem State.orReg_seatsZeroed (s : State) (a : Nat) (m : Word) : (s.orReg a m).seatsZeroed = s.seatsZeroed := rfl
@[simp] theorem State.orReg_storesZeroed (s : State) (a : Nat) (m : Word) : (s.orReg a m).storesZeroed = s.storesZeroed := rfl
@[simp] theorem State.orReg_ports (s : State) (a : Nat) (m : Word) : (s.orReg a m).ports = s.ports := rfl
@[simp] theorem State.orReg_stroke (s : State) (a : Nat) (m : Word) : (s.orReg a m).stroke = s.stroke := rfl
@[simp] theorem State.orReg_ini (s : State) (a : Nat) (m : Word) : (s.orReg a m).ini = s.ini := rfl
@[simp] theorem State.orReg_rxc (s : State) (a : Nat) (m : Word) : (s.orReg a m).rxc = s.rxc := rfl
@[simp] theorem State.orReg_limits (s : State) (a : Nat) (m : Word) : (s.orReg a m).limits = s.limits := rfl
@[simp] theorem State.orReg_ownIn (s : State) (a : Nat) (m : Word) : (s.orReg a m).ownIn = s.ownIn := rfl
@[simp] theorem State.orReg_dma (s : State) (a : Nat) (m : Word) : (s.orReg a m).dma = s.dma := rfl
@[simp] theorem State.orReg_pwr (s : State) (a : Nat) (m : Word) : (s.orReg a m).pwr = s.pwr := rfl
@[simp] theorem State.orReg_killAt (s : State) (a : Nat) (m : Word) : (s.orReg a m).killAt = s.killAt := rfl
@[simp] theorem State.orReg_zeroPass (s : State) (a : Nat) (m : Word) : (s.orReg a m).zeroPass = s.zeroPass := rfl
@[simp] theorem State.orReg_fns (s : State) (a : Nat) (m : Word) : (s.orReg a m).fns = s.fns := rfl
@[simp] theorem State.orReg_hdma (s : State) (a : Nat) (m : Word) : (s.orReg a m).hdma = s.hdma := rfl
@[simp] theorem State.orReg_vfRegs (s : State) (a : Nat) (m : Word) : (s.orReg a m).vfRegs = s.vfRegs := rfl
@[simp] theorem State.orReg_vfErr (s : State) (a : Nat) (m : Word) : (s.orReg a m).vfErr = s.vfErr := rfl
@[simp] theorem State.orReg_perst (s : State) (a : Nat) (m : Word) : (s.orReg a m).perst = s.perst := rfl
@[simp] theorem State.orReg_link (s : State) (a : Nat) (m : Word) : (s.orReg a m).link = s.link := rfl
@[simp] theorem State.orReg_aer (s : State) (a : Nat) (m : Word) : (s.orReg a m).aer = s.aer := rfl
@[simp] theorem State.orReg_fltSeen (s : State) (a : Nat) (m : Word) : (s.orReg a m).fltSeen = s.fltSeen := rfl
@[simp] theorem State.orReg_warm (s : State) (a : Nat) (m : Word) : (s.orReg a m).warm = s.warm := rfl
@[simp] theorem State.orReg_crewRst (s : State) (a : Nat) (m : Word) : (s.orReg a m).crewRst = s.crewRst := rfl
@[simp] theorem State.orReg_bh (s : State) (a : Nat) (m : Word) : (s.orReg a m).bh = s.bh := rfl
@[simp] theorem State.orReg_ll (s : State) (a : Nat) (m : Word) : (s.orReg a m).ll = s.ll := rfl
@[simp] theorem State.orReg_out (s : State) (a : Nat) (m : Word) : (s.orReg a m).out = s.out := rfl
@[simp] theorem State.orReg_pending (s : State) (a : Nat) (m : Word) : (s.orReg a m).pending = s.pending := rfl

@[simp] theorem State.clrReg_time (s : State) (a : Nat) (m : Word) : (s.clrReg a m).time = s.time := rfl
@[simp] theorem State.clrReg_mem (s : State) (a : Nat) (m : Word) : (s.clrReg a m).mem = s.mem := rfl
@[simp] theorem State.clrReg_flash (s : State) (a : Nat) (m : Word) : (s.clrReg a m).flash = s.flash := rfl
@[simp] theorem State.clrReg_eccOne (s : State) (a : Nat) (m : Word) : (s.clrReg a m).eccOne = s.eccOne := rfl
@[simp] theorem State.clrReg_eccTwo (s : State) (a : Nat) (m : Word) : (s.clrReg a m).eccTwo = s.eccTwo := rfl
@[simp] theorem State.clrReg_cores (s : State) (a : Nat) (m : Word) : (s.clrReg a m).cores = s.cores := rfl
@[simp] theorem State.clrReg_clock (s : State) (a : Nat) (m : Word) : (s.clrReg a m).clock = s.clock := rfl
@[simp] theorem State.clrReg_cc (s : State) (a : Nat) (m : Word) : (s.clrReg a m).cc = s.cc := rfl
@[simp] theorem State.clrReg_sched (s : State) (a : Nat) (m : Word) : (s.clrReg a m).sched = s.sched := rfl
@[simp] theorem State.clrReg_ctlRound (s : State) (a : Nat) (m : Word) : (s.clrReg a m).ctlRound = s.ctlRound := rfl
@[simp] theorem State.clrReg_meshHold (s : State) (a : Nat) (m : Word) : (s.clrReg a m).meshHold = s.meshHold := rfl
@[simp] theorem State.clrReg_ops (s : State) (a : Nat) (m : Word) : (s.clrReg a m).ops = s.ops := rfl
@[simp] theorem State.clrReg_outReads (s : State) (a : Nat) (m : Word) : (s.clrReg a m).outReads = s.outReads := rfl
@[simp] theorem State.clrReg_meshWait (s : State) (a : Nat) (m : Word) : (s.clrReg a m).meshWait = s.meshWait := rfl
@[simp] theorem State.clrReg_ctl (s : State) (a : Nat) (m : Word) : (s.clrReg a m).ctl = s.ctl := rfl
@[simp] theorem State.clrReg_banks (s : State) (a : Nat) (m : Word) : (s.clrReg a m).banks = s.banks := rfl
@[simp] theorem State.clrReg_early (s : State) (a : Nat) (m : Word) : (s.clrReg a m).early = s.early := rfl
@[simp] theorem State.clrReg_snaps (s : State) (a : Nat) (m : Word) : (s.clrReg a m).snaps = s.snaps := rfl
@[simp] theorem State.clrReg_hcasRes (s : State) (a : Nat) (m : Word) : (s.clrReg a m).hcasRes = s.hcasRes := rfl
@[simp] theorem State.clrReg_lastRead (s : State) (a : Nat) (m : Word) : (s.clrReg a m).lastRead = s.lastRead := rfl
@[simp] theorem State.clrReg_freeCtr (s : State) (a : Nat) (m : Word) : (s.clrReg a m).freeCtr = s.freeCtr := rfl
@[simp] theorem State.clrReg_vcOn (s : State) (a : Nat) (m : Word) : (s.clrReg a m).vcOn = s.vcOn := rfl
@[simp] theorem State.clrReg_inRst (s : State) (a : Nat) (m : Word) : (s.clrReg a m).inRst = s.inRst := rfl
@[simp] theorem State.clrReg_storeOn (s : State) (a : Nat) (m : Word) : (s.clrReg a m).storeOn = s.storeOn := rfl
@[simp] theorem State.clrReg_vmeshOn (s : State) (a : Nat) (m : Word) : (s.clrReg a m).vmeshOn = s.vmeshOn := rfl
@[simp] theorem State.clrReg_vgwOn (s : State) (a : Nat) (m : Word) : (s.clrReg a m).vgwOn = s.vgwOn := rfl
@[simp] theorem State.clrReg_vioOn (s : State) (a : Nat) (m : Word) : (s.clrReg a m).vioOn = s.vioOn := rfl
@[simp] theorem State.clrReg_routers (s : State) (a : Nat) (m : Word) : (s.clrReg a m).routers = s.routers := rfl
@[simp] theorem State.clrReg_exits (s : State) (a : Nat) (m : Word) : (s.clrReg a m).exits = s.exits := rfl
@[simp] theorem State.clrReg_outWrites (s : State) (a : Nat) (m : Word) : (s.clrReg a m).outWrites = s.outWrites := rfl
@[simp] theorem State.clrReg_holding (s : State) (a : Nat) (m : Word) : (s.clrReg a m).holding = s.holding := rfl
@[simp] theorem State.clrReg_noDispatch (s : State) (a : Nat) (m : Word) : (s.clrReg a m).noDispatch = s.noDispatch := rfl
@[simp] theorem State.clrReg_seatsZeroed (s : State) (a : Nat) (m : Word) : (s.clrReg a m).seatsZeroed = s.seatsZeroed := rfl
@[simp] theorem State.clrReg_storesZeroed (s : State) (a : Nat) (m : Word) : (s.clrReg a m).storesZeroed = s.storesZeroed := rfl
@[simp] theorem State.clrReg_ports (s : State) (a : Nat) (m : Word) : (s.clrReg a m).ports = s.ports := rfl
@[simp] theorem State.clrReg_stroke (s : State) (a : Nat) (m : Word) : (s.clrReg a m).stroke = s.stroke := rfl
@[simp] theorem State.clrReg_ini (s : State) (a : Nat) (m : Word) : (s.clrReg a m).ini = s.ini := rfl
@[simp] theorem State.clrReg_rxc (s : State) (a : Nat) (m : Word) : (s.clrReg a m).rxc = s.rxc := rfl
@[simp] theorem State.clrReg_limits (s : State) (a : Nat) (m : Word) : (s.clrReg a m).limits = s.limits := rfl
@[simp] theorem State.clrReg_ownIn (s : State) (a : Nat) (m : Word) : (s.clrReg a m).ownIn = s.ownIn := rfl
@[simp] theorem State.clrReg_dma (s : State) (a : Nat) (m : Word) : (s.clrReg a m).dma = s.dma := rfl
@[simp] theorem State.clrReg_pwr (s : State) (a : Nat) (m : Word) : (s.clrReg a m).pwr = s.pwr := rfl
@[simp] theorem State.clrReg_killAt (s : State) (a : Nat) (m : Word) : (s.clrReg a m).killAt = s.killAt := rfl
@[simp] theorem State.clrReg_zeroPass (s : State) (a : Nat) (m : Word) : (s.clrReg a m).zeroPass = s.zeroPass := rfl
@[simp] theorem State.clrReg_fns (s : State) (a : Nat) (m : Word) : (s.clrReg a m).fns = s.fns := rfl
@[simp] theorem State.clrReg_hdma (s : State) (a : Nat) (m : Word) : (s.clrReg a m).hdma = s.hdma := rfl
@[simp] theorem State.clrReg_vfRegs (s : State) (a : Nat) (m : Word) : (s.clrReg a m).vfRegs = s.vfRegs := rfl
@[simp] theorem State.clrReg_vfErr (s : State) (a : Nat) (m : Word) : (s.clrReg a m).vfErr = s.vfErr := rfl
@[simp] theorem State.clrReg_perst (s : State) (a : Nat) (m : Word) : (s.clrReg a m).perst = s.perst := rfl
@[simp] theorem State.clrReg_link (s : State) (a : Nat) (m : Word) : (s.clrReg a m).link = s.link := rfl
@[simp] theorem State.clrReg_aer (s : State) (a : Nat) (m : Word) : (s.clrReg a m).aer = s.aer := rfl
@[simp] theorem State.clrReg_fltSeen (s : State) (a : Nat) (m : Word) : (s.clrReg a m).fltSeen = s.fltSeen := rfl
@[simp] theorem State.clrReg_warm (s : State) (a : Nat) (m : Word) : (s.clrReg a m).warm = s.warm := rfl
@[simp] theorem State.clrReg_crewRst (s : State) (a : Nat) (m : Word) : (s.clrReg a m).crewRst = s.crewRst := rfl
@[simp] theorem State.clrReg_bh (s : State) (a : Nat) (m : Word) : (s.clrReg a m).bh = s.bh := rfl
@[simp] theorem State.clrReg_ll (s : State) (a : Nat) (m : Word) : (s.clrReg a m).ll = s.ll := rfl
@[simp] theorem State.clrReg_out (s : State) (a : Nat) (m : Word) : (s.clrReg a m).out = s.out := rfl
@[simp] theorem State.clrReg_pending (s : State) (a : Nat) (m : Word) : (s.clrReg a m).pending = s.pending := rfl

@[simp] theorem State.setReg32_time (s : State) (a : Nat) (v : BitVec 32) : (s.setReg32 a v).time = s.time := rfl
@[simp] theorem State.setReg32_mem (s : State) (a : Nat) (v : BitVec 32) : (s.setReg32 a v).mem = s.mem := rfl
@[simp] theorem State.setReg32_flash (s : State) (a : Nat) (v : BitVec 32) : (s.setReg32 a v).flash = s.flash := rfl
@[simp] theorem State.setReg32_eccOne (s : State) (a : Nat) (v : BitVec 32) : (s.setReg32 a v).eccOne = s.eccOne := rfl
@[simp] theorem State.setReg32_eccTwo (s : State) (a : Nat) (v : BitVec 32) : (s.setReg32 a v).eccTwo = s.eccTwo := rfl
@[simp] theorem State.setReg32_cores (s : State) (a : Nat) (v : BitVec 32) : (s.setReg32 a v).cores = s.cores := rfl
@[simp] theorem State.setReg32_clock (s : State) (a : Nat) (v : BitVec 32) : (s.setReg32 a v).clock = s.clock := rfl
@[simp] theorem State.setReg32_cc (s : State) (a : Nat) (v : BitVec 32) : (s.setReg32 a v).cc = s.cc := rfl
@[simp] theorem State.setReg32_sched (s : State) (a : Nat) (v : BitVec 32) : (s.setReg32 a v).sched = s.sched := rfl
@[simp] theorem State.setReg32_ctlRound (s : State) (a : Nat) (v : BitVec 32) : (s.setReg32 a v).ctlRound = s.ctlRound := rfl
@[simp] theorem State.setReg32_meshHold (s : State) (a : Nat) (v : BitVec 32) : (s.setReg32 a v).meshHold = s.meshHold := rfl
@[simp] theorem State.setReg32_ops (s : State) (a : Nat) (v : BitVec 32) : (s.setReg32 a v).ops = s.ops := rfl
@[simp] theorem State.setReg32_outReads (s : State) (a : Nat) (v : BitVec 32) : (s.setReg32 a v).outReads = s.outReads := rfl
@[simp] theorem State.setReg32_meshWait (s : State) (a : Nat) (v : BitVec 32) : (s.setReg32 a v).meshWait = s.meshWait := rfl
@[simp] theorem State.setReg32_ctl (s : State) (a : Nat) (v : BitVec 32) : (s.setReg32 a v).ctl = s.ctl := rfl
@[simp] theorem State.setReg32_banks (s : State) (a : Nat) (v : BitVec 32) : (s.setReg32 a v).banks = s.banks := rfl
@[simp] theorem State.setReg32_early (s : State) (a : Nat) (v : BitVec 32) : (s.setReg32 a v).early = s.early := rfl
@[simp] theorem State.setReg32_snaps (s : State) (a : Nat) (v : BitVec 32) : (s.setReg32 a v).snaps = s.snaps := rfl
@[simp] theorem State.setReg32_hcasRes (s : State) (a : Nat) (v : BitVec 32) : (s.setReg32 a v).hcasRes = s.hcasRes := rfl
@[simp] theorem State.setReg32_lastRead (s : State) (a : Nat) (v : BitVec 32) : (s.setReg32 a v).lastRead = s.lastRead := rfl
@[simp] theorem State.setReg32_freeCtr (s : State) (a : Nat) (v : BitVec 32) : (s.setReg32 a v).freeCtr = s.freeCtr := rfl
@[simp] theorem State.setReg32_vcOn (s : State) (a : Nat) (v : BitVec 32) : (s.setReg32 a v).vcOn = s.vcOn := rfl
@[simp] theorem State.setReg32_inRst (s : State) (a : Nat) (v : BitVec 32) : (s.setReg32 a v).inRst = s.inRst := rfl
@[simp] theorem State.setReg32_storeOn (s : State) (a : Nat) (v : BitVec 32) : (s.setReg32 a v).storeOn = s.storeOn := rfl
@[simp] theorem State.setReg32_vmeshOn (s : State) (a : Nat) (v : BitVec 32) : (s.setReg32 a v).vmeshOn = s.vmeshOn := rfl
@[simp] theorem State.setReg32_vgwOn (s : State) (a : Nat) (v : BitVec 32) : (s.setReg32 a v).vgwOn = s.vgwOn := rfl
@[simp] theorem State.setReg32_vioOn (s : State) (a : Nat) (v : BitVec 32) : (s.setReg32 a v).vioOn = s.vioOn := rfl
@[simp] theorem State.setReg32_routers (s : State) (a : Nat) (v : BitVec 32) : (s.setReg32 a v).routers = s.routers := rfl
@[simp] theorem State.setReg32_exits (s : State) (a : Nat) (v : BitVec 32) : (s.setReg32 a v).exits = s.exits := rfl
@[simp] theorem State.setReg32_outWrites (s : State) (a : Nat) (v : BitVec 32) : (s.setReg32 a v).outWrites = s.outWrites := rfl
@[simp] theorem State.setReg32_holding (s : State) (a : Nat) (v : BitVec 32) : (s.setReg32 a v).holding = s.holding := rfl
@[simp] theorem State.setReg32_noDispatch (s : State) (a : Nat) (v : BitVec 32) : (s.setReg32 a v).noDispatch = s.noDispatch := rfl
@[simp] theorem State.setReg32_seatsZeroed (s : State) (a : Nat) (v : BitVec 32) : (s.setReg32 a v).seatsZeroed = s.seatsZeroed := rfl
@[simp] theorem State.setReg32_storesZeroed (s : State) (a : Nat) (v : BitVec 32) : (s.setReg32 a v).storesZeroed = s.storesZeroed := rfl
@[simp] theorem State.setReg32_ports (s : State) (a : Nat) (v : BitVec 32) : (s.setReg32 a v).ports = s.ports := rfl
@[simp] theorem State.setReg32_stroke (s : State) (a : Nat) (v : BitVec 32) : (s.setReg32 a v).stroke = s.stroke := rfl
@[simp] theorem State.setReg32_ini (s : State) (a : Nat) (v : BitVec 32) : (s.setReg32 a v).ini = s.ini := rfl
@[simp] theorem State.setReg32_rxc (s : State) (a : Nat) (v : BitVec 32) : (s.setReg32 a v).rxc = s.rxc := rfl
@[simp] theorem State.setReg32_limits (s : State) (a : Nat) (v : BitVec 32) : (s.setReg32 a v).limits = s.limits := rfl
@[simp] theorem State.setReg32_ownIn (s : State) (a : Nat) (v : BitVec 32) : (s.setReg32 a v).ownIn = s.ownIn := rfl
@[simp] theorem State.setReg32_dma (s : State) (a : Nat) (v : BitVec 32) : (s.setReg32 a v).dma = s.dma := rfl
@[simp] theorem State.setReg32_pwr (s : State) (a : Nat) (v : BitVec 32) : (s.setReg32 a v).pwr = s.pwr := rfl
@[simp] theorem State.setReg32_killAt (s : State) (a : Nat) (v : BitVec 32) : (s.setReg32 a v).killAt = s.killAt := rfl
@[simp] theorem State.setReg32_zeroPass (s : State) (a : Nat) (v : BitVec 32) : (s.setReg32 a v).zeroPass = s.zeroPass := rfl
@[simp] theorem State.setReg32_fns (s : State) (a : Nat) (v : BitVec 32) : (s.setReg32 a v).fns = s.fns := rfl
@[simp] theorem State.setReg32_hdma (s : State) (a : Nat) (v : BitVec 32) : (s.setReg32 a v).hdma = s.hdma := rfl
@[simp] theorem State.setReg32_vfRegs (s : State) (a : Nat) (v : BitVec 32) : (s.setReg32 a v).vfRegs = s.vfRegs := rfl
@[simp] theorem State.setReg32_vfErr (s : State) (a : Nat) (v : BitVec 32) : (s.setReg32 a v).vfErr = s.vfErr := rfl
@[simp] theorem State.setReg32_perst (s : State) (a : Nat) (v : BitVec 32) : (s.setReg32 a v).perst = s.perst := rfl
@[simp] theorem State.setReg32_link (s : State) (a : Nat) (v : BitVec 32) : (s.setReg32 a v).link = s.link := rfl
@[simp] theorem State.setReg32_aer (s : State) (a : Nat) (v : BitVec 32) : (s.setReg32 a v).aer = s.aer := rfl
@[simp] theorem State.setReg32_fltSeen (s : State) (a : Nat) (v : BitVec 32) : (s.setReg32 a v).fltSeen = s.fltSeen := rfl
@[simp] theorem State.setReg32_warm (s : State) (a : Nat) (v : BitVec 32) : (s.setReg32 a v).warm = s.warm := rfl
@[simp] theorem State.setReg32_crewRst (s : State) (a : Nat) (v : BitVec 32) : (s.setReg32 a v).crewRst = s.crewRst := rfl
@[simp] theorem State.setReg32_bh (s : State) (a : Nat) (v : BitVec 32) : (s.setReg32 a v).bh = s.bh := rfl
@[simp] theorem State.setReg32_ll (s : State) (a : Nat) (v : BitVec 32) : (s.setReg32 a v).ll = s.ll := rfl
@[simp] theorem State.setReg32_out (s : State) (a : Nat) (v : BitVec 32) : (s.setReg32 a v).out = s.out := rfl
@[simp] theorem State.setReg32_pending (s : State) (a : Nat) (v : BitVec 32) : (s.setReg32 a v).pending = s.pending := rfl

@[simp] theorem State.addSat_time (s : State) (a n : Nat) : (s.addSat a n).time = s.time := rfl
@[simp] theorem State.addSat_mem (s : State) (a n : Nat) : (s.addSat a n).mem = s.mem := rfl
@[simp] theorem State.addSat_flash (s : State) (a n : Nat) : (s.addSat a n).flash = s.flash := rfl
@[simp] theorem State.addSat_eccOne (s : State) (a n : Nat) : (s.addSat a n).eccOne = s.eccOne := rfl
@[simp] theorem State.addSat_eccTwo (s : State) (a n : Nat) : (s.addSat a n).eccTwo = s.eccTwo := rfl
@[simp] theorem State.addSat_cores (s : State) (a n : Nat) : (s.addSat a n).cores = s.cores := rfl
@[simp] theorem State.addSat_clock (s : State) (a n : Nat) : (s.addSat a n).clock = s.clock := rfl
@[simp] theorem State.addSat_cc (s : State) (a n : Nat) : (s.addSat a n).cc = s.cc := rfl
@[simp] theorem State.addSat_sched (s : State) (a n : Nat) : (s.addSat a n).sched = s.sched := rfl
@[simp] theorem State.addSat_ctlRound (s : State) (a n : Nat) : (s.addSat a n).ctlRound = s.ctlRound := rfl
@[simp] theorem State.addSat_meshHold (s : State) (a n : Nat) : (s.addSat a n).meshHold = s.meshHold := rfl
@[simp] theorem State.addSat_ops (s : State) (a n : Nat) : (s.addSat a n).ops = s.ops := rfl
@[simp] theorem State.addSat_outReads (s : State) (a n : Nat) : (s.addSat a n).outReads = s.outReads := rfl
@[simp] theorem State.addSat_meshWait (s : State) (a n : Nat) : (s.addSat a n).meshWait = s.meshWait := rfl
@[simp] theorem State.addSat_ctl (s : State) (a n : Nat) : (s.addSat a n).ctl = s.ctl := rfl
@[simp] theorem State.addSat_banks (s : State) (a n : Nat) : (s.addSat a n).banks = s.banks := rfl
@[simp] theorem State.addSat_early (s : State) (a n : Nat) : (s.addSat a n).early = s.early := rfl
@[simp] theorem State.addSat_snaps (s : State) (a n : Nat) : (s.addSat a n).snaps = s.snaps := rfl
@[simp] theorem State.addSat_hcasRes (s : State) (a n : Nat) : (s.addSat a n).hcasRes = s.hcasRes := rfl
@[simp] theorem State.addSat_lastRead (s : State) (a n : Nat) : (s.addSat a n).lastRead = s.lastRead := rfl
@[simp] theorem State.addSat_freeCtr (s : State) (a n : Nat) : (s.addSat a n).freeCtr = s.freeCtr := rfl
@[simp] theorem State.addSat_vcOn (s : State) (a n : Nat) : (s.addSat a n).vcOn = s.vcOn := rfl
@[simp] theorem State.addSat_inRst (s : State) (a n : Nat) : (s.addSat a n).inRst = s.inRst := rfl
@[simp] theorem State.addSat_storeOn (s : State) (a n : Nat) : (s.addSat a n).storeOn = s.storeOn := rfl
@[simp] theorem State.addSat_vmeshOn (s : State) (a n : Nat) : (s.addSat a n).vmeshOn = s.vmeshOn := rfl
@[simp] theorem State.addSat_vgwOn (s : State) (a n : Nat) : (s.addSat a n).vgwOn = s.vgwOn := rfl
@[simp] theorem State.addSat_vioOn (s : State) (a n : Nat) : (s.addSat a n).vioOn = s.vioOn := rfl
@[simp] theorem State.addSat_routers (s : State) (a n : Nat) : (s.addSat a n).routers = s.routers := rfl
@[simp] theorem State.addSat_exits (s : State) (a n : Nat) : (s.addSat a n).exits = s.exits := rfl
@[simp] theorem State.addSat_outWrites (s : State) (a n : Nat) : (s.addSat a n).outWrites = s.outWrites := rfl
@[simp] theorem State.addSat_holding (s : State) (a n : Nat) : (s.addSat a n).holding = s.holding := rfl
@[simp] theorem State.addSat_noDispatch (s : State) (a n : Nat) : (s.addSat a n).noDispatch = s.noDispatch := rfl
@[simp] theorem State.addSat_seatsZeroed (s : State) (a n : Nat) : (s.addSat a n).seatsZeroed = s.seatsZeroed := rfl
@[simp] theorem State.addSat_storesZeroed (s : State) (a n : Nat) : (s.addSat a n).storesZeroed = s.storesZeroed := rfl
@[simp] theorem State.addSat_ports (s : State) (a n : Nat) : (s.addSat a n).ports = s.ports := rfl
@[simp] theorem State.addSat_stroke (s : State) (a n : Nat) : (s.addSat a n).stroke = s.stroke := rfl
@[simp] theorem State.addSat_ini (s : State) (a n : Nat) : (s.addSat a n).ini = s.ini := rfl
@[simp] theorem State.addSat_rxc (s : State) (a n : Nat) : (s.addSat a n).rxc = s.rxc := rfl
@[simp] theorem State.addSat_limits (s : State) (a n : Nat) : (s.addSat a n).limits = s.limits := rfl
@[simp] theorem State.addSat_ownIn (s : State) (a n : Nat) : (s.addSat a n).ownIn = s.ownIn := rfl
@[simp] theorem State.addSat_dma (s : State) (a n : Nat) : (s.addSat a n).dma = s.dma := rfl
@[simp] theorem State.addSat_pwr (s : State) (a n : Nat) : (s.addSat a n).pwr = s.pwr := rfl
@[simp] theorem State.addSat_killAt (s : State) (a n : Nat) : (s.addSat a n).killAt = s.killAt := rfl
@[simp] theorem State.addSat_zeroPass (s : State) (a n : Nat) : (s.addSat a n).zeroPass = s.zeroPass := rfl
@[simp] theorem State.addSat_fns (s : State) (a n : Nat) : (s.addSat a n).fns = s.fns := rfl
@[simp] theorem State.addSat_hdma (s : State) (a n : Nat) : (s.addSat a n).hdma = s.hdma := rfl
@[simp] theorem State.addSat_vfRegs (s : State) (a n : Nat) : (s.addSat a n).vfRegs = s.vfRegs := rfl
@[simp] theorem State.addSat_vfErr (s : State) (a n : Nat) : (s.addSat a n).vfErr = s.vfErr := rfl
@[simp] theorem State.addSat_perst (s : State) (a n : Nat) : (s.addSat a n).perst = s.perst := rfl
@[simp] theorem State.addSat_link (s : State) (a n : Nat) : (s.addSat a n).link = s.link := rfl
@[simp] theorem State.addSat_aer (s : State) (a n : Nat) : (s.addSat a n).aer = s.aer := rfl
@[simp] theorem State.addSat_fltSeen (s : State) (a n : Nat) : (s.addSat a n).fltSeen = s.fltSeen := rfl
@[simp] theorem State.addSat_warm (s : State) (a n : Nat) : (s.addSat a n).warm = s.warm := rfl
@[simp] theorem State.addSat_crewRst (s : State) (a n : Nat) : (s.addSat a n).crewRst = s.crewRst := rfl
@[simp] theorem State.addSat_bh (s : State) (a n : Nat) : (s.addSat a n).bh = s.bh := rfl
@[simp] theorem State.addSat_ll (s : State) (a n : Nat) : (s.addSat a n).ll = s.ll := rfl
@[simp] theorem State.addSat_out (s : State) (a n : Nat) : (s.addSat a n).out = s.out := rfl
@[simp] theorem State.addSat_pending (s : State) (a n : Nat) : (s.addSat a n).pending = s.pending := rfl

@[simp] theorem State.resetSpan_time (s : State) (lo hi : Nat) : (s.resetSpan lo hi).time = s.time := rfl
@[simp] theorem State.resetSpan_mem (s : State) (lo hi : Nat) : (s.resetSpan lo hi).mem = s.mem := rfl
@[simp] theorem State.resetSpan_flash (s : State) (lo hi : Nat) : (s.resetSpan lo hi).flash = s.flash := rfl
@[simp] theorem State.resetSpan_eccOne (s : State) (lo hi : Nat) : (s.resetSpan lo hi).eccOne = s.eccOne := rfl
@[simp] theorem State.resetSpan_eccTwo (s : State) (lo hi : Nat) : (s.resetSpan lo hi).eccTwo = s.eccTwo := rfl
@[simp] theorem State.resetSpan_cores (s : State) (lo hi : Nat) : (s.resetSpan lo hi).cores = s.cores := rfl
@[simp] theorem State.resetSpan_clock (s : State) (lo hi : Nat) : (s.resetSpan lo hi).clock = s.clock := rfl
@[simp] theorem State.resetSpan_cc (s : State) (lo hi : Nat) : (s.resetSpan lo hi).cc = s.cc := rfl
@[simp] theorem State.resetSpan_sched (s : State) (lo hi : Nat) : (s.resetSpan lo hi).sched = s.sched := rfl
@[simp] theorem State.resetSpan_ctlRound (s : State) (lo hi : Nat) : (s.resetSpan lo hi).ctlRound = s.ctlRound := rfl
@[simp] theorem State.resetSpan_meshHold (s : State) (lo hi : Nat) : (s.resetSpan lo hi).meshHold = s.meshHold := rfl
@[simp] theorem State.resetSpan_ops (s : State) (lo hi : Nat) : (s.resetSpan lo hi).ops = s.ops := rfl
@[simp] theorem State.resetSpan_outReads (s : State) (lo hi : Nat) : (s.resetSpan lo hi).outReads = s.outReads := rfl
@[simp] theorem State.resetSpan_meshWait (s : State) (lo hi : Nat) : (s.resetSpan lo hi).meshWait = s.meshWait := rfl
@[simp] theorem State.resetSpan_ctl (s : State) (lo hi : Nat) : (s.resetSpan lo hi).ctl = s.ctl := rfl
@[simp] theorem State.resetSpan_banks (s : State) (lo hi : Nat) : (s.resetSpan lo hi).banks = s.banks := rfl
@[simp] theorem State.resetSpan_early (s : State) (lo hi : Nat) : (s.resetSpan lo hi).early = s.early := rfl
@[simp] theorem State.resetSpan_snaps (s : State) (lo hi : Nat) : (s.resetSpan lo hi).snaps = s.snaps := rfl
@[simp] theorem State.resetSpan_hcasRes (s : State) (lo hi : Nat) : (s.resetSpan lo hi).hcasRes = s.hcasRes := rfl
@[simp] theorem State.resetSpan_lastRead (s : State) (lo hi : Nat) : (s.resetSpan lo hi).lastRead = s.lastRead := rfl
@[simp] theorem State.resetSpan_freeCtr (s : State) (lo hi : Nat) : (s.resetSpan lo hi).freeCtr = s.freeCtr := rfl
@[simp] theorem State.resetSpan_vcOn (s : State) (lo hi : Nat) : (s.resetSpan lo hi).vcOn = s.vcOn := rfl
@[simp] theorem State.resetSpan_inRst (s : State) (lo hi : Nat) : (s.resetSpan lo hi).inRst = s.inRst := rfl
@[simp] theorem State.resetSpan_storeOn (s : State) (lo hi : Nat) : (s.resetSpan lo hi).storeOn = s.storeOn := rfl
@[simp] theorem State.resetSpan_vmeshOn (s : State) (lo hi : Nat) : (s.resetSpan lo hi).vmeshOn = s.vmeshOn := rfl
@[simp] theorem State.resetSpan_vgwOn (s : State) (lo hi : Nat) : (s.resetSpan lo hi).vgwOn = s.vgwOn := rfl
@[simp] theorem State.resetSpan_vioOn (s : State) (lo hi : Nat) : (s.resetSpan lo hi).vioOn = s.vioOn := rfl
@[simp] theorem State.resetSpan_routers (s : State) (lo hi : Nat) : (s.resetSpan lo hi).routers = s.routers := rfl
@[simp] theorem State.resetSpan_exits (s : State) (lo hi : Nat) : (s.resetSpan lo hi).exits = s.exits := rfl
@[simp] theorem State.resetSpan_outWrites (s : State) (lo hi : Nat) : (s.resetSpan lo hi).outWrites = s.outWrites := rfl
@[simp] theorem State.resetSpan_holding (s : State) (lo hi : Nat) : (s.resetSpan lo hi).holding = s.holding := rfl
@[simp] theorem State.resetSpan_noDispatch (s : State) (lo hi : Nat) : (s.resetSpan lo hi).noDispatch = s.noDispatch := rfl
@[simp] theorem State.resetSpan_seatsZeroed (s : State) (lo hi : Nat) : (s.resetSpan lo hi).seatsZeroed = s.seatsZeroed := rfl
@[simp] theorem State.resetSpan_storesZeroed (s : State) (lo hi : Nat) : (s.resetSpan lo hi).storesZeroed = s.storesZeroed := rfl
@[simp] theorem State.resetSpan_ports (s : State) (lo hi : Nat) : (s.resetSpan lo hi).ports = s.ports := rfl
@[simp] theorem State.resetSpan_stroke (s : State) (lo hi : Nat) : (s.resetSpan lo hi).stroke = s.stroke := rfl
@[simp] theorem State.resetSpan_ini (s : State) (lo hi : Nat) : (s.resetSpan lo hi).ini = s.ini := rfl
@[simp] theorem State.resetSpan_rxc (s : State) (lo hi : Nat) : (s.resetSpan lo hi).rxc = s.rxc := rfl
@[simp] theorem State.resetSpan_limits (s : State) (lo hi : Nat) : (s.resetSpan lo hi).limits = s.limits := rfl
@[simp] theorem State.resetSpan_ownIn (s : State) (lo hi : Nat) : (s.resetSpan lo hi).ownIn = s.ownIn := rfl
@[simp] theorem State.resetSpan_dma (s : State) (lo hi : Nat) : (s.resetSpan lo hi).dma = s.dma := rfl
@[simp] theorem State.resetSpan_pwr (s : State) (lo hi : Nat) : (s.resetSpan lo hi).pwr = s.pwr := rfl
@[simp] theorem State.resetSpan_killAt (s : State) (lo hi : Nat) : (s.resetSpan lo hi).killAt = s.killAt := rfl
@[simp] theorem State.resetSpan_zeroPass (s : State) (lo hi : Nat) : (s.resetSpan lo hi).zeroPass = s.zeroPass := rfl
@[simp] theorem State.resetSpan_fns (s : State) (lo hi : Nat) : (s.resetSpan lo hi).fns = s.fns := rfl
@[simp] theorem State.resetSpan_hdma (s : State) (lo hi : Nat) : (s.resetSpan lo hi).hdma = s.hdma := rfl
@[simp] theorem State.resetSpan_vfRegs (s : State) (lo hi : Nat) : (s.resetSpan lo hi).vfRegs = s.vfRegs := rfl
@[simp] theorem State.resetSpan_vfErr (s : State) (lo hi : Nat) : (s.resetSpan lo hi).vfErr = s.vfErr := rfl
@[simp] theorem State.resetSpan_perst (s : State) (lo hi : Nat) : (s.resetSpan lo hi).perst = s.perst := rfl
@[simp] theorem State.resetSpan_link (s : State) (lo hi : Nat) : (s.resetSpan lo hi).link = s.link := rfl
@[simp] theorem State.resetSpan_aer (s : State) (lo hi : Nat) : (s.resetSpan lo hi).aer = s.aer := rfl
@[simp] theorem State.resetSpan_fltSeen (s : State) (lo hi : Nat) : (s.resetSpan lo hi).fltSeen = s.fltSeen := rfl
@[simp] theorem State.resetSpan_warm (s : State) (lo hi : Nat) : (s.resetSpan lo hi).warm = s.warm := rfl
@[simp] theorem State.resetSpan_crewRst (s : State) (lo hi : Nat) : (s.resetSpan lo hi).crewRst = s.crewRst := rfl
@[simp] theorem State.resetSpan_bh (s : State) (lo hi : Nat) : (s.resetSpan lo hi).bh = s.bh := rfl
@[simp] theorem State.resetSpan_ll (s : State) (lo hi : Nat) : (s.resetSpan lo hi).ll = s.ll := rfl
@[simp] theorem State.resetSpan_out (s : State) (lo hi : Nat) : (s.resetSpan lo hi).out = s.out := rfl
@[simp] theorem State.resetSpan_pending (s : State) (lo hi : Nat) : (s.resetSpan lo hi).pending = s.pending := rfl

@[simp] theorem State.setCore_time (s : State) (c : CoreId) (k : Machine.Core) : (s.setCore c k).time = s.time := rfl
@[simp] theorem State.setCore_regs (s : State) (c : CoreId) (k : Machine.Core) : (s.setCore c k).regs = s.regs := rfl
@[simp] theorem State.setCore_mem (s : State) (c : CoreId) (k : Machine.Core) : (s.setCore c k).mem = s.mem := rfl
@[simp] theorem State.setCore_flash (s : State) (c : CoreId) (k : Machine.Core) : (s.setCore c k).flash = s.flash := rfl
@[simp] theorem State.setCore_eccOne (s : State) (c : CoreId) (k : Machine.Core) : (s.setCore c k).eccOne = s.eccOne := rfl
@[simp] theorem State.setCore_eccTwo (s : State) (c : CoreId) (k : Machine.Core) : (s.setCore c k).eccTwo = s.eccTwo := rfl
@[simp] theorem State.setCore_clock (s : State) (c : CoreId) (k : Machine.Core) : (s.setCore c k).clock = s.clock := rfl
@[simp] theorem State.setCore_cc (s : State) (c : CoreId) (k : Machine.Core) : (s.setCore c k).cc = s.cc := rfl
@[simp] theorem State.setCore_sched (s : State) (c : CoreId) (k : Machine.Core) : (s.setCore c k).sched = s.sched := rfl
@[simp] theorem State.setCore_ctlRound (s : State) (c : CoreId) (k : Machine.Core) : (s.setCore c k).ctlRound = s.ctlRound := rfl
@[simp] theorem State.setCore_meshHold (s : State) (c : CoreId) (k : Machine.Core) : (s.setCore c k).meshHold = s.meshHold := rfl
@[simp] theorem State.setCore_ops (s : State) (c : CoreId) (k : Machine.Core) : (s.setCore c k).ops = s.ops := rfl
@[simp] theorem State.setCore_outReads (s : State) (c : CoreId) (k : Machine.Core) : (s.setCore c k).outReads = s.outReads := rfl
@[simp] theorem State.setCore_meshWait (s : State) (c : CoreId) (k : Machine.Core) : (s.setCore c k).meshWait = s.meshWait := rfl
@[simp] theorem State.setCore_ctl (s : State) (c : CoreId) (k : Machine.Core) : (s.setCore c k).ctl = s.ctl := rfl
@[simp] theorem State.setCore_banks (s : State) (c : CoreId) (k : Machine.Core) : (s.setCore c k).banks = s.banks := rfl
@[simp] theorem State.setCore_early (s : State) (c : CoreId) (k : Machine.Core) : (s.setCore c k).early = s.early := rfl
@[simp] theorem State.setCore_snaps (s : State) (c : CoreId) (k : Machine.Core) : (s.setCore c k).snaps = s.snaps := rfl
@[simp] theorem State.setCore_hcasRes (s : State) (c : CoreId) (k : Machine.Core) : (s.setCore c k).hcasRes = s.hcasRes := rfl
@[simp] theorem State.setCore_lastRead (s : State) (c : CoreId) (k : Machine.Core) : (s.setCore c k).lastRead = s.lastRead := rfl
@[simp] theorem State.setCore_freeCtr (s : State) (c : CoreId) (k : Machine.Core) : (s.setCore c k).freeCtr = s.freeCtr := rfl
@[simp] theorem State.setCore_vcOn (s : State) (c : CoreId) (k : Machine.Core) : (s.setCore c k).vcOn = s.vcOn := rfl
@[simp] theorem State.setCore_inRst (s : State) (c : CoreId) (k : Machine.Core) : (s.setCore c k).inRst = s.inRst := rfl
@[simp] theorem State.setCore_storeOn (s : State) (c : CoreId) (k : Machine.Core) : (s.setCore c k).storeOn = s.storeOn := rfl
@[simp] theorem State.setCore_vmeshOn (s : State) (c : CoreId) (k : Machine.Core) : (s.setCore c k).vmeshOn = s.vmeshOn := rfl
@[simp] theorem State.setCore_vgwOn (s : State) (c : CoreId) (k : Machine.Core) : (s.setCore c k).vgwOn = s.vgwOn := rfl
@[simp] theorem State.setCore_vioOn (s : State) (c : CoreId) (k : Machine.Core) : (s.setCore c k).vioOn = s.vioOn := rfl
@[simp] theorem State.setCore_routers (s : State) (c : CoreId) (k : Machine.Core) : (s.setCore c k).routers = s.routers := rfl
@[simp] theorem State.setCore_exits (s : State) (c : CoreId) (k : Machine.Core) : (s.setCore c k).exits = s.exits := rfl
@[simp] theorem State.setCore_outWrites (s : State) (c : CoreId) (k : Machine.Core) : (s.setCore c k).outWrites = s.outWrites := rfl
@[simp] theorem State.setCore_holding (s : State) (c : CoreId) (k : Machine.Core) : (s.setCore c k).holding = s.holding := rfl
@[simp] theorem State.setCore_noDispatch (s : State) (c : CoreId) (k : Machine.Core) : (s.setCore c k).noDispatch = s.noDispatch := rfl
@[simp] theorem State.setCore_seatsZeroed (s : State) (c : CoreId) (k : Machine.Core) : (s.setCore c k).seatsZeroed = s.seatsZeroed := rfl
@[simp] theorem State.setCore_storesZeroed (s : State) (c : CoreId) (k : Machine.Core) : (s.setCore c k).storesZeroed = s.storesZeroed := rfl
@[simp] theorem State.setCore_ports (s : State) (c : CoreId) (k : Machine.Core) : (s.setCore c k).ports = s.ports := rfl
@[simp] theorem State.setCore_stroke (s : State) (c : CoreId) (k : Machine.Core) : (s.setCore c k).stroke = s.stroke := rfl
@[simp] theorem State.setCore_ini (s : State) (c : CoreId) (k : Machine.Core) : (s.setCore c k).ini = s.ini := rfl
@[simp] theorem State.setCore_rxc (s : State) (c : CoreId) (k : Machine.Core) : (s.setCore c k).rxc = s.rxc := rfl
@[simp] theorem State.setCore_limits (s : State) (c : CoreId) (k : Machine.Core) : (s.setCore c k).limits = s.limits := rfl
@[simp] theorem State.setCore_ownIn (s : State) (c : CoreId) (k : Machine.Core) : (s.setCore c k).ownIn = s.ownIn := rfl
@[simp] theorem State.setCore_dma (s : State) (c : CoreId) (k : Machine.Core) : (s.setCore c k).dma = s.dma := rfl
@[simp] theorem State.setCore_pwr (s : State) (c : CoreId) (k : Machine.Core) : (s.setCore c k).pwr = s.pwr := rfl
@[simp] theorem State.setCore_killAt (s : State) (c : CoreId) (k : Machine.Core) : (s.setCore c k).killAt = s.killAt := rfl
@[simp] theorem State.setCore_zeroPass (s : State) (c : CoreId) (k : Machine.Core) : (s.setCore c k).zeroPass = s.zeroPass := rfl
@[simp] theorem State.setCore_fns (s : State) (c : CoreId) (k : Machine.Core) : (s.setCore c k).fns = s.fns := rfl
@[simp] theorem State.setCore_hdma (s : State) (c : CoreId) (k : Machine.Core) : (s.setCore c k).hdma = s.hdma := rfl
@[simp] theorem State.setCore_vfRegs (s : State) (c : CoreId) (k : Machine.Core) : (s.setCore c k).vfRegs = s.vfRegs := rfl
@[simp] theorem State.setCore_vfErr (s : State) (c : CoreId) (k : Machine.Core) : (s.setCore c k).vfErr = s.vfErr := rfl
@[simp] theorem State.setCore_perst (s : State) (c : CoreId) (k : Machine.Core) : (s.setCore c k).perst = s.perst := rfl
@[simp] theorem State.setCore_link (s : State) (c : CoreId) (k : Machine.Core) : (s.setCore c k).link = s.link := rfl
@[simp] theorem State.setCore_aer (s : State) (c : CoreId) (k : Machine.Core) : (s.setCore c k).aer = s.aer := rfl
@[simp] theorem State.setCore_fltSeen (s : State) (c : CoreId) (k : Machine.Core) : (s.setCore c k).fltSeen = s.fltSeen := rfl
@[simp] theorem State.setCore_warm (s : State) (c : CoreId) (k : Machine.Core) : (s.setCore c k).warm = s.warm := rfl
@[simp] theorem State.setCore_crewRst (s : State) (c : CoreId) (k : Machine.Core) : (s.setCore c k).crewRst = s.crewRst := rfl
@[simp] theorem State.setCore_bh (s : State) (c : CoreId) (k : Machine.Core) : (s.setCore c k).bh = s.bh := rfl
@[simp] theorem State.setCore_ll (s : State) (c : CoreId) (k : Machine.Core) : (s.setCore c k).ll = s.ll := rfl
@[simp] theorem State.setCore_out (s : State) (c : CoreId) (k : Machine.Core) : (s.setCore c k).out = s.out := rfl
@[simp] theorem State.setCore_pending (s : State) (c : CoreId) (k : Machine.Core) : (s.setCore c k).pending = s.pending := rfl

@[simp] theorem State.setCache_time (s : State) (c : Nat) (k : CrewCache) : (s.setCache c k).time = s.time := rfl
@[simp] theorem State.setCache_regs (s : State) (c : Nat) (k : CrewCache) : (s.setCache c k).regs = s.regs := rfl
@[simp] theorem State.setCache_mem (s : State) (c : Nat) (k : CrewCache) : (s.setCache c k).mem = s.mem := rfl
@[simp] theorem State.setCache_flash (s : State) (c : Nat) (k : CrewCache) : (s.setCache c k).flash = s.flash := rfl
@[simp] theorem State.setCache_eccOne (s : State) (c : Nat) (k : CrewCache) : (s.setCache c k).eccOne = s.eccOne := rfl
@[simp] theorem State.setCache_eccTwo (s : State) (c : Nat) (k : CrewCache) : (s.setCache c k).eccTwo = s.eccTwo := rfl
@[simp] theorem State.setCache_cores (s : State) (c : Nat) (k : CrewCache) : (s.setCache c k).cores = s.cores := rfl
@[simp] theorem State.setCache_clock (s : State) (c : Nat) (k : CrewCache) : (s.setCache c k).clock = s.clock := rfl
@[simp] theorem State.setCache_sched (s : State) (c : Nat) (k : CrewCache) : (s.setCache c k).sched = s.sched := rfl
@[simp] theorem State.setCache_ctlRound (s : State) (c : Nat) (k : CrewCache) : (s.setCache c k).ctlRound = s.ctlRound := rfl
@[simp] theorem State.setCache_meshHold (s : State) (c : Nat) (k : CrewCache) : (s.setCache c k).meshHold = s.meshHold := rfl
@[simp] theorem State.setCache_ops (s : State) (c : Nat) (k : CrewCache) : (s.setCache c k).ops = s.ops := rfl
@[simp] theorem State.setCache_outReads (s : State) (c : Nat) (k : CrewCache) : (s.setCache c k).outReads = s.outReads := rfl
@[simp] theorem State.setCache_meshWait (s : State) (c : Nat) (k : CrewCache) : (s.setCache c k).meshWait = s.meshWait := rfl
@[simp] theorem State.setCache_ctl (s : State) (c : Nat) (k : CrewCache) : (s.setCache c k).ctl = s.ctl := rfl
@[simp] theorem State.setCache_banks (s : State) (c : Nat) (k : CrewCache) : (s.setCache c k).banks = s.banks := rfl
@[simp] theorem State.setCache_early (s : State) (c : Nat) (k : CrewCache) : (s.setCache c k).early = s.early := rfl
@[simp] theorem State.setCache_snaps (s : State) (c : Nat) (k : CrewCache) : (s.setCache c k).snaps = s.snaps := rfl
@[simp] theorem State.setCache_hcasRes (s : State) (c : Nat) (k : CrewCache) : (s.setCache c k).hcasRes = s.hcasRes := rfl
@[simp] theorem State.setCache_lastRead (s : State) (c : Nat) (k : CrewCache) : (s.setCache c k).lastRead = s.lastRead := rfl
@[simp] theorem State.setCache_freeCtr (s : State) (c : Nat) (k : CrewCache) : (s.setCache c k).freeCtr = s.freeCtr := rfl
@[simp] theorem State.setCache_vcOn (s : State) (c : Nat) (k : CrewCache) : (s.setCache c k).vcOn = s.vcOn := rfl
@[simp] theorem State.setCache_inRst (s : State) (c : Nat) (k : CrewCache) : (s.setCache c k).inRst = s.inRst := rfl
@[simp] theorem State.setCache_storeOn (s : State) (c : Nat) (k : CrewCache) : (s.setCache c k).storeOn = s.storeOn := rfl
@[simp] theorem State.setCache_vmeshOn (s : State) (c : Nat) (k : CrewCache) : (s.setCache c k).vmeshOn = s.vmeshOn := rfl
@[simp] theorem State.setCache_vgwOn (s : State) (c : Nat) (k : CrewCache) : (s.setCache c k).vgwOn = s.vgwOn := rfl
@[simp] theorem State.setCache_vioOn (s : State) (c : Nat) (k : CrewCache) : (s.setCache c k).vioOn = s.vioOn := rfl
@[simp] theorem State.setCache_routers (s : State) (c : Nat) (k : CrewCache) : (s.setCache c k).routers = s.routers := rfl
@[simp] theorem State.setCache_exits (s : State) (c : Nat) (k : CrewCache) : (s.setCache c k).exits = s.exits := rfl
@[simp] theorem State.setCache_outWrites (s : State) (c : Nat) (k : CrewCache) : (s.setCache c k).outWrites = s.outWrites := rfl
@[simp] theorem State.setCache_holding (s : State) (c : Nat) (k : CrewCache) : (s.setCache c k).holding = s.holding := rfl
@[simp] theorem State.setCache_noDispatch (s : State) (c : Nat) (k : CrewCache) : (s.setCache c k).noDispatch = s.noDispatch := rfl
@[simp] theorem State.setCache_seatsZeroed (s : State) (c : Nat) (k : CrewCache) : (s.setCache c k).seatsZeroed = s.seatsZeroed := rfl
@[simp] theorem State.setCache_storesZeroed (s : State) (c : Nat) (k : CrewCache) : (s.setCache c k).storesZeroed = s.storesZeroed := rfl
@[simp] theorem State.setCache_ports (s : State) (c : Nat) (k : CrewCache) : (s.setCache c k).ports = s.ports := rfl
@[simp] theorem State.setCache_stroke (s : State) (c : Nat) (k : CrewCache) : (s.setCache c k).stroke = s.stroke := rfl
@[simp] theorem State.setCache_ini (s : State) (c : Nat) (k : CrewCache) : (s.setCache c k).ini = s.ini := rfl
@[simp] theorem State.setCache_rxc (s : State) (c : Nat) (k : CrewCache) : (s.setCache c k).rxc = s.rxc := rfl
@[simp] theorem State.setCache_limits (s : State) (c : Nat) (k : CrewCache) : (s.setCache c k).limits = s.limits := rfl
@[simp] theorem State.setCache_ownIn (s : State) (c : Nat) (k : CrewCache) : (s.setCache c k).ownIn = s.ownIn := rfl
@[simp] theorem State.setCache_dma (s : State) (c : Nat) (k : CrewCache) : (s.setCache c k).dma = s.dma := rfl
@[simp] theorem State.setCache_pwr (s : State) (c : Nat) (k : CrewCache) : (s.setCache c k).pwr = s.pwr := rfl
@[simp] theorem State.setCache_killAt (s : State) (c : Nat) (k : CrewCache) : (s.setCache c k).killAt = s.killAt := rfl
@[simp] theorem State.setCache_zeroPass (s : State) (c : Nat) (k : CrewCache) : (s.setCache c k).zeroPass = s.zeroPass := rfl
@[simp] theorem State.setCache_fns (s : State) (c : Nat) (k : CrewCache) : (s.setCache c k).fns = s.fns := rfl
@[simp] theorem State.setCache_hdma (s : State) (c : Nat) (k : CrewCache) : (s.setCache c k).hdma = s.hdma := rfl
@[simp] theorem State.setCache_vfRegs (s : State) (c : Nat) (k : CrewCache) : (s.setCache c k).vfRegs = s.vfRegs := rfl
@[simp] theorem State.setCache_vfErr (s : State) (c : Nat) (k : CrewCache) : (s.setCache c k).vfErr = s.vfErr := rfl
@[simp] theorem State.setCache_perst (s : State) (c : Nat) (k : CrewCache) : (s.setCache c k).perst = s.perst := rfl
@[simp] theorem State.setCache_link (s : State) (c : Nat) (k : CrewCache) : (s.setCache c k).link = s.link := rfl
@[simp] theorem State.setCache_aer (s : State) (c : Nat) (k : CrewCache) : (s.setCache c k).aer = s.aer := rfl
@[simp] theorem State.setCache_fltSeen (s : State) (c : Nat) (k : CrewCache) : (s.setCache c k).fltSeen = s.fltSeen := rfl
@[simp] theorem State.setCache_warm (s : State) (c : Nat) (k : CrewCache) : (s.setCache c k).warm = s.warm := rfl
@[simp] theorem State.setCache_crewRst (s : State) (c : Nat) (k : CrewCache) : (s.setCache c k).crewRst = s.crewRst := rfl
@[simp] theorem State.setCache_bh (s : State) (c : Nat) (k : CrewCache) : (s.setCache c k).bh = s.bh := rfl
@[simp] theorem State.setCache_ll (s : State) (c : Nat) (k : CrewCache) : (s.setCache c k).ll = s.ll := rfl
@[simp] theorem State.setCache_out (s : State) (c : Nat) (k : CrewCache) : (s.setCache c k).out = s.out := rfl
@[simp] theorem State.setCache_pending (s : State) (c : Nat) (k : CrewCache) : (s.setCache c k).pending = s.pending := rfl

@[simp] theorem State.setSched_time (s : State) (c : Nat) (k : Sched) : (s.setSched c k).time = s.time := rfl
@[simp] theorem State.setSched_regs (s : State) (c : Nat) (k : Sched) : (s.setSched c k).regs = s.regs := rfl
@[simp] theorem State.setSched_mem (s : State) (c : Nat) (k : Sched) : (s.setSched c k).mem = s.mem := rfl
@[simp] theorem State.setSched_flash (s : State) (c : Nat) (k : Sched) : (s.setSched c k).flash = s.flash := rfl
@[simp] theorem State.setSched_eccOne (s : State) (c : Nat) (k : Sched) : (s.setSched c k).eccOne = s.eccOne := rfl
@[simp] theorem State.setSched_eccTwo (s : State) (c : Nat) (k : Sched) : (s.setSched c k).eccTwo = s.eccTwo := rfl
@[simp] theorem State.setSched_cores (s : State) (c : Nat) (k : Sched) : (s.setSched c k).cores = s.cores := rfl
@[simp] theorem State.setSched_clock (s : State) (c : Nat) (k : Sched) : (s.setSched c k).clock = s.clock := rfl
@[simp] theorem State.setSched_cc (s : State) (c : Nat) (k : Sched) : (s.setSched c k).cc = s.cc := rfl
@[simp] theorem State.setSched_ctlRound (s : State) (c : Nat) (k : Sched) : (s.setSched c k).ctlRound = s.ctlRound := rfl
@[simp] theorem State.setSched_meshHold (s : State) (c : Nat) (k : Sched) : (s.setSched c k).meshHold = s.meshHold := rfl
@[simp] theorem State.setSched_ops (s : State) (c : Nat) (k : Sched) : (s.setSched c k).ops = s.ops := rfl
@[simp] theorem State.setSched_outReads (s : State) (c : Nat) (k : Sched) : (s.setSched c k).outReads = s.outReads := rfl
@[simp] theorem State.setSched_meshWait (s : State) (c : Nat) (k : Sched) : (s.setSched c k).meshWait = s.meshWait := rfl
@[simp] theorem State.setSched_ctl (s : State) (c : Nat) (k : Sched) : (s.setSched c k).ctl = s.ctl := rfl
@[simp] theorem State.setSched_banks (s : State) (c : Nat) (k : Sched) : (s.setSched c k).banks = s.banks := rfl
@[simp] theorem State.setSched_early (s : State) (c : Nat) (k : Sched) : (s.setSched c k).early = s.early := rfl
@[simp] theorem State.setSched_snaps (s : State) (c : Nat) (k : Sched) : (s.setSched c k).snaps = s.snaps := rfl
@[simp] theorem State.setSched_hcasRes (s : State) (c : Nat) (k : Sched) : (s.setSched c k).hcasRes = s.hcasRes := rfl
@[simp] theorem State.setSched_lastRead (s : State) (c : Nat) (k : Sched) : (s.setSched c k).lastRead = s.lastRead := rfl
@[simp] theorem State.setSched_freeCtr (s : State) (c : Nat) (k : Sched) : (s.setSched c k).freeCtr = s.freeCtr := rfl
@[simp] theorem State.setSched_vcOn (s : State) (c : Nat) (k : Sched) : (s.setSched c k).vcOn = s.vcOn := rfl
@[simp] theorem State.setSched_inRst (s : State) (c : Nat) (k : Sched) : (s.setSched c k).inRst = s.inRst := rfl
@[simp] theorem State.setSched_storeOn (s : State) (c : Nat) (k : Sched) : (s.setSched c k).storeOn = s.storeOn := rfl
@[simp] theorem State.setSched_vmeshOn (s : State) (c : Nat) (k : Sched) : (s.setSched c k).vmeshOn = s.vmeshOn := rfl
@[simp] theorem State.setSched_vgwOn (s : State) (c : Nat) (k : Sched) : (s.setSched c k).vgwOn = s.vgwOn := rfl
@[simp] theorem State.setSched_vioOn (s : State) (c : Nat) (k : Sched) : (s.setSched c k).vioOn = s.vioOn := rfl
@[simp] theorem State.setSched_routers (s : State) (c : Nat) (k : Sched) : (s.setSched c k).routers = s.routers := rfl
@[simp] theorem State.setSched_exits (s : State) (c : Nat) (k : Sched) : (s.setSched c k).exits = s.exits := rfl
@[simp] theorem State.setSched_outWrites (s : State) (c : Nat) (k : Sched) : (s.setSched c k).outWrites = s.outWrites := rfl
@[simp] theorem State.setSched_holding (s : State) (c : Nat) (k : Sched) : (s.setSched c k).holding = s.holding := rfl
@[simp] theorem State.setSched_noDispatch (s : State) (c : Nat) (k : Sched) : (s.setSched c k).noDispatch = s.noDispatch := rfl
@[simp] theorem State.setSched_seatsZeroed (s : State) (c : Nat) (k : Sched) : (s.setSched c k).seatsZeroed = s.seatsZeroed := rfl
@[simp] theorem State.setSched_storesZeroed (s : State) (c : Nat) (k : Sched) : (s.setSched c k).storesZeroed = s.storesZeroed := rfl
@[simp] theorem State.setSched_ports (s : State) (c : Nat) (k : Sched) : (s.setSched c k).ports = s.ports := rfl
@[simp] theorem State.setSched_stroke (s : State) (c : Nat) (k : Sched) : (s.setSched c k).stroke = s.stroke := rfl
@[simp] theorem State.setSched_ini (s : State) (c : Nat) (k : Sched) : (s.setSched c k).ini = s.ini := rfl
@[simp] theorem State.setSched_rxc (s : State) (c : Nat) (k : Sched) : (s.setSched c k).rxc = s.rxc := rfl
@[simp] theorem State.setSched_limits (s : State) (c : Nat) (k : Sched) : (s.setSched c k).limits = s.limits := rfl
@[simp] theorem State.setSched_ownIn (s : State) (c : Nat) (k : Sched) : (s.setSched c k).ownIn = s.ownIn := rfl
@[simp] theorem State.setSched_dma (s : State) (c : Nat) (k : Sched) : (s.setSched c k).dma = s.dma := rfl
@[simp] theorem State.setSched_pwr (s : State) (c : Nat) (k : Sched) : (s.setSched c k).pwr = s.pwr := rfl
@[simp] theorem State.setSched_killAt (s : State) (c : Nat) (k : Sched) : (s.setSched c k).killAt = s.killAt := rfl
@[simp] theorem State.setSched_zeroPass (s : State) (c : Nat) (k : Sched) : (s.setSched c k).zeroPass = s.zeroPass := rfl
@[simp] theorem State.setSched_fns (s : State) (c : Nat) (k : Sched) : (s.setSched c k).fns = s.fns := rfl
@[simp] theorem State.setSched_hdma (s : State) (c : Nat) (k : Sched) : (s.setSched c k).hdma = s.hdma := rfl
@[simp] theorem State.setSched_vfRegs (s : State) (c : Nat) (k : Sched) : (s.setSched c k).vfRegs = s.vfRegs := rfl
@[simp] theorem State.setSched_vfErr (s : State) (c : Nat) (k : Sched) : (s.setSched c k).vfErr = s.vfErr := rfl
@[simp] theorem State.setSched_perst (s : State) (c : Nat) (k : Sched) : (s.setSched c k).perst = s.perst := rfl
@[simp] theorem State.setSched_link (s : State) (c : Nat) (k : Sched) : (s.setSched c k).link = s.link := rfl
@[simp] theorem State.setSched_aer (s : State) (c : Nat) (k : Sched) : (s.setSched c k).aer = s.aer := rfl
@[simp] theorem State.setSched_fltSeen (s : State) (c : Nat) (k : Sched) : (s.setSched c k).fltSeen = s.fltSeen := rfl
@[simp] theorem State.setSched_warm (s : State) (c : Nat) (k : Sched) : (s.setSched c k).warm = s.warm := rfl
@[simp] theorem State.setSched_crewRst (s : State) (c : Nat) (k : Sched) : (s.setSched c k).crewRst = s.crewRst := rfl
@[simp] theorem State.setSched_bh (s : State) (c : Nat) (k : Sched) : (s.setSched c k).bh = s.bh := rfl
@[simp] theorem State.setSched_ll (s : State) (c : Nat) (k : Sched) : (s.setSched c k).ll = s.ll := rfl
@[simp] theorem State.setSched_out (s : State) (c : Nat) (k : Sched) : (s.setSched c k).out = s.out := rfl
@[simp] theorem State.setSched_pending (s : State) (c : Nat) (k : Sched) : (s.setSched c k).pending = s.pending := rfl

@[simp] theorem State.setPort_time (s : State) (p : Nat) (x : Port) : (s.setPort p x).time = s.time := rfl
@[simp] theorem State.setPort_regs (s : State) (p : Nat) (x : Port) : (s.setPort p x).regs = s.regs := rfl
@[simp] theorem State.setPort_mem (s : State) (p : Nat) (x : Port) : (s.setPort p x).mem = s.mem := rfl
@[simp] theorem State.setPort_flash (s : State) (p : Nat) (x : Port) : (s.setPort p x).flash = s.flash := rfl
@[simp] theorem State.setPort_eccOne (s : State) (p : Nat) (x : Port) : (s.setPort p x).eccOne = s.eccOne := rfl
@[simp] theorem State.setPort_eccTwo (s : State) (p : Nat) (x : Port) : (s.setPort p x).eccTwo = s.eccTwo := rfl
@[simp] theorem State.setPort_cores (s : State) (p : Nat) (x : Port) : (s.setPort p x).cores = s.cores := rfl
@[simp] theorem State.setPort_clock (s : State) (p : Nat) (x : Port) : (s.setPort p x).clock = s.clock := rfl
@[simp] theorem State.setPort_cc (s : State) (p : Nat) (x : Port) : (s.setPort p x).cc = s.cc := rfl
@[simp] theorem State.setPort_sched (s : State) (p : Nat) (x : Port) : (s.setPort p x).sched = s.sched := rfl
@[simp] theorem State.setPort_ctlRound (s : State) (p : Nat) (x : Port) : (s.setPort p x).ctlRound = s.ctlRound := rfl
@[simp] theorem State.setPort_meshHold (s : State) (p : Nat) (x : Port) : (s.setPort p x).meshHold = s.meshHold := rfl
@[simp] theorem State.setPort_ops (s : State) (p : Nat) (x : Port) : (s.setPort p x).ops = s.ops := rfl
@[simp] theorem State.setPort_outReads (s : State) (p : Nat) (x : Port) : (s.setPort p x).outReads = s.outReads := rfl
@[simp] theorem State.setPort_meshWait (s : State) (p : Nat) (x : Port) : (s.setPort p x).meshWait = s.meshWait := rfl
@[simp] theorem State.setPort_ctl (s : State) (p : Nat) (x : Port) : (s.setPort p x).ctl = s.ctl := rfl
@[simp] theorem State.setPort_banks (s : State) (p : Nat) (x : Port) : (s.setPort p x).banks = s.banks := rfl
@[simp] theorem State.setPort_early (s : State) (p : Nat) (x : Port) : (s.setPort p x).early = s.early := rfl
@[simp] theorem State.setPort_snaps (s : State) (p : Nat) (x : Port) : (s.setPort p x).snaps = s.snaps := rfl
@[simp] theorem State.setPort_hcasRes (s : State) (p : Nat) (x : Port) : (s.setPort p x).hcasRes = s.hcasRes := rfl
@[simp] theorem State.setPort_lastRead (s : State) (p : Nat) (x : Port) : (s.setPort p x).lastRead = s.lastRead := rfl
@[simp] theorem State.setPort_freeCtr (s : State) (p : Nat) (x : Port) : (s.setPort p x).freeCtr = s.freeCtr := rfl
@[simp] theorem State.setPort_vcOn (s : State) (p : Nat) (x : Port) : (s.setPort p x).vcOn = s.vcOn := rfl
@[simp] theorem State.setPort_inRst (s : State) (p : Nat) (x : Port) : (s.setPort p x).inRst = s.inRst := rfl
@[simp] theorem State.setPort_storeOn (s : State) (p : Nat) (x : Port) : (s.setPort p x).storeOn = s.storeOn := rfl
@[simp] theorem State.setPort_vmeshOn (s : State) (p : Nat) (x : Port) : (s.setPort p x).vmeshOn = s.vmeshOn := rfl
@[simp] theorem State.setPort_vgwOn (s : State) (p : Nat) (x : Port) : (s.setPort p x).vgwOn = s.vgwOn := rfl
@[simp] theorem State.setPort_vioOn (s : State) (p : Nat) (x : Port) : (s.setPort p x).vioOn = s.vioOn := rfl
@[simp] theorem State.setPort_routers (s : State) (p : Nat) (x : Port) : (s.setPort p x).routers = s.routers := rfl
@[simp] theorem State.setPort_exits (s : State) (p : Nat) (x : Port) : (s.setPort p x).exits = s.exits := rfl
@[simp] theorem State.setPort_outWrites (s : State) (p : Nat) (x : Port) : (s.setPort p x).outWrites = s.outWrites := rfl
@[simp] theorem State.setPort_holding (s : State) (p : Nat) (x : Port) : (s.setPort p x).holding = s.holding := rfl
@[simp] theorem State.setPort_noDispatch (s : State) (p : Nat) (x : Port) : (s.setPort p x).noDispatch = s.noDispatch := rfl
@[simp] theorem State.setPort_seatsZeroed (s : State) (p : Nat) (x : Port) : (s.setPort p x).seatsZeroed = s.seatsZeroed := rfl
@[simp] theorem State.setPort_storesZeroed (s : State) (p : Nat) (x : Port) : (s.setPort p x).storesZeroed = s.storesZeroed := rfl
@[simp] theorem State.setPort_stroke (s : State) (p : Nat) (x : Port) : (s.setPort p x).stroke = s.stroke := rfl
@[simp] theorem State.setPort_ini (s : State) (p : Nat) (x : Port) : (s.setPort p x).ini = s.ini := rfl
@[simp] theorem State.setPort_rxc (s : State) (p : Nat) (x : Port) : (s.setPort p x).rxc = s.rxc := rfl
@[simp] theorem State.setPort_limits (s : State) (p : Nat) (x : Port) : (s.setPort p x).limits = s.limits := rfl
@[simp] theorem State.setPort_ownIn (s : State) (p : Nat) (x : Port) : (s.setPort p x).ownIn = s.ownIn := rfl
@[simp] theorem State.setPort_dma (s : State) (p : Nat) (x : Port) : (s.setPort p x).dma = s.dma := rfl
@[simp] theorem State.setPort_pwr (s : State) (p : Nat) (x : Port) : (s.setPort p x).pwr = s.pwr := rfl
@[simp] theorem State.setPort_killAt (s : State) (p : Nat) (x : Port) : (s.setPort p x).killAt = s.killAt := rfl
@[simp] theorem State.setPort_zeroPass (s : State) (p : Nat) (x : Port) : (s.setPort p x).zeroPass = s.zeroPass := rfl
@[simp] theorem State.setPort_fns (s : State) (p : Nat) (x : Port) : (s.setPort p x).fns = s.fns := rfl
@[simp] theorem State.setPort_hdma (s : State) (p : Nat) (x : Port) : (s.setPort p x).hdma = s.hdma := rfl
@[simp] theorem State.setPort_vfRegs (s : State) (p : Nat) (x : Port) : (s.setPort p x).vfRegs = s.vfRegs := rfl
@[simp] theorem State.setPort_vfErr (s : State) (p : Nat) (x : Port) : (s.setPort p x).vfErr = s.vfErr := rfl
@[simp] theorem State.setPort_perst (s : State) (p : Nat) (x : Port) : (s.setPort p x).perst = s.perst := rfl
@[simp] theorem State.setPort_link (s : State) (p : Nat) (x : Port) : (s.setPort p x).link = s.link := rfl
@[simp] theorem State.setPort_aer (s : State) (p : Nat) (x : Port) : (s.setPort p x).aer = s.aer := rfl
@[simp] theorem State.setPort_fltSeen (s : State) (p : Nat) (x : Port) : (s.setPort p x).fltSeen = s.fltSeen := rfl
@[simp] theorem State.setPort_warm (s : State) (p : Nat) (x : Port) : (s.setPort p x).warm = s.warm := rfl
@[simp] theorem State.setPort_crewRst (s : State) (p : Nat) (x : Port) : (s.setPort p x).crewRst = s.crewRst := rfl
@[simp] theorem State.setPort_bh (s : State) (p : Nat) (x : Port) : (s.setPort p x).bh = s.bh := rfl
@[simp] theorem State.setPort_ll (s : State) (p : Nat) (x : Port) : (s.setPort p x).ll = s.ll := rfl
@[simp] theorem State.setPort_out (s : State) (p : Nat) (x : Port) : (s.setPort p x).out = s.out := rfl
@[simp] theorem State.setPort_pending (s : State) (p : Nat) (x : Port) : (s.setPort p x).pending = s.pending := rfl

@[simp] theorem State.setEng_time (s : State) (c n : Nat) (d : Dma) : (s.setEng c n d).time = s.time := rfl
@[simp] theorem State.setEng_regs (s : State) (c n : Nat) (d : Dma) : (s.setEng c n d).regs = s.regs := rfl
@[simp] theorem State.setEng_mem (s : State) (c n : Nat) (d : Dma) : (s.setEng c n d).mem = s.mem := rfl
@[simp] theorem State.setEng_flash (s : State) (c n : Nat) (d : Dma) : (s.setEng c n d).flash = s.flash := rfl
@[simp] theorem State.setEng_eccOne (s : State) (c n : Nat) (d : Dma) : (s.setEng c n d).eccOne = s.eccOne := rfl
@[simp] theorem State.setEng_eccTwo (s : State) (c n : Nat) (d : Dma) : (s.setEng c n d).eccTwo = s.eccTwo := rfl
@[simp] theorem State.setEng_cores (s : State) (c n : Nat) (d : Dma) : (s.setEng c n d).cores = s.cores := rfl
@[simp] theorem State.setEng_clock (s : State) (c n : Nat) (d : Dma) : (s.setEng c n d).clock = s.clock := rfl
@[simp] theorem State.setEng_cc (s : State) (c n : Nat) (d : Dma) : (s.setEng c n d).cc = s.cc := rfl
@[simp] theorem State.setEng_sched (s : State) (c n : Nat) (d : Dma) : (s.setEng c n d).sched = s.sched := rfl
@[simp] theorem State.setEng_ctlRound (s : State) (c n : Nat) (d : Dma) : (s.setEng c n d).ctlRound = s.ctlRound := rfl
@[simp] theorem State.setEng_meshHold (s : State) (c n : Nat) (d : Dma) : (s.setEng c n d).meshHold = s.meshHold := rfl
@[simp] theorem State.setEng_ops (s : State) (c n : Nat) (d : Dma) : (s.setEng c n d).ops = s.ops := rfl
@[simp] theorem State.setEng_outReads (s : State) (c n : Nat) (d : Dma) : (s.setEng c n d).outReads = s.outReads := rfl
@[simp] theorem State.setEng_meshWait (s : State) (c n : Nat) (d : Dma) : (s.setEng c n d).meshWait = s.meshWait := rfl
@[simp] theorem State.setEng_ctl (s : State) (c n : Nat) (d : Dma) : (s.setEng c n d).ctl = s.ctl := rfl
@[simp] theorem State.setEng_banks (s : State) (c n : Nat) (d : Dma) : (s.setEng c n d).banks = s.banks := rfl
@[simp] theorem State.setEng_early (s : State) (c n : Nat) (d : Dma) : (s.setEng c n d).early = s.early := rfl
@[simp] theorem State.setEng_snaps (s : State) (c n : Nat) (d : Dma) : (s.setEng c n d).snaps = s.snaps := rfl
@[simp] theorem State.setEng_hcasRes (s : State) (c n : Nat) (d : Dma) : (s.setEng c n d).hcasRes = s.hcasRes := rfl
@[simp] theorem State.setEng_lastRead (s : State) (c n : Nat) (d : Dma) : (s.setEng c n d).lastRead = s.lastRead := rfl
@[simp] theorem State.setEng_freeCtr (s : State) (c n : Nat) (d : Dma) : (s.setEng c n d).freeCtr = s.freeCtr := rfl
@[simp] theorem State.setEng_vcOn (s : State) (c n : Nat) (d : Dma) : (s.setEng c n d).vcOn = s.vcOn := rfl
@[simp] theorem State.setEng_inRst (s : State) (c n : Nat) (d : Dma) : (s.setEng c n d).inRst = s.inRst := rfl
@[simp] theorem State.setEng_storeOn (s : State) (c n : Nat) (d : Dma) : (s.setEng c n d).storeOn = s.storeOn := rfl
@[simp] theorem State.setEng_vmeshOn (s : State) (c n : Nat) (d : Dma) : (s.setEng c n d).vmeshOn = s.vmeshOn := rfl
@[simp] theorem State.setEng_vgwOn (s : State) (c n : Nat) (d : Dma) : (s.setEng c n d).vgwOn = s.vgwOn := rfl
@[simp] theorem State.setEng_vioOn (s : State) (c n : Nat) (d : Dma) : (s.setEng c n d).vioOn = s.vioOn := rfl
@[simp] theorem State.setEng_routers (s : State) (c n : Nat) (d : Dma) : (s.setEng c n d).routers = s.routers := rfl
@[simp] theorem State.setEng_exits (s : State) (c n : Nat) (d : Dma) : (s.setEng c n d).exits = s.exits := rfl
@[simp] theorem State.setEng_outWrites (s : State) (c n : Nat) (d : Dma) : (s.setEng c n d).outWrites = s.outWrites := rfl
@[simp] theorem State.setEng_holding (s : State) (c n : Nat) (d : Dma) : (s.setEng c n d).holding = s.holding := rfl
@[simp] theorem State.setEng_noDispatch (s : State) (c n : Nat) (d : Dma) : (s.setEng c n d).noDispatch = s.noDispatch := rfl
@[simp] theorem State.setEng_seatsZeroed (s : State) (c n : Nat) (d : Dma) : (s.setEng c n d).seatsZeroed = s.seatsZeroed := rfl
@[simp] theorem State.setEng_storesZeroed (s : State) (c n : Nat) (d : Dma) : (s.setEng c n d).storesZeroed = s.storesZeroed := rfl
@[simp] theorem State.setEng_ports (s : State) (c n : Nat) (d : Dma) : (s.setEng c n d).ports = s.ports := rfl
@[simp] theorem State.setEng_stroke (s : State) (c n : Nat) (d : Dma) : (s.setEng c n d).stroke = s.stroke := rfl
@[simp] theorem State.setEng_ini (s : State) (c n : Nat) (d : Dma) : (s.setEng c n d).ini = s.ini := rfl
@[simp] theorem State.setEng_rxc (s : State) (c n : Nat) (d : Dma) : (s.setEng c n d).rxc = s.rxc := rfl
@[simp] theorem State.setEng_limits (s : State) (c n : Nat) (d : Dma) : (s.setEng c n d).limits = s.limits := rfl
@[simp] theorem State.setEng_ownIn (s : State) (c n : Nat) (d : Dma) : (s.setEng c n d).ownIn = s.ownIn := rfl
@[simp] theorem State.setEng_pwr (s : State) (c n : Nat) (d : Dma) : (s.setEng c n d).pwr = s.pwr := rfl
@[simp] theorem State.setEng_killAt (s : State) (c n : Nat) (d : Dma) : (s.setEng c n d).killAt = s.killAt := rfl
@[simp] theorem State.setEng_zeroPass (s : State) (c n : Nat) (d : Dma) : (s.setEng c n d).zeroPass = s.zeroPass := rfl
@[simp] theorem State.setEng_fns (s : State) (c n : Nat) (d : Dma) : (s.setEng c n d).fns = s.fns := rfl
@[simp] theorem State.setEng_hdma (s : State) (c n : Nat) (d : Dma) : (s.setEng c n d).hdma = s.hdma := rfl
@[simp] theorem State.setEng_vfRegs (s : State) (c n : Nat) (d : Dma) : (s.setEng c n d).vfRegs = s.vfRegs := rfl
@[simp] theorem State.setEng_vfErr (s : State) (c n : Nat) (d : Dma) : (s.setEng c n d).vfErr = s.vfErr := rfl
@[simp] theorem State.setEng_perst (s : State) (c n : Nat) (d : Dma) : (s.setEng c n d).perst = s.perst := rfl
@[simp] theorem State.setEng_link (s : State) (c n : Nat) (d : Dma) : (s.setEng c n d).link = s.link := rfl
@[simp] theorem State.setEng_aer (s : State) (c n : Nat) (d : Dma) : (s.setEng c n d).aer = s.aer := rfl
@[simp] theorem State.setEng_fltSeen (s : State) (c n : Nat) (d : Dma) : (s.setEng c n d).fltSeen = s.fltSeen := rfl
@[simp] theorem State.setEng_warm (s : State) (c n : Nat) (d : Dma) : (s.setEng c n d).warm = s.warm := rfl
@[simp] theorem State.setEng_crewRst (s : State) (c n : Nat) (d : Dma) : (s.setEng c n d).crewRst = s.crewRst := rfl
@[simp] theorem State.setEng_bh (s : State) (c n : Nat) (d : Dma) : (s.setEng c n d).bh = s.bh := rfl
@[simp] theorem State.setEng_ll (s : State) (c n : Nat) (d : Dma) : (s.setEng c n d).ll = s.ll := rfl
@[simp] theorem State.setEng_out (s : State) (c n : Nat) (d : Dma) : (s.setEng c n d).out = s.out := rfl
@[simp] theorem State.setEng_pending (s : State) (c n : Nat) (d : Dma) : (s.setEng c n d).pending = s.pending := rfl

@[simp] theorem State.setIni_time (s : State) (k : Nat) (x : IniCtx) : (s.setIni k x).time = s.time := rfl
@[simp] theorem State.setIni_regs (s : State) (k : Nat) (x : IniCtx) : (s.setIni k x).regs = s.regs := rfl
@[simp] theorem State.setIni_mem (s : State) (k : Nat) (x : IniCtx) : (s.setIni k x).mem = s.mem := rfl
@[simp] theorem State.setIni_flash (s : State) (k : Nat) (x : IniCtx) : (s.setIni k x).flash = s.flash := rfl
@[simp] theorem State.setIni_eccOne (s : State) (k : Nat) (x : IniCtx) : (s.setIni k x).eccOne = s.eccOne := rfl
@[simp] theorem State.setIni_eccTwo (s : State) (k : Nat) (x : IniCtx) : (s.setIni k x).eccTwo = s.eccTwo := rfl
@[simp] theorem State.setIni_cores (s : State) (k : Nat) (x : IniCtx) : (s.setIni k x).cores = s.cores := rfl
@[simp] theorem State.setIni_clock (s : State) (k : Nat) (x : IniCtx) : (s.setIni k x).clock = s.clock := rfl
@[simp] theorem State.setIni_cc (s : State) (k : Nat) (x : IniCtx) : (s.setIni k x).cc = s.cc := rfl
@[simp] theorem State.setIni_sched (s : State) (k : Nat) (x : IniCtx) : (s.setIni k x).sched = s.sched := rfl
@[simp] theorem State.setIni_ctlRound (s : State) (k : Nat) (x : IniCtx) : (s.setIni k x).ctlRound = s.ctlRound := rfl
@[simp] theorem State.setIni_meshHold (s : State) (k : Nat) (x : IniCtx) : (s.setIni k x).meshHold = s.meshHold := rfl
@[simp] theorem State.setIni_ops (s : State) (k : Nat) (x : IniCtx) : (s.setIni k x).ops = s.ops := rfl
@[simp] theorem State.setIni_outReads (s : State) (k : Nat) (x : IniCtx) : (s.setIni k x).outReads = s.outReads := rfl
@[simp] theorem State.setIni_meshWait (s : State) (k : Nat) (x : IniCtx) : (s.setIni k x).meshWait = s.meshWait := rfl
@[simp] theorem State.setIni_ctl (s : State) (k : Nat) (x : IniCtx) : (s.setIni k x).ctl = s.ctl := rfl
@[simp] theorem State.setIni_banks (s : State) (k : Nat) (x : IniCtx) : (s.setIni k x).banks = s.banks := rfl
@[simp] theorem State.setIni_early (s : State) (k : Nat) (x : IniCtx) : (s.setIni k x).early = s.early := rfl
@[simp] theorem State.setIni_snaps (s : State) (k : Nat) (x : IniCtx) : (s.setIni k x).snaps = s.snaps := rfl
@[simp] theorem State.setIni_hcasRes (s : State) (k : Nat) (x : IniCtx) : (s.setIni k x).hcasRes = s.hcasRes := rfl
@[simp] theorem State.setIni_lastRead (s : State) (k : Nat) (x : IniCtx) : (s.setIni k x).lastRead = s.lastRead := rfl
@[simp] theorem State.setIni_freeCtr (s : State) (k : Nat) (x : IniCtx) : (s.setIni k x).freeCtr = s.freeCtr := rfl
@[simp] theorem State.setIni_vcOn (s : State) (k : Nat) (x : IniCtx) : (s.setIni k x).vcOn = s.vcOn := rfl
@[simp] theorem State.setIni_inRst (s : State) (k : Nat) (x : IniCtx) : (s.setIni k x).inRst = s.inRst := rfl
@[simp] theorem State.setIni_storeOn (s : State) (k : Nat) (x : IniCtx) : (s.setIni k x).storeOn = s.storeOn := rfl
@[simp] theorem State.setIni_vmeshOn (s : State) (k : Nat) (x : IniCtx) : (s.setIni k x).vmeshOn = s.vmeshOn := rfl
@[simp] theorem State.setIni_vgwOn (s : State) (k : Nat) (x : IniCtx) : (s.setIni k x).vgwOn = s.vgwOn := rfl
@[simp] theorem State.setIni_vioOn (s : State) (k : Nat) (x : IniCtx) : (s.setIni k x).vioOn = s.vioOn := rfl
@[simp] theorem State.setIni_routers (s : State) (k : Nat) (x : IniCtx) : (s.setIni k x).routers = s.routers := rfl
@[simp] theorem State.setIni_exits (s : State) (k : Nat) (x : IniCtx) : (s.setIni k x).exits = s.exits := rfl
@[simp] theorem State.setIni_outWrites (s : State) (k : Nat) (x : IniCtx) : (s.setIni k x).outWrites = s.outWrites := rfl
@[simp] theorem State.setIni_holding (s : State) (k : Nat) (x : IniCtx) : (s.setIni k x).holding = s.holding := rfl
@[simp] theorem State.setIni_noDispatch (s : State) (k : Nat) (x : IniCtx) : (s.setIni k x).noDispatch = s.noDispatch := rfl
@[simp] theorem State.setIni_seatsZeroed (s : State) (k : Nat) (x : IniCtx) : (s.setIni k x).seatsZeroed = s.seatsZeroed := rfl
@[simp] theorem State.setIni_storesZeroed (s : State) (k : Nat) (x : IniCtx) : (s.setIni k x).storesZeroed = s.storesZeroed := rfl
@[simp] theorem State.setIni_ports (s : State) (k : Nat) (x : IniCtx) : (s.setIni k x).ports = s.ports := rfl
@[simp] theorem State.setIni_stroke (s : State) (k : Nat) (x : IniCtx) : (s.setIni k x).stroke = s.stroke := rfl
@[simp] theorem State.setIni_rxc (s : State) (k : Nat) (x : IniCtx) : (s.setIni k x).rxc = s.rxc := rfl
@[simp] theorem State.setIni_limits (s : State) (k : Nat) (x : IniCtx) : (s.setIni k x).limits = s.limits := rfl
@[simp] theorem State.setIni_ownIn (s : State) (k : Nat) (x : IniCtx) : (s.setIni k x).ownIn = s.ownIn := rfl
@[simp] theorem State.setIni_dma (s : State) (k : Nat) (x : IniCtx) : (s.setIni k x).dma = s.dma := rfl
@[simp] theorem State.setIni_pwr (s : State) (k : Nat) (x : IniCtx) : (s.setIni k x).pwr = s.pwr := rfl
@[simp] theorem State.setIni_killAt (s : State) (k : Nat) (x : IniCtx) : (s.setIni k x).killAt = s.killAt := rfl
@[simp] theorem State.setIni_zeroPass (s : State) (k : Nat) (x : IniCtx) : (s.setIni k x).zeroPass = s.zeroPass := rfl
@[simp] theorem State.setIni_fns (s : State) (k : Nat) (x : IniCtx) : (s.setIni k x).fns = s.fns := rfl
@[simp] theorem State.setIni_hdma (s : State) (k : Nat) (x : IniCtx) : (s.setIni k x).hdma = s.hdma := rfl
@[simp] theorem State.setIni_vfRegs (s : State) (k : Nat) (x : IniCtx) : (s.setIni k x).vfRegs = s.vfRegs := rfl
@[simp] theorem State.setIni_vfErr (s : State) (k : Nat) (x : IniCtx) : (s.setIni k x).vfErr = s.vfErr := rfl
@[simp] theorem State.setIni_perst (s : State) (k : Nat) (x : IniCtx) : (s.setIni k x).perst = s.perst := rfl
@[simp] theorem State.setIni_link (s : State) (k : Nat) (x : IniCtx) : (s.setIni k x).link = s.link := rfl
@[simp] theorem State.setIni_aer (s : State) (k : Nat) (x : IniCtx) : (s.setIni k x).aer = s.aer := rfl
@[simp] theorem State.setIni_fltSeen (s : State) (k : Nat) (x : IniCtx) : (s.setIni k x).fltSeen = s.fltSeen := rfl
@[simp] theorem State.setIni_warm (s : State) (k : Nat) (x : IniCtx) : (s.setIni k x).warm = s.warm := rfl
@[simp] theorem State.setIni_crewRst (s : State) (k : Nat) (x : IniCtx) : (s.setIni k x).crewRst = s.crewRst := rfl
@[simp] theorem State.setIni_bh (s : State) (k : Nat) (x : IniCtx) : (s.setIni k x).bh = s.bh := rfl
@[simp] theorem State.setIni_ll (s : State) (k : Nat) (x : IniCtx) : (s.setIni k x).ll = s.ll := rfl
@[simp] theorem State.setIni_out (s : State) (k : Nat) (x : IniCtx) : (s.setIni k x).out = s.out := rfl
@[simp] theorem State.setIni_pending (s : State) (k : Nat) (x : IniCtx) : (s.setIni k x).pending = s.pending := rfl

@[simp] theorem State.setRx_time (s : State) (k : Nat) (x : RxCtx) : (s.setRx k x).time = s.time := rfl
@[simp] theorem State.setRx_regs (s : State) (k : Nat) (x : RxCtx) : (s.setRx k x).regs = s.regs := rfl
@[simp] theorem State.setRx_mem (s : State) (k : Nat) (x : RxCtx) : (s.setRx k x).mem = s.mem := rfl
@[simp] theorem State.setRx_flash (s : State) (k : Nat) (x : RxCtx) : (s.setRx k x).flash = s.flash := rfl
@[simp] theorem State.setRx_eccOne (s : State) (k : Nat) (x : RxCtx) : (s.setRx k x).eccOne = s.eccOne := rfl
@[simp] theorem State.setRx_eccTwo (s : State) (k : Nat) (x : RxCtx) : (s.setRx k x).eccTwo = s.eccTwo := rfl
@[simp] theorem State.setRx_cores (s : State) (k : Nat) (x : RxCtx) : (s.setRx k x).cores = s.cores := rfl
@[simp] theorem State.setRx_clock (s : State) (k : Nat) (x : RxCtx) : (s.setRx k x).clock = s.clock := rfl
@[simp] theorem State.setRx_cc (s : State) (k : Nat) (x : RxCtx) : (s.setRx k x).cc = s.cc := rfl
@[simp] theorem State.setRx_sched (s : State) (k : Nat) (x : RxCtx) : (s.setRx k x).sched = s.sched := rfl
@[simp] theorem State.setRx_ctlRound (s : State) (k : Nat) (x : RxCtx) : (s.setRx k x).ctlRound = s.ctlRound := rfl
@[simp] theorem State.setRx_meshHold (s : State) (k : Nat) (x : RxCtx) : (s.setRx k x).meshHold = s.meshHold := rfl
@[simp] theorem State.setRx_ops (s : State) (k : Nat) (x : RxCtx) : (s.setRx k x).ops = s.ops := rfl
@[simp] theorem State.setRx_outReads (s : State) (k : Nat) (x : RxCtx) : (s.setRx k x).outReads = s.outReads := rfl
@[simp] theorem State.setRx_meshWait (s : State) (k : Nat) (x : RxCtx) : (s.setRx k x).meshWait = s.meshWait := rfl
@[simp] theorem State.setRx_ctl (s : State) (k : Nat) (x : RxCtx) : (s.setRx k x).ctl = s.ctl := rfl
@[simp] theorem State.setRx_banks (s : State) (k : Nat) (x : RxCtx) : (s.setRx k x).banks = s.banks := rfl
@[simp] theorem State.setRx_early (s : State) (k : Nat) (x : RxCtx) : (s.setRx k x).early = s.early := rfl
@[simp] theorem State.setRx_snaps (s : State) (k : Nat) (x : RxCtx) : (s.setRx k x).snaps = s.snaps := rfl
@[simp] theorem State.setRx_hcasRes (s : State) (k : Nat) (x : RxCtx) : (s.setRx k x).hcasRes = s.hcasRes := rfl
@[simp] theorem State.setRx_lastRead (s : State) (k : Nat) (x : RxCtx) : (s.setRx k x).lastRead = s.lastRead := rfl
@[simp] theorem State.setRx_freeCtr (s : State) (k : Nat) (x : RxCtx) : (s.setRx k x).freeCtr = s.freeCtr := rfl
@[simp] theorem State.setRx_vcOn (s : State) (k : Nat) (x : RxCtx) : (s.setRx k x).vcOn = s.vcOn := rfl
@[simp] theorem State.setRx_inRst (s : State) (k : Nat) (x : RxCtx) : (s.setRx k x).inRst = s.inRst := rfl
@[simp] theorem State.setRx_storeOn (s : State) (k : Nat) (x : RxCtx) : (s.setRx k x).storeOn = s.storeOn := rfl
@[simp] theorem State.setRx_vmeshOn (s : State) (k : Nat) (x : RxCtx) : (s.setRx k x).vmeshOn = s.vmeshOn := rfl
@[simp] theorem State.setRx_vgwOn (s : State) (k : Nat) (x : RxCtx) : (s.setRx k x).vgwOn = s.vgwOn := rfl
@[simp] theorem State.setRx_vioOn (s : State) (k : Nat) (x : RxCtx) : (s.setRx k x).vioOn = s.vioOn := rfl
@[simp] theorem State.setRx_routers (s : State) (k : Nat) (x : RxCtx) : (s.setRx k x).routers = s.routers := rfl
@[simp] theorem State.setRx_exits (s : State) (k : Nat) (x : RxCtx) : (s.setRx k x).exits = s.exits := rfl
@[simp] theorem State.setRx_outWrites (s : State) (k : Nat) (x : RxCtx) : (s.setRx k x).outWrites = s.outWrites := rfl
@[simp] theorem State.setRx_holding (s : State) (k : Nat) (x : RxCtx) : (s.setRx k x).holding = s.holding := rfl
@[simp] theorem State.setRx_noDispatch (s : State) (k : Nat) (x : RxCtx) : (s.setRx k x).noDispatch = s.noDispatch := rfl
@[simp] theorem State.setRx_seatsZeroed (s : State) (k : Nat) (x : RxCtx) : (s.setRx k x).seatsZeroed = s.seatsZeroed := rfl
@[simp] theorem State.setRx_storesZeroed (s : State) (k : Nat) (x : RxCtx) : (s.setRx k x).storesZeroed = s.storesZeroed := rfl
@[simp] theorem State.setRx_ports (s : State) (k : Nat) (x : RxCtx) : (s.setRx k x).ports = s.ports := rfl
@[simp] theorem State.setRx_stroke (s : State) (k : Nat) (x : RxCtx) : (s.setRx k x).stroke = s.stroke := rfl
@[simp] theorem State.setRx_ini (s : State) (k : Nat) (x : RxCtx) : (s.setRx k x).ini = s.ini := rfl
@[simp] theorem State.setRx_limits (s : State) (k : Nat) (x : RxCtx) : (s.setRx k x).limits = s.limits := rfl
@[simp] theorem State.setRx_ownIn (s : State) (k : Nat) (x : RxCtx) : (s.setRx k x).ownIn = s.ownIn := rfl
@[simp] theorem State.setRx_dma (s : State) (k : Nat) (x : RxCtx) : (s.setRx k x).dma = s.dma := rfl
@[simp] theorem State.setRx_pwr (s : State) (k : Nat) (x : RxCtx) : (s.setRx k x).pwr = s.pwr := rfl
@[simp] theorem State.setRx_killAt (s : State) (k : Nat) (x : RxCtx) : (s.setRx k x).killAt = s.killAt := rfl
@[simp] theorem State.setRx_zeroPass (s : State) (k : Nat) (x : RxCtx) : (s.setRx k x).zeroPass = s.zeroPass := rfl
@[simp] theorem State.setRx_fns (s : State) (k : Nat) (x : RxCtx) : (s.setRx k x).fns = s.fns := rfl
@[simp] theorem State.setRx_hdma (s : State) (k : Nat) (x : RxCtx) : (s.setRx k x).hdma = s.hdma := rfl
@[simp] theorem State.setRx_vfRegs (s : State) (k : Nat) (x : RxCtx) : (s.setRx k x).vfRegs = s.vfRegs := rfl
@[simp] theorem State.setRx_vfErr (s : State) (k : Nat) (x : RxCtx) : (s.setRx k x).vfErr = s.vfErr := rfl
@[simp] theorem State.setRx_perst (s : State) (k : Nat) (x : RxCtx) : (s.setRx k x).perst = s.perst := rfl
@[simp] theorem State.setRx_link (s : State) (k : Nat) (x : RxCtx) : (s.setRx k x).link = s.link := rfl
@[simp] theorem State.setRx_aer (s : State) (k : Nat) (x : RxCtx) : (s.setRx k x).aer = s.aer := rfl
@[simp] theorem State.setRx_fltSeen (s : State) (k : Nat) (x : RxCtx) : (s.setRx k x).fltSeen = s.fltSeen := rfl
@[simp] theorem State.setRx_warm (s : State) (k : Nat) (x : RxCtx) : (s.setRx k x).warm = s.warm := rfl
@[simp] theorem State.setRx_crewRst (s : State) (k : Nat) (x : RxCtx) : (s.setRx k x).crewRst = s.crewRst := rfl
@[simp] theorem State.setRx_bh (s : State) (k : Nat) (x : RxCtx) : (s.setRx k x).bh = s.bh := rfl
@[simp] theorem State.setRx_ll (s : State) (k : Nat) (x : RxCtx) : (s.setRx k x).ll = s.ll := rfl
@[simp] theorem State.setRx_out (s : State) (k : Nat) (x : RxCtx) : (s.setRx k x).out = s.out := rfl
@[simp] theorem State.setRx_pending (s : State) (k : Nat) (x : RxCtx) : (s.setRx k x).pending = s.pending := rfl

@[simp] theorem State.setLimiter_time (s : State) (d : Nat) (x : Limiter) : (s.setLimiter d x).time = s.time := rfl
@[simp] theorem State.setLimiter_regs (s : State) (d : Nat) (x : Limiter) : (s.setLimiter d x).regs = s.regs := rfl
@[simp] theorem State.setLimiter_mem (s : State) (d : Nat) (x : Limiter) : (s.setLimiter d x).mem = s.mem := rfl
@[simp] theorem State.setLimiter_flash (s : State) (d : Nat) (x : Limiter) : (s.setLimiter d x).flash = s.flash := rfl
@[simp] theorem State.setLimiter_eccOne (s : State) (d : Nat) (x : Limiter) : (s.setLimiter d x).eccOne = s.eccOne := rfl
@[simp] theorem State.setLimiter_eccTwo (s : State) (d : Nat) (x : Limiter) : (s.setLimiter d x).eccTwo = s.eccTwo := rfl
@[simp] theorem State.setLimiter_cores (s : State) (d : Nat) (x : Limiter) : (s.setLimiter d x).cores = s.cores := rfl
@[simp] theorem State.setLimiter_clock (s : State) (d : Nat) (x : Limiter) : (s.setLimiter d x).clock = s.clock := rfl
@[simp] theorem State.setLimiter_cc (s : State) (d : Nat) (x : Limiter) : (s.setLimiter d x).cc = s.cc := rfl
@[simp] theorem State.setLimiter_sched (s : State) (d : Nat) (x : Limiter) : (s.setLimiter d x).sched = s.sched := rfl
@[simp] theorem State.setLimiter_ctlRound (s : State) (d : Nat) (x : Limiter) : (s.setLimiter d x).ctlRound = s.ctlRound := rfl
@[simp] theorem State.setLimiter_meshHold (s : State) (d : Nat) (x : Limiter) : (s.setLimiter d x).meshHold = s.meshHold := rfl
@[simp] theorem State.setLimiter_ops (s : State) (d : Nat) (x : Limiter) : (s.setLimiter d x).ops = s.ops := rfl
@[simp] theorem State.setLimiter_outReads (s : State) (d : Nat) (x : Limiter) : (s.setLimiter d x).outReads = s.outReads := rfl
@[simp] theorem State.setLimiter_meshWait (s : State) (d : Nat) (x : Limiter) : (s.setLimiter d x).meshWait = s.meshWait := rfl
@[simp] theorem State.setLimiter_ctl (s : State) (d : Nat) (x : Limiter) : (s.setLimiter d x).ctl = s.ctl := rfl
@[simp] theorem State.setLimiter_banks (s : State) (d : Nat) (x : Limiter) : (s.setLimiter d x).banks = s.banks := rfl
@[simp] theorem State.setLimiter_early (s : State) (d : Nat) (x : Limiter) : (s.setLimiter d x).early = s.early := rfl
@[simp] theorem State.setLimiter_snaps (s : State) (d : Nat) (x : Limiter) : (s.setLimiter d x).snaps = s.snaps := rfl
@[simp] theorem State.setLimiter_hcasRes (s : State) (d : Nat) (x : Limiter) : (s.setLimiter d x).hcasRes = s.hcasRes := rfl
@[simp] theorem State.setLimiter_lastRead (s : State) (d : Nat) (x : Limiter) : (s.setLimiter d x).lastRead = s.lastRead := rfl
@[simp] theorem State.setLimiter_freeCtr (s : State) (d : Nat) (x : Limiter) : (s.setLimiter d x).freeCtr = s.freeCtr := rfl
@[simp] theorem State.setLimiter_vcOn (s : State) (d : Nat) (x : Limiter) : (s.setLimiter d x).vcOn = s.vcOn := rfl
@[simp] theorem State.setLimiter_inRst (s : State) (d : Nat) (x : Limiter) : (s.setLimiter d x).inRst = s.inRst := rfl
@[simp] theorem State.setLimiter_storeOn (s : State) (d : Nat) (x : Limiter) : (s.setLimiter d x).storeOn = s.storeOn := rfl
@[simp] theorem State.setLimiter_vmeshOn (s : State) (d : Nat) (x : Limiter) : (s.setLimiter d x).vmeshOn = s.vmeshOn := rfl
@[simp] theorem State.setLimiter_vgwOn (s : State) (d : Nat) (x : Limiter) : (s.setLimiter d x).vgwOn = s.vgwOn := rfl
@[simp] theorem State.setLimiter_vioOn (s : State) (d : Nat) (x : Limiter) : (s.setLimiter d x).vioOn = s.vioOn := rfl
@[simp] theorem State.setLimiter_routers (s : State) (d : Nat) (x : Limiter) : (s.setLimiter d x).routers = s.routers := rfl
@[simp] theorem State.setLimiter_exits (s : State) (d : Nat) (x : Limiter) : (s.setLimiter d x).exits = s.exits := rfl
@[simp] theorem State.setLimiter_outWrites (s : State) (d : Nat) (x : Limiter) : (s.setLimiter d x).outWrites = s.outWrites := rfl
@[simp] theorem State.setLimiter_holding (s : State) (d : Nat) (x : Limiter) : (s.setLimiter d x).holding = s.holding := rfl
@[simp] theorem State.setLimiter_noDispatch (s : State) (d : Nat) (x : Limiter) : (s.setLimiter d x).noDispatch = s.noDispatch := rfl
@[simp] theorem State.setLimiter_seatsZeroed (s : State) (d : Nat) (x : Limiter) : (s.setLimiter d x).seatsZeroed = s.seatsZeroed := rfl
@[simp] theorem State.setLimiter_storesZeroed (s : State) (d : Nat) (x : Limiter) : (s.setLimiter d x).storesZeroed = s.storesZeroed := rfl
@[simp] theorem State.setLimiter_ports (s : State) (d : Nat) (x : Limiter) : (s.setLimiter d x).ports = s.ports := rfl
@[simp] theorem State.setLimiter_stroke (s : State) (d : Nat) (x : Limiter) : (s.setLimiter d x).stroke = s.stroke := rfl
@[simp] theorem State.setLimiter_ini (s : State) (d : Nat) (x : Limiter) : (s.setLimiter d x).ini = s.ini := rfl
@[simp] theorem State.setLimiter_rxc (s : State) (d : Nat) (x : Limiter) : (s.setLimiter d x).rxc = s.rxc := rfl
@[simp] theorem State.setLimiter_ownIn (s : State) (d : Nat) (x : Limiter) : (s.setLimiter d x).ownIn = s.ownIn := rfl
@[simp] theorem State.setLimiter_dma (s : State) (d : Nat) (x : Limiter) : (s.setLimiter d x).dma = s.dma := rfl
@[simp] theorem State.setLimiter_pwr (s : State) (d : Nat) (x : Limiter) : (s.setLimiter d x).pwr = s.pwr := rfl
@[simp] theorem State.setLimiter_killAt (s : State) (d : Nat) (x : Limiter) : (s.setLimiter d x).killAt = s.killAt := rfl
@[simp] theorem State.setLimiter_zeroPass (s : State) (d : Nat) (x : Limiter) : (s.setLimiter d x).zeroPass = s.zeroPass := rfl
@[simp] theorem State.setLimiter_fns (s : State) (d : Nat) (x : Limiter) : (s.setLimiter d x).fns = s.fns := rfl
@[simp] theorem State.setLimiter_hdma (s : State) (d : Nat) (x : Limiter) : (s.setLimiter d x).hdma = s.hdma := rfl
@[simp] theorem State.setLimiter_vfRegs (s : State) (d : Nat) (x : Limiter) : (s.setLimiter d x).vfRegs = s.vfRegs := rfl
@[simp] theorem State.setLimiter_vfErr (s : State) (d : Nat) (x : Limiter) : (s.setLimiter d x).vfErr = s.vfErr := rfl
@[simp] theorem State.setLimiter_perst (s : State) (d : Nat) (x : Limiter) : (s.setLimiter d x).perst = s.perst := rfl
@[simp] theorem State.setLimiter_link (s : State) (d : Nat) (x : Limiter) : (s.setLimiter d x).link = s.link := rfl
@[simp] theorem State.setLimiter_aer (s : State) (d : Nat) (x : Limiter) : (s.setLimiter d x).aer = s.aer := rfl
@[simp] theorem State.setLimiter_fltSeen (s : State) (d : Nat) (x : Limiter) : (s.setLimiter d x).fltSeen = s.fltSeen := rfl
@[simp] theorem State.setLimiter_warm (s : State) (d : Nat) (x : Limiter) : (s.setLimiter d x).warm = s.warm := rfl
@[simp] theorem State.setLimiter_crewRst (s : State) (d : Nat) (x : Limiter) : (s.setLimiter d x).crewRst = s.crewRst := rfl
@[simp] theorem State.setLimiter_bh (s : State) (d : Nat) (x : Limiter) : (s.setLimiter d x).bh = s.bh := rfl
@[simp] theorem State.setLimiter_ll (s : State) (d : Nat) (x : Limiter) : (s.setLimiter d x).ll = s.ll := rfl
@[simp] theorem State.setLimiter_out (s : State) (d : Nat) (x : Limiter) : (s.setLimiter d x).out = s.out := rfl
@[simp] theorem State.setLimiter_pending (s : State) (d : Nat) (x : Limiter) : (s.setLimiter d x).pending = s.pending := rfl

@[simp] theorem State.setEarly_time (s : State) (g : Nat) (l : List Nat) : (s.setEarly g l).time = s.time := rfl
@[simp] theorem State.setEarly_regs (s : State) (g : Nat) (l : List Nat) : (s.setEarly g l).regs = s.regs := rfl
@[simp] theorem State.setEarly_mem (s : State) (g : Nat) (l : List Nat) : (s.setEarly g l).mem = s.mem := rfl
@[simp] theorem State.setEarly_flash (s : State) (g : Nat) (l : List Nat) : (s.setEarly g l).flash = s.flash := rfl
@[simp] theorem State.setEarly_eccOne (s : State) (g : Nat) (l : List Nat) : (s.setEarly g l).eccOne = s.eccOne := rfl
@[simp] theorem State.setEarly_eccTwo (s : State) (g : Nat) (l : List Nat) : (s.setEarly g l).eccTwo = s.eccTwo := rfl
@[simp] theorem State.setEarly_cores (s : State) (g : Nat) (l : List Nat) : (s.setEarly g l).cores = s.cores := rfl
@[simp] theorem State.setEarly_clock (s : State) (g : Nat) (l : List Nat) : (s.setEarly g l).clock = s.clock := rfl
@[simp] theorem State.setEarly_cc (s : State) (g : Nat) (l : List Nat) : (s.setEarly g l).cc = s.cc := rfl
@[simp] theorem State.setEarly_sched (s : State) (g : Nat) (l : List Nat) : (s.setEarly g l).sched = s.sched := rfl
@[simp] theorem State.setEarly_ctlRound (s : State) (g : Nat) (l : List Nat) : (s.setEarly g l).ctlRound = s.ctlRound := rfl
@[simp] theorem State.setEarly_meshHold (s : State) (g : Nat) (l : List Nat) : (s.setEarly g l).meshHold = s.meshHold := rfl
@[simp] theorem State.setEarly_ops (s : State) (g : Nat) (l : List Nat) : (s.setEarly g l).ops = s.ops := rfl
@[simp] theorem State.setEarly_outReads (s : State) (g : Nat) (l : List Nat) : (s.setEarly g l).outReads = s.outReads := rfl
@[simp] theorem State.setEarly_meshWait (s : State) (g : Nat) (l : List Nat) : (s.setEarly g l).meshWait = s.meshWait := rfl
@[simp] theorem State.setEarly_ctl (s : State) (g : Nat) (l : List Nat) : (s.setEarly g l).ctl = s.ctl := rfl
@[simp] theorem State.setEarly_banks (s : State) (g : Nat) (l : List Nat) : (s.setEarly g l).banks = s.banks := rfl
@[simp] theorem State.setEarly_snaps (s : State) (g : Nat) (l : List Nat) : (s.setEarly g l).snaps = s.snaps := rfl
@[simp] theorem State.setEarly_hcasRes (s : State) (g : Nat) (l : List Nat) : (s.setEarly g l).hcasRes = s.hcasRes := rfl
@[simp] theorem State.setEarly_lastRead (s : State) (g : Nat) (l : List Nat) : (s.setEarly g l).lastRead = s.lastRead := rfl
@[simp] theorem State.setEarly_freeCtr (s : State) (g : Nat) (l : List Nat) : (s.setEarly g l).freeCtr = s.freeCtr := rfl
@[simp] theorem State.setEarly_vcOn (s : State) (g : Nat) (l : List Nat) : (s.setEarly g l).vcOn = s.vcOn := rfl
@[simp] theorem State.setEarly_inRst (s : State) (g : Nat) (l : List Nat) : (s.setEarly g l).inRst = s.inRst := rfl
@[simp] theorem State.setEarly_storeOn (s : State) (g : Nat) (l : List Nat) : (s.setEarly g l).storeOn = s.storeOn := rfl
@[simp] theorem State.setEarly_vmeshOn (s : State) (g : Nat) (l : List Nat) : (s.setEarly g l).vmeshOn = s.vmeshOn := rfl
@[simp] theorem State.setEarly_vgwOn (s : State) (g : Nat) (l : List Nat) : (s.setEarly g l).vgwOn = s.vgwOn := rfl
@[simp] theorem State.setEarly_vioOn (s : State) (g : Nat) (l : List Nat) : (s.setEarly g l).vioOn = s.vioOn := rfl
@[simp] theorem State.setEarly_routers (s : State) (g : Nat) (l : List Nat) : (s.setEarly g l).routers = s.routers := rfl
@[simp] theorem State.setEarly_exits (s : State) (g : Nat) (l : List Nat) : (s.setEarly g l).exits = s.exits := rfl
@[simp] theorem State.setEarly_outWrites (s : State) (g : Nat) (l : List Nat) : (s.setEarly g l).outWrites = s.outWrites := rfl
@[simp] theorem State.setEarly_holding (s : State) (g : Nat) (l : List Nat) : (s.setEarly g l).holding = s.holding := rfl
@[simp] theorem State.setEarly_noDispatch (s : State) (g : Nat) (l : List Nat) : (s.setEarly g l).noDispatch = s.noDispatch := rfl
@[simp] theorem State.setEarly_seatsZeroed (s : State) (g : Nat) (l : List Nat) : (s.setEarly g l).seatsZeroed = s.seatsZeroed := rfl
@[simp] theorem State.setEarly_storesZeroed (s : State) (g : Nat) (l : List Nat) : (s.setEarly g l).storesZeroed = s.storesZeroed := rfl
@[simp] theorem State.setEarly_ports (s : State) (g : Nat) (l : List Nat) : (s.setEarly g l).ports = s.ports := rfl
@[simp] theorem State.setEarly_stroke (s : State) (g : Nat) (l : List Nat) : (s.setEarly g l).stroke = s.stroke := rfl
@[simp] theorem State.setEarly_ini (s : State) (g : Nat) (l : List Nat) : (s.setEarly g l).ini = s.ini := rfl
@[simp] theorem State.setEarly_rxc (s : State) (g : Nat) (l : List Nat) : (s.setEarly g l).rxc = s.rxc := rfl
@[simp] theorem State.setEarly_limits (s : State) (g : Nat) (l : List Nat) : (s.setEarly g l).limits = s.limits := rfl
@[simp] theorem State.setEarly_ownIn (s : State) (g : Nat) (l : List Nat) : (s.setEarly g l).ownIn = s.ownIn := rfl
@[simp] theorem State.setEarly_dma (s : State) (g : Nat) (l : List Nat) : (s.setEarly g l).dma = s.dma := rfl
@[simp] theorem State.setEarly_pwr (s : State) (g : Nat) (l : List Nat) : (s.setEarly g l).pwr = s.pwr := rfl
@[simp] theorem State.setEarly_killAt (s : State) (g : Nat) (l : List Nat) : (s.setEarly g l).killAt = s.killAt := rfl
@[simp] theorem State.setEarly_zeroPass (s : State) (g : Nat) (l : List Nat) : (s.setEarly g l).zeroPass = s.zeroPass := rfl
@[simp] theorem State.setEarly_fns (s : State) (g : Nat) (l : List Nat) : (s.setEarly g l).fns = s.fns := rfl
@[simp] theorem State.setEarly_hdma (s : State) (g : Nat) (l : List Nat) : (s.setEarly g l).hdma = s.hdma := rfl
@[simp] theorem State.setEarly_vfRegs (s : State) (g : Nat) (l : List Nat) : (s.setEarly g l).vfRegs = s.vfRegs := rfl
@[simp] theorem State.setEarly_vfErr (s : State) (g : Nat) (l : List Nat) : (s.setEarly g l).vfErr = s.vfErr := rfl
@[simp] theorem State.setEarly_perst (s : State) (g : Nat) (l : List Nat) : (s.setEarly g l).perst = s.perst := rfl
@[simp] theorem State.setEarly_link (s : State) (g : Nat) (l : List Nat) : (s.setEarly g l).link = s.link := rfl
@[simp] theorem State.setEarly_aer (s : State) (g : Nat) (l : List Nat) : (s.setEarly g l).aer = s.aer := rfl
@[simp] theorem State.setEarly_fltSeen (s : State) (g : Nat) (l : List Nat) : (s.setEarly g l).fltSeen = s.fltSeen := rfl
@[simp] theorem State.setEarly_warm (s : State) (g : Nat) (l : List Nat) : (s.setEarly g l).warm = s.warm := rfl
@[simp] theorem State.setEarly_crewRst (s : State) (g : Nat) (l : List Nat) : (s.setEarly g l).crewRst = s.crewRst := rfl
@[simp] theorem State.setEarly_bh (s : State) (g : Nat) (l : List Nat) : (s.setEarly g l).bh = s.bh := rfl
@[simp] theorem State.setEarly_ll (s : State) (g : Nat) (l : List Nat) : (s.setEarly g l).ll = s.ll := rfl
@[simp] theorem State.setEarly_out (s : State) (g : Nat) (l : List Nat) : (s.setEarly g l).out = s.out := rfl
@[simp] theorem State.setEarly_pending (s : State) (g : Nat) (l : List Nat) : (s.setEarly g l).pending = s.pending := rfl

@[simp] theorem State.setBh_time (s : State) (b : Boathouse) : (s.setBh b).time = s.time := rfl
@[simp] theorem State.setBh_regs (s : State) (b : Boathouse) : (s.setBh b).regs = s.regs := rfl
@[simp] theorem State.setBh_mem (s : State) (b : Boathouse) : (s.setBh b).mem = s.mem := rfl
@[simp] theorem State.setBh_flash (s : State) (b : Boathouse) : (s.setBh b).flash = s.flash := rfl
@[simp] theorem State.setBh_eccOne (s : State) (b : Boathouse) : (s.setBh b).eccOne = s.eccOne := rfl
@[simp] theorem State.setBh_eccTwo (s : State) (b : Boathouse) : (s.setBh b).eccTwo = s.eccTwo := rfl
@[simp] theorem State.setBh_cores (s : State) (b : Boathouse) : (s.setBh b).cores = s.cores := rfl
@[simp] theorem State.setBh_clock (s : State) (b : Boathouse) : (s.setBh b).clock = s.clock := rfl
@[simp] theorem State.setBh_cc (s : State) (b : Boathouse) : (s.setBh b).cc = s.cc := rfl
@[simp] theorem State.setBh_sched (s : State) (b : Boathouse) : (s.setBh b).sched = s.sched := rfl
@[simp] theorem State.setBh_ctlRound (s : State) (b : Boathouse) : (s.setBh b).ctlRound = s.ctlRound := rfl
@[simp] theorem State.setBh_meshHold (s : State) (b : Boathouse) : (s.setBh b).meshHold = s.meshHold := rfl
@[simp] theorem State.setBh_ops (s : State) (b : Boathouse) : (s.setBh b).ops = s.ops := rfl
@[simp] theorem State.setBh_outReads (s : State) (b : Boathouse) : (s.setBh b).outReads = s.outReads := rfl
@[simp] theorem State.setBh_meshWait (s : State) (b : Boathouse) : (s.setBh b).meshWait = s.meshWait := rfl
@[simp] theorem State.setBh_ctl (s : State) (b : Boathouse) : (s.setBh b).ctl = s.ctl := rfl
@[simp] theorem State.setBh_banks (s : State) (b : Boathouse) : (s.setBh b).banks = s.banks := rfl
@[simp] theorem State.setBh_early (s : State) (b : Boathouse) : (s.setBh b).early = s.early := rfl
@[simp] theorem State.setBh_snaps (s : State) (b : Boathouse) : (s.setBh b).snaps = s.snaps := rfl
@[simp] theorem State.setBh_hcasRes (s : State) (b : Boathouse) : (s.setBh b).hcasRes = s.hcasRes := rfl
@[simp] theorem State.setBh_lastRead (s : State) (b : Boathouse) : (s.setBh b).lastRead = s.lastRead := rfl
@[simp] theorem State.setBh_freeCtr (s : State) (b : Boathouse) : (s.setBh b).freeCtr = s.freeCtr := rfl
@[simp] theorem State.setBh_vcOn (s : State) (b : Boathouse) : (s.setBh b).vcOn = s.vcOn := rfl
@[simp] theorem State.setBh_inRst (s : State) (b : Boathouse) : (s.setBh b).inRst = s.inRst := rfl
@[simp] theorem State.setBh_storeOn (s : State) (b : Boathouse) : (s.setBh b).storeOn = s.storeOn := rfl
@[simp] theorem State.setBh_vmeshOn (s : State) (b : Boathouse) : (s.setBh b).vmeshOn = s.vmeshOn := rfl
@[simp] theorem State.setBh_vgwOn (s : State) (b : Boathouse) : (s.setBh b).vgwOn = s.vgwOn := rfl
@[simp] theorem State.setBh_vioOn (s : State) (b : Boathouse) : (s.setBh b).vioOn = s.vioOn := rfl
@[simp] theorem State.setBh_routers (s : State) (b : Boathouse) : (s.setBh b).routers = s.routers := rfl
@[simp] theorem State.setBh_exits (s : State) (b : Boathouse) : (s.setBh b).exits = s.exits := rfl
@[simp] theorem State.setBh_outWrites (s : State) (b : Boathouse) : (s.setBh b).outWrites = s.outWrites := rfl
@[simp] theorem State.setBh_holding (s : State) (b : Boathouse) : (s.setBh b).holding = s.holding := rfl
@[simp] theorem State.setBh_noDispatch (s : State) (b : Boathouse) : (s.setBh b).noDispatch = s.noDispatch := rfl
@[simp] theorem State.setBh_seatsZeroed (s : State) (b : Boathouse) : (s.setBh b).seatsZeroed = s.seatsZeroed := rfl
@[simp] theorem State.setBh_storesZeroed (s : State) (b : Boathouse) : (s.setBh b).storesZeroed = s.storesZeroed := rfl
@[simp] theorem State.setBh_ports (s : State) (b : Boathouse) : (s.setBh b).ports = s.ports := rfl
@[simp] theorem State.setBh_stroke (s : State) (b : Boathouse) : (s.setBh b).stroke = s.stroke := rfl
@[simp] theorem State.setBh_ini (s : State) (b : Boathouse) : (s.setBh b).ini = s.ini := rfl
@[simp] theorem State.setBh_rxc (s : State) (b : Boathouse) : (s.setBh b).rxc = s.rxc := rfl
@[simp] theorem State.setBh_limits (s : State) (b : Boathouse) : (s.setBh b).limits = s.limits := rfl
@[simp] theorem State.setBh_ownIn (s : State) (b : Boathouse) : (s.setBh b).ownIn = s.ownIn := rfl
@[simp] theorem State.setBh_dma (s : State) (b : Boathouse) : (s.setBh b).dma = s.dma := rfl
@[simp] theorem State.setBh_pwr (s : State) (b : Boathouse) : (s.setBh b).pwr = s.pwr := rfl
@[simp] theorem State.setBh_killAt (s : State) (b : Boathouse) : (s.setBh b).killAt = s.killAt := rfl
@[simp] theorem State.setBh_zeroPass (s : State) (b : Boathouse) : (s.setBh b).zeroPass = s.zeroPass := rfl
@[simp] theorem State.setBh_fns (s : State) (b : Boathouse) : (s.setBh b).fns = s.fns := rfl
@[simp] theorem State.setBh_hdma (s : State) (b : Boathouse) : (s.setBh b).hdma = s.hdma := rfl
@[simp] theorem State.setBh_vfRegs (s : State) (b : Boathouse) : (s.setBh b).vfRegs = s.vfRegs := rfl
@[simp] theorem State.setBh_vfErr (s : State) (b : Boathouse) : (s.setBh b).vfErr = s.vfErr := rfl
@[simp] theorem State.setBh_perst (s : State) (b : Boathouse) : (s.setBh b).perst = s.perst := rfl
@[simp] theorem State.setBh_link (s : State) (b : Boathouse) : (s.setBh b).link = s.link := rfl
@[simp] theorem State.setBh_aer (s : State) (b : Boathouse) : (s.setBh b).aer = s.aer := rfl
@[simp] theorem State.setBh_fltSeen (s : State) (b : Boathouse) : (s.setBh b).fltSeen = s.fltSeen := rfl
@[simp] theorem State.setBh_warm (s : State) (b : Boathouse) : (s.setBh b).warm = s.warm := rfl
@[simp] theorem State.setBh_crewRst (s : State) (b : Boathouse) : (s.setBh b).crewRst = s.crewRst := rfl
@[simp] theorem State.setBh_ll (s : State) (b : Boathouse) : (s.setBh b).ll = s.ll := rfl
@[simp] theorem State.setBh_out (s : State) (b : Boathouse) : (s.setBh b).out = s.out := rfl
@[simp] theorem State.setBh_pending (s : State) (b : Boathouse) : (s.setBh b).pending = s.pending := rfl

@[simp] theorem State.setLl_time (s : State) (x : Listener) : (s.setLl x).time = s.time := rfl
@[simp] theorem State.setLl_regs (s : State) (x : Listener) : (s.setLl x).regs = s.regs := rfl
@[simp] theorem State.setLl_mem (s : State) (x : Listener) : (s.setLl x).mem = s.mem := rfl
@[simp] theorem State.setLl_flash (s : State) (x : Listener) : (s.setLl x).flash = s.flash := rfl
@[simp] theorem State.setLl_eccOne (s : State) (x : Listener) : (s.setLl x).eccOne = s.eccOne := rfl
@[simp] theorem State.setLl_eccTwo (s : State) (x : Listener) : (s.setLl x).eccTwo = s.eccTwo := rfl
@[simp] theorem State.setLl_cores (s : State) (x : Listener) : (s.setLl x).cores = s.cores := rfl
@[simp] theorem State.setLl_clock (s : State) (x : Listener) : (s.setLl x).clock = s.clock := rfl
@[simp] theorem State.setLl_cc (s : State) (x : Listener) : (s.setLl x).cc = s.cc := rfl
@[simp] theorem State.setLl_sched (s : State) (x : Listener) : (s.setLl x).sched = s.sched := rfl
@[simp] theorem State.setLl_ctlRound (s : State) (x : Listener) : (s.setLl x).ctlRound = s.ctlRound := rfl
@[simp] theorem State.setLl_meshHold (s : State) (x : Listener) : (s.setLl x).meshHold = s.meshHold := rfl
@[simp] theorem State.setLl_ops (s : State) (x : Listener) : (s.setLl x).ops = s.ops := rfl
@[simp] theorem State.setLl_outReads (s : State) (x : Listener) : (s.setLl x).outReads = s.outReads := rfl
@[simp] theorem State.setLl_meshWait (s : State) (x : Listener) : (s.setLl x).meshWait = s.meshWait := rfl
@[simp] theorem State.setLl_ctl (s : State) (x : Listener) : (s.setLl x).ctl = s.ctl := rfl
@[simp] theorem State.setLl_banks (s : State) (x : Listener) : (s.setLl x).banks = s.banks := rfl
@[simp] theorem State.setLl_early (s : State) (x : Listener) : (s.setLl x).early = s.early := rfl
@[simp] theorem State.setLl_snaps (s : State) (x : Listener) : (s.setLl x).snaps = s.snaps := rfl
@[simp] theorem State.setLl_hcasRes (s : State) (x : Listener) : (s.setLl x).hcasRes = s.hcasRes := rfl
@[simp] theorem State.setLl_lastRead (s : State) (x : Listener) : (s.setLl x).lastRead = s.lastRead := rfl
@[simp] theorem State.setLl_freeCtr (s : State) (x : Listener) : (s.setLl x).freeCtr = s.freeCtr := rfl
@[simp] theorem State.setLl_vcOn (s : State) (x : Listener) : (s.setLl x).vcOn = s.vcOn := rfl
@[simp] theorem State.setLl_inRst (s : State) (x : Listener) : (s.setLl x).inRst = s.inRst := rfl
@[simp] theorem State.setLl_storeOn (s : State) (x : Listener) : (s.setLl x).storeOn = s.storeOn := rfl
@[simp] theorem State.setLl_vmeshOn (s : State) (x : Listener) : (s.setLl x).vmeshOn = s.vmeshOn := rfl
@[simp] theorem State.setLl_vgwOn (s : State) (x : Listener) : (s.setLl x).vgwOn = s.vgwOn := rfl
@[simp] theorem State.setLl_vioOn (s : State) (x : Listener) : (s.setLl x).vioOn = s.vioOn := rfl
@[simp] theorem State.setLl_routers (s : State) (x : Listener) : (s.setLl x).routers = s.routers := rfl
@[simp] theorem State.setLl_exits (s : State) (x : Listener) : (s.setLl x).exits = s.exits := rfl
@[simp] theorem State.setLl_outWrites (s : State) (x : Listener) : (s.setLl x).outWrites = s.outWrites := rfl
@[simp] theorem State.setLl_holding (s : State) (x : Listener) : (s.setLl x).holding = s.holding := rfl
@[simp] theorem State.setLl_noDispatch (s : State) (x : Listener) : (s.setLl x).noDispatch = s.noDispatch := rfl
@[simp] theorem State.setLl_seatsZeroed (s : State) (x : Listener) : (s.setLl x).seatsZeroed = s.seatsZeroed := rfl
@[simp] theorem State.setLl_storesZeroed (s : State) (x : Listener) : (s.setLl x).storesZeroed = s.storesZeroed := rfl
@[simp] theorem State.setLl_ports (s : State) (x : Listener) : (s.setLl x).ports = s.ports := rfl
@[simp] theorem State.setLl_stroke (s : State) (x : Listener) : (s.setLl x).stroke = s.stroke := rfl
@[simp] theorem State.setLl_ini (s : State) (x : Listener) : (s.setLl x).ini = s.ini := rfl
@[simp] theorem State.setLl_rxc (s : State) (x : Listener) : (s.setLl x).rxc = s.rxc := rfl
@[simp] theorem State.setLl_limits (s : State) (x : Listener) : (s.setLl x).limits = s.limits := rfl
@[simp] theorem State.setLl_ownIn (s : State) (x : Listener) : (s.setLl x).ownIn = s.ownIn := rfl
@[simp] theorem State.setLl_dma (s : State) (x : Listener) : (s.setLl x).dma = s.dma := rfl
@[simp] theorem State.setLl_pwr (s : State) (x : Listener) : (s.setLl x).pwr = s.pwr := rfl
@[simp] theorem State.setLl_killAt (s : State) (x : Listener) : (s.setLl x).killAt = s.killAt := rfl
@[simp] theorem State.setLl_zeroPass (s : State) (x : Listener) : (s.setLl x).zeroPass = s.zeroPass := rfl
@[simp] theorem State.setLl_fns (s : State) (x : Listener) : (s.setLl x).fns = s.fns := rfl
@[simp] theorem State.setLl_hdma (s : State) (x : Listener) : (s.setLl x).hdma = s.hdma := rfl
@[simp] theorem State.setLl_vfRegs (s : State) (x : Listener) : (s.setLl x).vfRegs = s.vfRegs := rfl
@[simp] theorem State.setLl_vfErr (s : State) (x : Listener) : (s.setLl x).vfErr = s.vfErr := rfl
@[simp] theorem State.setLl_perst (s : State) (x : Listener) : (s.setLl x).perst = s.perst := rfl
@[simp] theorem State.setLl_link (s : State) (x : Listener) : (s.setLl x).link = s.link := rfl
@[simp] theorem State.setLl_aer (s : State) (x : Listener) : (s.setLl x).aer = s.aer := rfl
@[simp] theorem State.setLl_fltSeen (s : State) (x : Listener) : (s.setLl x).fltSeen = s.fltSeen := rfl
@[simp] theorem State.setLl_warm (s : State) (x : Listener) : (s.setLl x).warm = s.warm := rfl
@[simp] theorem State.setLl_crewRst (s : State) (x : Listener) : (s.setLl x).crewRst = s.crewRst := rfl
@[simp] theorem State.setLl_bh (s : State) (x : Listener) : (s.setLl x).bh = s.bh := rfl
@[simp] theorem State.setLl_out (s : State) (x : Listener) : (s.setLl x).out = s.out := rfl
@[simp] theorem State.setLl_pending (s : State) (x : Listener) : (s.setLl x).pending = s.pending := rfl

@[simp] theorem State.setFn_time (s : State) (n : Nat) (f : HostFn) : (s.setFn n f).time = s.time := rfl
@[simp] theorem State.setFn_regs (s : State) (n : Nat) (f : HostFn) : (s.setFn n f).regs = s.regs := rfl
@[simp] theorem State.setFn_mem (s : State) (n : Nat) (f : HostFn) : (s.setFn n f).mem = s.mem := rfl
@[simp] theorem State.setFn_flash (s : State) (n : Nat) (f : HostFn) : (s.setFn n f).flash = s.flash := rfl
@[simp] theorem State.setFn_eccOne (s : State) (n : Nat) (f : HostFn) : (s.setFn n f).eccOne = s.eccOne := rfl
@[simp] theorem State.setFn_eccTwo (s : State) (n : Nat) (f : HostFn) : (s.setFn n f).eccTwo = s.eccTwo := rfl
@[simp] theorem State.setFn_cores (s : State) (n : Nat) (f : HostFn) : (s.setFn n f).cores = s.cores := rfl
@[simp] theorem State.setFn_clock (s : State) (n : Nat) (f : HostFn) : (s.setFn n f).clock = s.clock := rfl
@[simp] theorem State.setFn_cc (s : State) (n : Nat) (f : HostFn) : (s.setFn n f).cc = s.cc := rfl
@[simp] theorem State.setFn_sched (s : State) (n : Nat) (f : HostFn) : (s.setFn n f).sched = s.sched := rfl
@[simp] theorem State.setFn_ctlRound (s : State) (n : Nat) (f : HostFn) : (s.setFn n f).ctlRound = s.ctlRound := rfl
@[simp] theorem State.setFn_meshHold (s : State) (n : Nat) (f : HostFn) : (s.setFn n f).meshHold = s.meshHold := rfl
@[simp] theorem State.setFn_ops (s : State) (n : Nat) (f : HostFn) : (s.setFn n f).ops = s.ops := rfl
@[simp] theorem State.setFn_outReads (s : State) (n : Nat) (f : HostFn) : (s.setFn n f).outReads = s.outReads := rfl
@[simp] theorem State.setFn_meshWait (s : State) (n : Nat) (f : HostFn) : (s.setFn n f).meshWait = s.meshWait := rfl
@[simp] theorem State.setFn_ctl (s : State) (n : Nat) (f : HostFn) : (s.setFn n f).ctl = s.ctl := rfl
@[simp] theorem State.setFn_banks (s : State) (n : Nat) (f : HostFn) : (s.setFn n f).banks = s.banks := rfl
@[simp] theorem State.setFn_early (s : State) (n : Nat) (f : HostFn) : (s.setFn n f).early = s.early := rfl
@[simp] theorem State.setFn_snaps (s : State) (n : Nat) (f : HostFn) : (s.setFn n f).snaps = s.snaps := rfl
@[simp] theorem State.setFn_hcasRes (s : State) (n : Nat) (f : HostFn) : (s.setFn n f).hcasRes = s.hcasRes := rfl
@[simp] theorem State.setFn_lastRead (s : State) (n : Nat) (f : HostFn) : (s.setFn n f).lastRead = s.lastRead := rfl
@[simp] theorem State.setFn_freeCtr (s : State) (n : Nat) (f : HostFn) : (s.setFn n f).freeCtr = s.freeCtr := rfl
@[simp] theorem State.setFn_vcOn (s : State) (n : Nat) (f : HostFn) : (s.setFn n f).vcOn = s.vcOn := rfl
@[simp] theorem State.setFn_inRst (s : State) (n : Nat) (f : HostFn) : (s.setFn n f).inRst = s.inRst := rfl
@[simp] theorem State.setFn_storeOn (s : State) (n : Nat) (f : HostFn) : (s.setFn n f).storeOn = s.storeOn := rfl
@[simp] theorem State.setFn_vmeshOn (s : State) (n : Nat) (f : HostFn) : (s.setFn n f).vmeshOn = s.vmeshOn := rfl
@[simp] theorem State.setFn_vgwOn (s : State) (n : Nat) (f : HostFn) : (s.setFn n f).vgwOn = s.vgwOn := rfl
@[simp] theorem State.setFn_vioOn (s : State) (n : Nat) (f : HostFn) : (s.setFn n f).vioOn = s.vioOn := rfl
@[simp] theorem State.setFn_routers (s : State) (n : Nat) (f : HostFn) : (s.setFn n f).routers = s.routers := rfl
@[simp] theorem State.setFn_exits (s : State) (n : Nat) (f : HostFn) : (s.setFn n f).exits = s.exits := rfl
@[simp] theorem State.setFn_outWrites (s : State) (n : Nat) (f : HostFn) : (s.setFn n f).outWrites = s.outWrites := rfl
@[simp] theorem State.setFn_holding (s : State) (n : Nat) (f : HostFn) : (s.setFn n f).holding = s.holding := rfl
@[simp] theorem State.setFn_noDispatch (s : State) (n : Nat) (f : HostFn) : (s.setFn n f).noDispatch = s.noDispatch := rfl
@[simp] theorem State.setFn_seatsZeroed (s : State) (n : Nat) (f : HostFn) : (s.setFn n f).seatsZeroed = s.seatsZeroed := rfl
@[simp] theorem State.setFn_storesZeroed (s : State) (n : Nat) (f : HostFn) : (s.setFn n f).storesZeroed = s.storesZeroed := rfl
@[simp] theorem State.setFn_ports (s : State) (n : Nat) (f : HostFn) : (s.setFn n f).ports = s.ports := rfl
@[simp] theorem State.setFn_stroke (s : State) (n : Nat) (f : HostFn) : (s.setFn n f).stroke = s.stroke := rfl
@[simp] theorem State.setFn_ini (s : State) (n : Nat) (f : HostFn) : (s.setFn n f).ini = s.ini := rfl
@[simp] theorem State.setFn_rxc (s : State) (n : Nat) (f : HostFn) : (s.setFn n f).rxc = s.rxc := rfl
@[simp] theorem State.setFn_limits (s : State) (n : Nat) (f : HostFn) : (s.setFn n f).limits = s.limits := rfl
@[simp] theorem State.setFn_ownIn (s : State) (n : Nat) (f : HostFn) : (s.setFn n f).ownIn = s.ownIn := rfl
@[simp] theorem State.setFn_dma (s : State) (n : Nat) (f : HostFn) : (s.setFn n f).dma = s.dma := rfl
@[simp] theorem State.setFn_pwr (s : State) (n : Nat) (f : HostFn) : (s.setFn n f).pwr = s.pwr := rfl
@[simp] theorem State.setFn_killAt (s : State) (n : Nat) (f : HostFn) : (s.setFn n f).killAt = s.killAt := rfl
@[simp] theorem State.setFn_zeroPass (s : State) (n : Nat) (f : HostFn) : (s.setFn n f).zeroPass = s.zeroPass := rfl
@[simp] theorem State.setFn_hdma (s : State) (n : Nat) (f : HostFn) : (s.setFn n f).hdma = s.hdma := rfl
@[simp] theorem State.setFn_vfRegs (s : State) (n : Nat) (f : HostFn) : (s.setFn n f).vfRegs = s.vfRegs := rfl
@[simp] theorem State.setFn_vfErr (s : State) (n : Nat) (f : HostFn) : (s.setFn n f).vfErr = s.vfErr := rfl
@[simp] theorem State.setFn_perst (s : State) (n : Nat) (f : HostFn) : (s.setFn n f).perst = s.perst := rfl
@[simp] theorem State.setFn_link (s : State) (n : Nat) (f : HostFn) : (s.setFn n f).link = s.link := rfl
@[simp] theorem State.setFn_aer (s : State) (n : Nat) (f : HostFn) : (s.setFn n f).aer = s.aer := rfl
@[simp] theorem State.setFn_fltSeen (s : State) (n : Nat) (f : HostFn) : (s.setFn n f).fltSeen = s.fltSeen := rfl
@[simp] theorem State.setFn_warm (s : State) (n : Nat) (f : HostFn) : (s.setFn n f).warm = s.warm := rfl
@[simp] theorem State.setFn_crewRst (s : State) (n : Nat) (f : HostFn) : (s.setFn n f).crewRst = s.crewRst := rfl
@[simp] theorem State.setFn_bh (s : State) (n : Nat) (f : HostFn) : (s.setFn n f).bh = s.bh := rfl
@[simp] theorem State.setFn_ll (s : State) (n : Nat) (f : HostFn) : (s.setFn n f).ll = s.ll := rfl
@[simp] theorem State.setFn_out (s : State) (n : Nat) (f : HostFn) : (s.setFn n f).out = s.out := rfl
@[simp] theorem State.setFn_pending (s : State) (n : Nat) (f : HostFn) : (s.setFn n f).pending = s.pending := rfl

@[simp] theorem State.setChan_time (s : State) (n : Nat) (x : Hdma) : (s.setChan n x).time = s.time := rfl
@[simp] theorem State.setChan_regs (s : State) (n : Nat) (x : Hdma) : (s.setChan n x).regs = s.regs := rfl
@[simp] theorem State.setChan_mem (s : State) (n : Nat) (x : Hdma) : (s.setChan n x).mem = s.mem := rfl
@[simp] theorem State.setChan_flash (s : State) (n : Nat) (x : Hdma) : (s.setChan n x).flash = s.flash := rfl
@[simp] theorem State.setChan_eccOne (s : State) (n : Nat) (x : Hdma) : (s.setChan n x).eccOne = s.eccOne := rfl
@[simp] theorem State.setChan_eccTwo (s : State) (n : Nat) (x : Hdma) : (s.setChan n x).eccTwo = s.eccTwo := rfl
@[simp] theorem State.setChan_cores (s : State) (n : Nat) (x : Hdma) : (s.setChan n x).cores = s.cores := rfl
@[simp] theorem State.setChan_clock (s : State) (n : Nat) (x : Hdma) : (s.setChan n x).clock = s.clock := rfl
@[simp] theorem State.setChan_cc (s : State) (n : Nat) (x : Hdma) : (s.setChan n x).cc = s.cc := rfl
@[simp] theorem State.setChan_sched (s : State) (n : Nat) (x : Hdma) : (s.setChan n x).sched = s.sched := rfl
@[simp] theorem State.setChan_ctlRound (s : State) (n : Nat) (x : Hdma) : (s.setChan n x).ctlRound = s.ctlRound := rfl
@[simp] theorem State.setChan_meshHold (s : State) (n : Nat) (x : Hdma) : (s.setChan n x).meshHold = s.meshHold := rfl
@[simp] theorem State.setChan_ops (s : State) (n : Nat) (x : Hdma) : (s.setChan n x).ops = s.ops := rfl
@[simp] theorem State.setChan_outReads (s : State) (n : Nat) (x : Hdma) : (s.setChan n x).outReads = s.outReads := rfl
@[simp] theorem State.setChan_meshWait (s : State) (n : Nat) (x : Hdma) : (s.setChan n x).meshWait = s.meshWait := rfl
@[simp] theorem State.setChan_ctl (s : State) (n : Nat) (x : Hdma) : (s.setChan n x).ctl = s.ctl := rfl
@[simp] theorem State.setChan_banks (s : State) (n : Nat) (x : Hdma) : (s.setChan n x).banks = s.banks := rfl
@[simp] theorem State.setChan_early (s : State) (n : Nat) (x : Hdma) : (s.setChan n x).early = s.early := rfl
@[simp] theorem State.setChan_snaps (s : State) (n : Nat) (x : Hdma) : (s.setChan n x).snaps = s.snaps := rfl
@[simp] theorem State.setChan_hcasRes (s : State) (n : Nat) (x : Hdma) : (s.setChan n x).hcasRes = s.hcasRes := rfl
@[simp] theorem State.setChan_lastRead (s : State) (n : Nat) (x : Hdma) : (s.setChan n x).lastRead = s.lastRead := rfl
@[simp] theorem State.setChan_freeCtr (s : State) (n : Nat) (x : Hdma) : (s.setChan n x).freeCtr = s.freeCtr := rfl
@[simp] theorem State.setChan_vcOn (s : State) (n : Nat) (x : Hdma) : (s.setChan n x).vcOn = s.vcOn := rfl
@[simp] theorem State.setChan_inRst (s : State) (n : Nat) (x : Hdma) : (s.setChan n x).inRst = s.inRst := rfl
@[simp] theorem State.setChan_storeOn (s : State) (n : Nat) (x : Hdma) : (s.setChan n x).storeOn = s.storeOn := rfl
@[simp] theorem State.setChan_vmeshOn (s : State) (n : Nat) (x : Hdma) : (s.setChan n x).vmeshOn = s.vmeshOn := rfl
@[simp] theorem State.setChan_vgwOn (s : State) (n : Nat) (x : Hdma) : (s.setChan n x).vgwOn = s.vgwOn := rfl
@[simp] theorem State.setChan_vioOn (s : State) (n : Nat) (x : Hdma) : (s.setChan n x).vioOn = s.vioOn := rfl
@[simp] theorem State.setChan_routers (s : State) (n : Nat) (x : Hdma) : (s.setChan n x).routers = s.routers := rfl
@[simp] theorem State.setChan_exits (s : State) (n : Nat) (x : Hdma) : (s.setChan n x).exits = s.exits := rfl
@[simp] theorem State.setChan_outWrites (s : State) (n : Nat) (x : Hdma) : (s.setChan n x).outWrites = s.outWrites := rfl
@[simp] theorem State.setChan_holding (s : State) (n : Nat) (x : Hdma) : (s.setChan n x).holding = s.holding := rfl
@[simp] theorem State.setChan_noDispatch (s : State) (n : Nat) (x : Hdma) : (s.setChan n x).noDispatch = s.noDispatch := rfl
@[simp] theorem State.setChan_seatsZeroed (s : State) (n : Nat) (x : Hdma) : (s.setChan n x).seatsZeroed = s.seatsZeroed := rfl
@[simp] theorem State.setChan_storesZeroed (s : State) (n : Nat) (x : Hdma) : (s.setChan n x).storesZeroed = s.storesZeroed := rfl
@[simp] theorem State.setChan_ports (s : State) (n : Nat) (x : Hdma) : (s.setChan n x).ports = s.ports := rfl
@[simp] theorem State.setChan_stroke (s : State) (n : Nat) (x : Hdma) : (s.setChan n x).stroke = s.stroke := rfl
@[simp] theorem State.setChan_ini (s : State) (n : Nat) (x : Hdma) : (s.setChan n x).ini = s.ini := rfl
@[simp] theorem State.setChan_rxc (s : State) (n : Nat) (x : Hdma) : (s.setChan n x).rxc = s.rxc := rfl
@[simp] theorem State.setChan_limits (s : State) (n : Nat) (x : Hdma) : (s.setChan n x).limits = s.limits := rfl
@[simp] theorem State.setChan_ownIn (s : State) (n : Nat) (x : Hdma) : (s.setChan n x).ownIn = s.ownIn := rfl
@[simp] theorem State.setChan_dma (s : State) (n : Nat) (x : Hdma) : (s.setChan n x).dma = s.dma := rfl
@[simp] theorem State.setChan_pwr (s : State) (n : Nat) (x : Hdma) : (s.setChan n x).pwr = s.pwr := rfl
@[simp] theorem State.setChan_killAt (s : State) (n : Nat) (x : Hdma) : (s.setChan n x).killAt = s.killAt := rfl
@[simp] theorem State.setChan_zeroPass (s : State) (n : Nat) (x : Hdma) : (s.setChan n x).zeroPass = s.zeroPass := rfl
@[simp] theorem State.setChan_fns (s : State) (n : Nat) (x : Hdma) : (s.setChan n x).fns = s.fns := rfl
@[simp] theorem State.setChan_vfRegs (s : State) (n : Nat) (x : Hdma) : (s.setChan n x).vfRegs = s.vfRegs := rfl
@[simp] theorem State.setChan_vfErr (s : State) (n : Nat) (x : Hdma) : (s.setChan n x).vfErr = s.vfErr := rfl
@[simp] theorem State.setChan_perst (s : State) (n : Nat) (x : Hdma) : (s.setChan n x).perst = s.perst := rfl
@[simp] theorem State.setChan_link (s : State) (n : Nat) (x : Hdma) : (s.setChan n x).link = s.link := rfl
@[simp] theorem State.setChan_aer (s : State) (n : Nat) (x : Hdma) : (s.setChan n x).aer = s.aer := rfl
@[simp] theorem State.setChan_fltSeen (s : State) (n : Nat) (x : Hdma) : (s.setChan n x).fltSeen = s.fltSeen := rfl
@[simp] theorem State.setChan_warm (s : State) (n : Nat) (x : Hdma) : (s.setChan n x).warm = s.warm := rfl
@[simp] theorem State.setChan_crewRst (s : State) (n : Nat) (x : Hdma) : (s.setChan n x).crewRst = s.crewRst := rfl
@[simp] theorem State.setChan_bh (s : State) (n : Nat) (x : Hdma) : (s.setChan n x).bh = s.bh := rfl
@[simp] theorem State.setChan_ll (s : State) (n : Nat) (x : Hdma) : (s.setChan n x).ll = s.ll := rfl
@[simp] theorem State.setChan_out (s : State) (n : Nat) (x : Hdma) : (s.setChan n x).out = s.out := rfl
@[simp] theorem State.setChan_pending (s : State) (n : Nat) (x : Hdma) : (s.setChan n x).pending = s.pending := rfl

@[simp] theorem State.send_time (s : State) (m : OutMsg) : (s.send m).time = s.time := rfl
@[simp] theorem State.send_regs (s : State) (m : OutMsg) : (s.send m).regs = s.regs := rfl
@[simp] theorem State.send_mem (s : State) (m : OutMsg) : (s.send m).mem = s.mem := rfl
@[simp] theorem State.send_flash (s : State) (m : OutMsg) : (s.send m).flash = s.flash := rfl
@[simp] theorem State.send_eccOne (s : State) (m : OutMsg) : (s.send m).eccOne = s.eccOne := rfl
@[simp] theorem State.send_eccTwo (s : State) (m : OutMsg) : (s.send m).eccTwo = s.eccTwo := rfl
@[simp] theorem State.send_cores (s : State) (m : OutMsg) : (s.send m).cores = s.cores := rfl
@[simp] theorem State.send_clock (s : State) (m : OutMsg) : (s.send m).clock = s.clock := rfl
@[simp] theorem State.send_cc (s : State) (m : OutMsg) : (s.send m).cc = s.cc := rfl
@[simp] theorem State.send_sched (s : State) (m : OutMsg) : (s.send m).sched = s.sched := rfl
@[simp] theorem State.send_ctlRound (s : State) (m : OutMsg) : (s.send m).ctlRound = s.ctlRound := rfl
@[simp] theorem State.send_meshHold (s : State) (m : OutMsg) : (s.send m).meshHold = s.meshHold := rfl
@[simp] theorem State.send_ops (s : State) (m : OutMsg) : (s.send m).ops = s.ops := rfl
@[simp] theorem State.send_outReads (s : State) (m : OutMsg) : (s.send m).outReads = s.outReads := rfl
@[simp] theorem State.send_meshWait (s : State) (m : OutMsg) : (s.send m).meshWait = s.meshWait := rfl
@[simp] theorem State.send_ctl (s : State) (m : OutMsg) : (s.send m).ctl = s.ctl := rfl
@[simp] theorem State.send_banks (s : State) (m : OutMsg) : (s.send m).banks = s.banks := rfl
@[simp] theorem State.send_early (s : State) (m : OutMsg) : (s.send m).early = s.early := rfl
@[simp] theorem State.send_snaps (s : State) (m : OutMsg) : (s.send m).snaps = s.snaps := rfl
@[simp] theorem State.send_hcasRes (s : State) (m : OutMsg) : (s.send m).hcasRes = s.hcasRes := rfl
@[simp] theorem State.send_lastRead (s : State) (m : OutMsg) : (s.send m).lastRead = s.lastRead := rfl
@[simp] theorem State.send_freeCtr (s : State) (m : OutMsg) : (s.send m).freeCtr = s.freeCtr := rfl
@[simp] theorem State.send_vcOn (s : State) (m : OutMsg) : (s.send m).vcOn = s.vcOn := rfl
@[simp] theorem State.send_inRst (s : State) (m : OutMsg) : (s.send m).inRst = s.inRst := rfl
@[simp] theorem State.send_storeOn (s : State) (m : OutMsg) : (s.send m).storeOn = s.storeOn := rfl
@[simp] theorem State.send_vmeshOn (s : State) (m : OutMsg) : (s.send m).vmeshOn = s.vmeshOn := rfl
@[simp] theorem State.send_vgwOn (s : State) (m : OutMsg) : (s.send m).vgwOn = s.vgwOn := rfl
@[simp] theorem State.send_vioOn (s : State) (m : OutMsg) : (s.send m).vioOn = s.vioOn := rfl
@[simp] theorem State.send_routers (s : State) (m : OutMsg) : (s.send m).routers = s.routers := rfl
@[simp] theorem State.send_exits (s : State) (m : OutMsg) : (s.send m).exits = s.exits := rfl
@[simp] theorem State.send_outWrites (s : State) (m : OutMsg) : (s.send m).outWrites = s.outWrites := rfl
@[simp] theorem State.send_holding (s : State) (m : OutMsg) : (s.send m).holding = s.holding := rfl
@[simp] theorem State.send_noDispatch (s : State) (m : OutMsg) : (s.send m).noDispatch = s.noDispatch := rfl
@[simp] theorem State.send_seatsZeroed (s : State) (m : OutMsg) : (s.send m).seatsZeroed = s.seatsZeroed := rfl
@[simp] theorem State.send_storesZeroed (s : State) (m : OutMsg) : (s.send m).storesZeroed = s.storesZeroed := rfl
@[simp] theorem State.send_ports (s : State) (m : OutMsg) : (s.send m).ports = s.ports := rfl
@[simp] theorem State.send_stroke (s : State) (m : OutMsg) : (s.send m).stroke = s.stroke := rfl
@[simp] theorem State.send_ini (s : State) (m : OutMsg) : (s.send m).ini = s.ini := rfl
@[simp] theorem State.send_rxc (s : State) (m : OutMsg) : (s.send m).rxc = s.rxc := rfl
@[simp] theorem State.send_limits (s : State) (m : OutMsg) : (s.send m).limits = s.limits := rfl
@[simp] theorem State.send_ownIn (s : State) (m : OutMsg) : (s.send m).ownIn = s.ownIn := rfl
@[simp] theorem State.send_dma (s : State) (m : OutMsg) : (s.send m).dma = s.dma := rfl
@[simp] theorem State.send_pwr (s : State) (m : OutMsg) : (s.send m).pwr = s.pwr := rfl
@[simp] theorem State.send_killAt (s : State) (m : OutMsg) : (s.send m).killAt = s.killAt := rfl
@[simp] theorem State.send_zeroPass (s : State) (m : OutMsg) : (s.send m).zeroPass = s.zeroPass := rfl
@[simp] theorem State.send_fns (s : State) (m : OutMsg) : (s.send m).fns = s.fns := rfl
@[simp] theorem State.send_hdma (s : State) (m : OutMsg) : (s.send m).hdma = s.hdma := rfl
@[simp] theorem State.send_vfRegs (s : State) (m : OutMsg) : (s.send m).vfRegs = s.vfRegs := rfl
@[simp] theorem State.send_vfErr (s : State) (m : OutMsg) : (s.send m).vfErr = s.vfErr := rfl
@[simp] theorem State.send_perst (s : State) (m : OutMsg) : (s.send m).perst = s.perst := rfl
@[simp] theorem State.send_link (s : State) (m : OutMsg) : (s.send m).link = s.link := rfl
@[simp] theorem State.send_aer (s : State) (m : OutMsg) : (s.send m).aer = s.aer := rfl
@[simp] theorem State.send_fltSeen (s : State) (m : OutMsg) : (s.send m).fltSeen = s.fltSeen := rfl
@[simp] theorem State.send_warm (s : State) (m : OutMsg) : (s.send m).warm = s.warm := rfl
@[simp] theorem State.send_crewRst (s : State) (m : OutMsg) : (s.send m).crewRst = s.crewRst := rfl
@[simp] theorem State.send_bh (s : State) (m : OutMsg) : (s.send m).bh = s.bh := rfl
@[simp] theorem State.send_ll (s : State) (m : OutMsg) : (s.send m).ll = s.ll := rfl
@[simp] theorem State.send_pending (s : State) (m : OutMsg) : (s.send m).pending = s.pending := rfl

@[simp] theorem State.pushCtl_time (s : State) (who : Requester) (k : CtlKind) : (s.pushCtl who k).time = s.time := rfl
@[simp] theorem State.pushCtl_regs (s : State) (who : Requester) (k : CtlKind) : (s.pushCtl who k).regs = s.regs := rfl
@[simp] theorem State.pushCtl_mem (s : State) (who : Requester) (k : CtlKind) : (s.pushCtl who k).mem = s.mem := rfl
@[simp] theorem State.pushCtl_flash (s : State) (who : Requester) (k : CtlKind) : (s.pushCtl who k).flash = s.flash := rfl
@[simp] theorem State.pushCtl_eccOne (s : State) (who : Requester) (k : CtlKind) : (s.pushCtl who k).eccOne = s.eccOne := rfl
@[simp] theorem State.pushCtl_eccTwo (s : State) (who : Requester) (k : CtlKind) : (s.pushCtl who k).eccTwo = s.eccTwo := rfl
@[simp] theorem State.pushCtl_cores (s : State) (who : Requester) (k : CtlKind) : (s.pushCtl who k).cores = s.cores := rfl
@[simp] theorem State.pushCtl_clock (s : State) (who : Requester) (k : CtlKind) : (s.pushCtl who k).clock = s.clock := rfl
@[simp] theorem State.pushCtl_cc (s : State) (who : Requester) (k : CtlKind) : (s.pushCtl who k).cc = s.cc := rfl
@[simp] theorem State.pushCtl_sched (s : State) (who : Requester) (k : CtlKind) : (s.pushCtl who k).sched = s.sched := rfl
@[simp] theorem State.pushCtl_ctlRound (s : State) (who : Requester) (k : CtlKind) : (s.pushCtl who k).ctlRound = s.ctlRound := rfl
@[simp] theorem State.pushCtl_meshHold (s : State) (who : Requester) (k : CtlKind) : (s.pushCtl who k).meshHold = s.meshHold := rfl
@[simp] theorem State.pushCtl_ops (s : State) (who : Requester) (k : CtlKind) : (s.pushCtl who k).ops = s.ops := rfl
@[simp] theorem State.pushCtl_outReads (s : State) (who : Requester) (k : CtlKind) : (s.pushCtl who k).outReads = s.outReads := rfl
@[simp] theorem State.pushCtl_meshWait (s : State) (who : Requester) (k : CtlKind) : (s.pushCtl who k).meshWait = s.meshWait := rfl
@[simp] theorem State.pushCtl_banks (s : State) (who : Requester) (k : CtlKind) : (s.pushCtl who k).banks = s.banks := rfl
@[simp] theorem State.pushCtl_early (s : State) (who : Requester) (k : CtlKind) : (s.pushCtl who k).early = s.early := rfl
@[simp] theorem State.pushCtl_snaps (s : State) (who : Requester) (k : CtlKind) : (s.pushCtl who k).snaps = s.snaps := rfl
@[simp] theorem State.pushCtl_hcasRes (s : State) (who : Requester) (k : CtlKind) : (s.pushCtl who k).hcasRes = s.hcasRes := rfl
@[simp] theorem State.pushCtl_lastRead (s : State) (who : Requester) (k : CtlKind) : (s.pushCtl who k).lastRead = s.lastRead := rfl
@[simp] theorem State.pushCtl_freeCtr (s : State) (who : Requester) (k : CtlKind) : (s.pushCtl who k).freeCtr = s.freeCtr := rfl
@[simp] theorem State.pushCtl_vcOn (s : State) (who : Requester) (k : CtlKind) : (s.pushCtl who k).vcOn = s.vcOn := rfl
@[simp] theorem State.pushCtl_inRst (s : State) (who : Requester) (k : CtlKind) : (s.pushCtl who k).inRst = s.inRst := rfl
@[simp] theorem State.pushCtl_storeOn (s : State) (who : Requester) (k : CtlKind) : (s.pushCtl who k).storeOn = s.storeOn := rfl
@[simp] theorem State.pushCtl_vmeshOn (s : State) (who : Requester) (k : CtlKind) : (s.pushCtl who k).vmeshOn = s.vmeshOn := rfl
@[simp] theorem State.pushCtl_vgwOn (s : State) (who : Requester) (k : CtlKind) : (s.pushCtl who k).vgwOn = s.vgwOn := rfl
@[simp] theorem State.pushCtl_vioOn (s : State) (who : Requester) (k : CtlKind) : (s.pushCtl who k).vioOn = s.vioOn := rfl
@[simp] theorem State.pushCtl_routers (s : State) (who : Requester) (k : CtlKind) : (s.pushCtl who k).routers = s.routers := rfl
@[simp] theorem State.pushCtl_exits (s : State) (who : Requester) (k : CtlKind) : (s.pushCtl who k).exits = s.exits := rfl
@[simp] theorem State.pushCtl_outWrites (s : State) (who : Requester) (k : CtlKind) : (s.pushCtl who k).outWrites = s.outWrites := rfl
@[simp] theorem State.pushCtl_holding (s : State) (who : Requester) (k : CtlKind) : (s.pushCtl who k).holding = s.holding := rfl
@[simp] theorem State.pushCtl_noDispatch (s : State) (who : Requester) (k : CtlKind) : (s.pushCtl who k).noDispatch = s.noDispatch := rfl
@[simp] theorem State.pushCtl_seatsZeroed (s : State) (who : Requester) (k : CtlKind) : (s.pushCtl who k).seatsZeroed = s.seatsZeroed := rfl
@[simp] theorem State.pushCtl_storesZeroed (s : State) (who : Requester) (k : CtlKind) : (s.pushCtl who k).storesZeroed = s.storesZeroed := rfl
@[simp] theorem State.pushCtl_ports (s : State) (who : Requester) (k : CtlKind) : (s.pushCtl who k).ports = s.ports := rfl
@[simp] theorem State.pushCtl_stroke (s : State) (who : Requester) (k : CtlKind) : (s.pushCtl who k).stroke = s.stroke := rfl
@[simp] theorem State.pushCtl_ini (s : State) (who : Requester) (k : CtlKind) : (s.pushCtl who k).ini = s.ini := rfl
@[simp] theorem State.pushCtl_rxc (s : State) (who : Requester) (k : CtlKind) : (s.pushCtl who k).rxc = s.rxc := rfl
@[simp] theorem State.pushCtl_limits (s : State) (who : Requester) (k : CtlKind) : (s.pushCtl who k).limits = s.limits := rfl
@[simp] theorem State.pushCtl_ownIn (s : State) (who : Requester) (k : CtlKind) : (s.pushCtl who k).ownIn = s.ownIn := rfl
@[simp] theorem State.pushCtl_dma (s : State) (who : Requester) (k : CtlKind) : (s.pushCtl who k).dma = s.dma := rfl
@[simp] theorem State.pushCtl_pwr (s : State) (who : Requester) (k : CtlKind) : (s.pushCtl who k).pwr = s.pwr := rfl
@[simp] theorem State.pushCtl_killAt (s : State) (who : Requester) (k : CtlKind) : (s.pushCtl who k).killAt = s.killAt := rfl
@[simp] theorem State.pushCtl_zeroPass (s : State) (who : Requester) (k : CtlKind) : (s.pushCtl who k).zeroPass = s.zeroPass := rfl
@[simp] theorem State.pushCtl_fns (s : State) (who : Requester) (k : CtlKind) : (s.pushCtl who k).fns = s.fns := rfl
@[simp] theorem State.pushCtl_hdma (s : State) (who : Requester) (k : CtlKind) : (s.pushCtl who k).hdma = s.hdma := rfl
@[simp] theorem State.pushCtl_vfRegs (s : State) (who : Requester) (k : CtlKind) : (s.pushCtl who k).vfRegs = s.vfRegs := rfl
@[simp] theorem State.pushCtl_vfErr (s : State) (who : Requester) (k : CtlKind) : (s.pushCtl who k).vfErr = s.vfErr := rfl
@[simp] theorem State.pushCtl_perst (s : State) (who : Requester) (k : CtlKind) : (s.pushCtl who k).perst = s.perst := rfl
@[simp] theorem State.pushCtl_link (s : State) (who : Requester) (k : CtlKind) : (s.pushCtl who k).link = s.link := rfl
@[simp] theorem State.pushCtl_aer (s : State) (who : Requester) (k : CtlKind) : (s.pushCtl who k).aer = s.aer := rfl
@[simp] theorem State.pushCtl_fltSeen (s : State) (who : Requester) (k : CtlKind) : (s.pushCtl who k).fltSeen = s.fltSeen := rfl
@[simp] theorem State.pushCtl_warm (s : State) (who : Requester) (k : CtlKind) : (s.pushCtl who k).warm = s.warm := rfl
@[simp] theorem State.pushCtl_crewRst (s : State) (who : Requester) (k : CtlKind) : (s.pushCtl who k).crewRst = s.crewRst := rfl
@[simp] theorem State.pushCtl_bh (s : State) (who : Requester) (k : CtlKind) : (s.pushCtl who k).bh = s.bh := rfl
@[simp] theorem State.pushCtl_ll (s : State) (who : Requester) (k : CtlKind) : (s.pushCtl who k).ll = s.ll := rfl
@[simp] theorem State.pushCtl_out (s : State) (who : Requester) (k : CtlKind) : (s.pushCtl who k).out = s.out := rfl
@[simp] theorem State.pushCtl_pending (s : State) (who : Requester) (k : CtlKind) : (s.pushCtl who k).pending = s.pending := rfl

@[simp] theorem State.setMeshIn_time (s : State) (r i vc : Nat) (ps : List Packet) : (s.setMeshIn r i vc ps).time = s.time := rfl
@[simp] theorem State.setMeshIn_regs (s : State) (r i vc : Nat) (ps : List Packet) : (s.setMeshIn r i vc ps).regs = s.regs := rfl
@[simp] theorem State.setMeshIn_mem (s : State) (r i vc : Nat) (ps : List Packet) : (s.setMeshIn r i vc ps).mem = s.mem := rfl
@[simp] theorem State.setMeshIn_flash (s : State) (r i vc : Nat) (ps : List Packet) : (s.setMeshIn r i vc ps).flash = s.flash := rfl
@[simp] theorem State.setMeshIn_eccOne (s : State) (r i vc : Nat) (ps : List Packet) : (s.setMeshIn r i vc ps).eccOne = s.eccOne := rfl
@[simp] theorem State.setMeshIn_eccTwo (s : State) (r i vc : Nat) (ps : List Packet) : (s.setMeshIn r i vc ps).eccTwo = s.eccTwo := rfl
@[simp] theorem State.setMeshIn_cores (s : State) (r i vc : Nat) (ps : List Packet) : (s.setMeshIn r i vc ps).cores = s.cores := rfl
@[simp] theorem State.setMeshIn_clock (s : State) (r i vc : Nat) (ps : List Packet) : (s.setMeshIn r i vc ps).clock = s.clock := rfl
@[simp] theorem State.setMeshIn_cc (s : State) (r i vc : Nat) (ps : List Packet) : (s.setMeshIn r i vc ps).cc = s.cc := rfl
@[simp] theorem State.setMeshIn_sched (s : State) (r i vc : Nat) (ps : List Packet) : (s.setMeshIn r i vc ps).sched = s.sched := rfl
@[simp] theorem State.setMeshIn_ctl (s : State) (r i vc : Nat) (ps : List Packet) : (s.setMeshIn r i vc ps).ctl = s.ctl := rfl
@[simp] theorem State.setMeshIn_ctlRound (s : State) (r i vc : Nat) (ps : List Packet) : (s.setMeshIn r i vc ps).ctlRound = s.ctlRound := rfl
@[simp] theorem State.setMeshIn_banks (s : State) (r i vc : Nat) (ps : List Packet) : (s.setMeshIn r i vc ps).banks = s.banks := rfl
@[simp] theorem State.setMeshIn_early (s : State) (r i vc : Nat) (ps : List Packet) : (s.setMeshIn r i vc ps).early = s.early := rfl
@[simp] theorem State.setMeshIn_snaps (s : State) (r i vc : Nat) (ps : List Packet) : (s.setMeshIn r i vc ps).snaps = s.snaps := rfl
@[simp] theorem State.setMeshIn_hcasRes (s : State) (r i vc : Nat) (ps : List Packet) : (s.setMeshIn r i vc ps).hcasRes = s.hcasRes := rfl
@[simp] theorem State.setMeshIn_lastRead (s : State) (r i vc : Nat) (ps : List Packet) : (s.setMeshIn r i vc ps).lastRead = s.lastRead := rfl
@[simp] theorem State.setMeshIn_freeCtr (s : State) (r i vc : Nat) (ps : List Packet) : (s.setMeshIn r i vc ps).freeCtr = s.freeCtr := rfl
@[simp] theorem State.setMeshIn_vcOn (s : State) (r i vc : Nat) (ps : List Packet) : (s.setMeshIn r i vc ps).vcOn = s.vcOn := rfl
@[simp] theorem State.setMeshIn_inRst (s : State) (r i vc : Nat) (ps : List Packet) : (s.setMeshIn r i vc ps).inRst = s.inRst := rfl
@[simp] theorem State.setMeshIn_storeOn (s : State) (r i vc : Nat) (ps : List Packet) : (s.setMeshIn r i vc ps).storeOn = s.storeOn := rfl
@[simp] theorem State.setMeshIn_vmeshOn (s : State) (r i vc : Nat) (ps : List Packet) : (s.setMeshIn r i vc ps).vmeshOn = s.vmeshOn := rfl
@[simp] theorem State.setMeshIn_vgwOn (s : State) (r i vc : Nat) (ps : List Packet) : (s.setMeshIn r i vc ps).vgwOn = s.vgwOn := rfl
@[simp] theorem State.setMeshIn_vioOn (s : State) (r i vc : Nat) (ps : List Packet) : (s.setMeshIn r i vc ps).vioOn = s.vioOn := rfl
@[simp] theorem State.setMeshIn_exits (s : State) (r i vc : Nat) (ps : List Packet) : (s.setMeshIn r i vc ps).exits = s.exits := rfl
@[simp] theorem State.setMeshIn_meshHold (s : State) (r i vc : Nat) (ps : List Packet) : (s.setMeshIn r i vc ps).meshHold = s.meshHold := rfl
@[simp] theorem State.setMeshIn_ops (s : State) (r i vc : Nat) (ps : List Packet) : (s.setMeshIn r i vc ps).ops = s.ops := rfl
@[simp] theorem State.setMeshIn_outWrites (s : State) (r i vc : Nat) (ps : List Packet) : (s.setMeshIn r i vc ps).outWrites = s.outWrites := rfl
@[simp] theorem State.setMeshIn_outReads (s : State) (r i vc : Nat) (ps : List Packet) : (s.setMeshIn r i vc ps).outReads = s.outReads := rfl
@[simp] theorem State.setMeshIn_meshWait (s : State) (r i vc : Nat) (ps : List Packet) : (s.setMeshIn r i vc ps).meshWait = s.meshWait := rfl
@[simp] theorem State.setMeshIn_holding (s : State) (r i vc : Nat) (ps : List Packet) : (s.setMeshIn r i vc ps).holding = s.holding := rfl
@[simp] theorem State.setMeshIn_noDispatch (s : State) (r i vc : Nat) (ps : List Packet) : (s.setMeshIn r i vc ps).noDispatch = s.noDispatch := rfl
@[simp] theorem State.setMeshIn_seatsZeroed (s : State) (r i vc : Nat) (ps : List Packet) : (s.setMeshIn r i vc ps).seatsZeroed = s.seatsZeroed := rfl
@[simp] theorem State.setMeshIn_storesZeroed (s : State) (r i vc : Nat) (ps : List Packet) : (s.setMeshIn r i vc ps).storesZeroed = s.storesZeroed := rfl
@[simp] theorem State.setMeshIn_ports (s : State) (r i vc : Nat) (ps : List Packet) : (s.setMeshIn r i vc ps).ports = s.ports := rfl
@[simp] theorem State.setMeshIn_stroke (s : State) (r i vc : Nat) (ps : List Packet) : (s.setMeshIn r i vc ps).stroke = s.stroke := rfl
@[simp] theorem State.setMeshIn_ini (s : State) (r i vc : Nat) (ps : List Packet) : (s.setMeshIn r i vc ps).ini = s.ini := rfl
@[simp] theorem State.setMeshIn_rxc (s : State) (r i vc : Nat) (ps : List Packet) : (s.setMeshIn r i vc ps).rxc = s.rxc := rfl
@[simp] theorem State.setMeshIn_limits (s : State) (r i vc : Nat) (ps : List Packet) : (s.setMeshIn r i vc ps).limits = s.limits := rfl
@[simp] theorem State.setMeshIn_ownIn (s : State) (r i vc : Nat) (ps : List Packet) : (s.setMeshIn r i vc ps).ownIn = s.ownIn := rfl
@[simp] theorem State.setMeshIn_dma (s : State) (r i vc : Nat) (ps : List Packet) : (s.setMeshIn r i vc ps).dma = s.dma := rfl
@[simp] theorem State.setMeshIn_pwr (s : State) (r i vc : Nat) (ps : List Packet) : (s.setMeshIn r i vc ps).pwr = s.pwr := rfl
@[simp] theorem State.setMeshIn_killAt (s : State) (r i vc : Nat) (ps : List Packet) : (s.setMeshIn r i vc ps).killAt = s.killAt := rfl
@[simp] theorem State.setMeshIn_zeroPass (s : State) (r i vc : Nat) (ps : List Packet) : (s.setMeshIn r i vc ps).zeroPass = s.zeroPass := rfl
@[simp] theorem State.setMeshIn_fns (s : State) (r i vc : Nat) (ps : List Packet) : (s.setMeshIn r i vc ps).fns = s.fns := rfl
@[simp] theorem State.setMeshIn_hdma (s : State) (r i vc : Nat) (ps : List Packet) : (s.setMeshIn r i vc ps).hdma = s.hdma := rfl
@[simp] theorem State.setMeshIn_vfRegs (s : State) (r i vc : Nat) (ps : List Packet) : (s.setMeshIn r i vc ps).vfRegs = s.vfRegs := rfl
@[simp] theorem State.setMeshIn_vfErr (s : State) (r i vc : Nat) (ps : List Packet) : (s.setMeshIn r i vc ps).vfErr = s.vfErr := rfl
@[simp] theorem State.setMeshIn_perst (s : State) (r i vc : Nat) (ps : List Packet) : (s.setMeshIn r i vc ps).perst = s.perst := rfl
@[simp] theorem State.setMeshIn_link (s : State) (r i vc : Nat) (ps : List Packet) : (s.setMeshIn r i vc ps).link = s.link := rfl
@[simp] theorem State.setMeshIn_aer (s : State) (r i vc : Nat) (ps : List Packet) : (s.setMeshIn r i vc ps).aer = s.aer := rfl
@[simp] theorem State.setMeshIn_fltSeen (s : State) (r i vc : Nat) (ps : List Packet) : (s.setMeshIn r i vc ps).fltSeen = s.fltSeen := rfl
@[simp] theorem State.setMeshIn_warm (s : State) (r i vc : Nat) (ps : List Packet) : (s.setMeshIn r i vc ps).warm = s.warm := rfl
@[simp] theorem State.setMeshIn_crewRst (s : State) (r i vc : Nat) (ps : List Packet) : (s.setMeshIn r i vc ps).crewRst = s.crewRst := rfl
@[simp] theorem State.setMeshIn_bh (s : State) (r i vc : Nat) (ps : List Packet) : (s.setMeshIn r i vc ps).bh = s.bh := rfl
@[simp] theorem State.setMeshIn_ll (s : State) (r i vc : Nat) (ps : List Packet) : (s.setMeshIn r i vc ps).ll = s.ll := rfl
@[simp] theorem State.setMeshIn_out (s : State) (r i vc : Nat) (ps : List Packet) : (s.setMeshIn r i vc ps).out = s.out := rfl
@[simp] theorem State.setMeshIn_pending (s : State) (r i vc : Nat) (ps : List Packet) : (s.setMeshIn r i vc ps).pending = s.pending := rfl

@[simp] theorem State.setReads_time (s : State) (c : CoreId) (l : List OutRead) : (s.setReads c l).time = s.time := rfl
@[simp] theorem State.setReads_regs (s : State) (c : CoreId) (l : List OutRead) : (s.setReads c l).regs = s.regs := rfl
@[simp] theorem State.setReads_mem (s : State) (c : CoreId) (l : List OutRead) : (s.setReads c l).mem = s.mem := rfl
@[simp] theorem State.setReads_flash (s : State) (c : CoreId) (l : List OutRead) : (s.setReads c l).flash = s.flash := rfl
@[simp] theorem State.setReads_eccOne (s : State) (c : CoreId) (l : List OutRead) : (s.setReads c l).eccOne = s.eccOne := rfl
@[simp] theorem State.setReads_eccTwo (s : State) (c : CoreId) (l : List OutRead) : (s.setReads c l).eccTwo = s.eccTwo := rfl
@[simp] theorem State.setReads_cores (s : State) (c : CoreId) (l : List OutRead) : (s.setReads c l).cores = s.cores := rfl
@[simp] theorem State.setReads_clock (s : State) (c : CoreId) (l : List OutRead) : (s.setReads c l).clock = s.clock := rfl
@[simp] theorem State.setReads_cc (s : State) (c : CoreId) (l : List OutRead) : (s.setReads c l).cc = s.cc := rfl
@[simp] theorem State.setReads_sched (s : State) (c : CoreId) (l : List OutRead) : (s.setReads c l).sched = s.sched := rfl
@[simp] theorem State.setReads_ctl (s : State) (c : CoreId) (l : List OutRead) : (s.setReads c l).ctl = s.ctl := rfl
@[simp] theorem State.setReads_ctlRound (s : State) (c : CoreId) (l : List OutRead) : (s.setReads c l).ctlRound = s.ctlRound := rfl
@[simp] theorem State.setReads_banks (s : State) (c : CoreId) (l : List OutRead) : (s.setReads c l).banks = s.banks := rfl
@[simp] theorem State.setReads_early (s : State) (c : CoreId) (l : List OutRead) : (s.setReads c l).early = s.early := rfl
@[simp] theorem State.setReads_snaps (s : State) (c : CoreId) (l : List OutRead) : (s.setReads c l).snaps = s.snaps := rfl
@[simp] theorem State.setReads_hcasRes (s : State) (c : CoreId) (l : List OutRead) : (s.setReads c l).hcasRes = s.hcasRes := rfl
@[simp] theorem State.setReads_lastRead (s : State) (c : CoreId) (l : List OutRead) : (s.setReads c l).lastRead = s.lastRead := rfl
@[simp] theorem State.setReads_freeCtr (s : State) (c : CoreId) (l : List OutRead) : (s.setReads c l).freeCtr = s.freeCtr := rfl
@[simp] theorem State.setReads_vcOn (s : State) (c : CoreId) (l : List OutRead) : (s.setReads c l).vcOn = s.vcOn := rfl
@[simp] theorem State.setReads_inRst (s : State) (c : CoreId) (l : List OutRead) : (s.setReads c l).inRst = s.inRst := rfl
@[simp] theorem State.setReads_storeOn (s : State) (c : CoreId) (l : List OutRead) : (s.setReads c l).storeOn = s.storeOn := rfl
@[simp] theorem State.setReads_vmeshOn (s : State) (c : CoreId) (l : List OutRead) : (s.setReads c l).vmeshOn = s.vmeshOn := rfl
@[simp] theorem State.setReads_vgwOn (s : State) (c : CoreId) (l : List OutRead) : (s.setReads c l).vgwOn = s.vgwOn := rfl
@[simp] theorem State.setReads_vioOn (s : State) (c : CoreId) (l : List OutRead) : (s.setReads c l).vioOn = s.vioOn := rfl
@[simp] theorem State.setReads_routers (s : State) (c : CoreId) (l : List OutRead) : (s.setReads c l).routers = s.routers := rfl
@[simp] theorem State.setReads_exits (s : State) (c : CoreId) (l : List OutRead) : (s.setReads c l).exits = s.exits := rfl
@[simp] theorem State.setReads_meshHold (s : State) (c : CoreId) (l : List OutRead) : (s.setReads c l).meshHold = s.meshHold := rfl
@[simp] theorem State.setReads_ops (s : State) (c : CoreId) (l : List OutRead) : (s.setReads c l).ops = s.ops := rfl
@[simp] theorem State.setReads_outWrites (s : State) (c : CoreId) (l : List OutRead) : (s.setReads c l).outWrites = s.outWrites := rfl
@[simp] theorem State.setReads_meshWait (s : State) (c : CoreId) (l : List OutRead) : (s.setReads c l).meshWait = s.meshWait := rfl
@[simp] theorem State.setReads_holding (s : State) (c : CoreId) (l : List OutRead) : (s.setReads c l).holding = s.holding := rfl
@[simp] theorem State.setReads_noDispatch (s : State) (c : CoreId) (l : List OutRead) : (s.setReads c l).noDispatch = s.noDispatch := rfl
@[simp] theorem State.setReads_seatsZeroed (s : State) (c : CoreId) (l : List OutRead) : (s.setReads c l).seatsZeroed = s.seatsZeroed := rfl
@[simp] theorem State.setReads_storesZeroed (s : State) (c : CoreId) (l : List OutRead) : (s.setReads c l).storesZeroed = s.storesZeroed := rfl
@[simp] theorem State.setReads_ports (s : State) (c : CoreId) (l : List OutRead) : (s.setReads c l).ports = s.ports := rfl
@[simp] theorem State.setReads_stroke (s : State) (c : CoreId) (l : List OutRead) : (s.setReads c l).stroke = s.stroke := rfl
@[simp] theorem State.setReads_ini (s : State) (c : CoreId) (l : List OutRead) : (s.setReads c l).ini = s.ini := rfl
@[simp] theorem State.setReads_rxc (s : State) (c : CoreId) (l : List OutRead) : (s.setReads c l).rxc = s.rxc := rfl
@[simp] theorem State.setReads_limits (s : State) (c : CoreId) (l : List OutRead) : (s.setReads c l).limits = s.limits := rfl
@[simp] theorem State.setReads_ownIn (s : State) (c : CoreId) (l : List OutRead) : (s.setReads c l).ownIn = s.ownIn := rfl
@[simp] theorem State.setReads_dma (s : State) (c : CoreId) (l : List OutRead) : (s.setReads c l).dma = s.dma := rfl
@[simp] theorem State.setReads_pwr (s : State) (c : CoreId) (l : List OutRead) : (s.setReads c l).pwr = s.pwr := rfl
@[simp] theorem State.setReads_killAt (s : State) (c : CoreId) (l : List OutRead) : (s.setReads c l).killAt = s.killAt := rfl
@[simp] theorem State.setReads_zeroPass (s : State) (c : CoreId) (l : List OutRead) : (s.setReads c l).zeroPass = s.zeroPass := rfl
@[simp] theorem State.setReads_fns (s : State) (c : CoreId) (l : List OutRead) : (s.setReads c l).fns = s.fns := rfl
@[simp] theorem State.setReads_hdma (s : State) (c : CoreId) (l : List OutRead) : (s.setReads c l).hdma = s.hdma := rfl
@[simp] theorem State.setReads_vfRegs (s : State) (c : CoreId) (l : List OutRead) : (s.setReads c l).vfRegs = s.vfRegs := rfl
@[simp] theorem State.setReads_vfErr (s : State) (c : CoreId) (l : List OutRead) : (s.setReads c l).vfErr = s.vfErr := rfl
@[simp] theorem State.setReads_perst (s : State) (c : CoreId) (l : List OutRead) : (s.setReads c l).perst = s.perst := rfl
@[simp] theorem State.setReads_link (s : State) (c : CoreId) (l : List OutRead) : (s.setReads c l).link = s.link := rfl
@[simp] theorem State.setReads_aer (s : State) (c : CoreId) (l : List OutRead) : (s.setReads c l).aer = s.aer := rfl
@[simp] theorem State.setReads_fltSeen (s : State) (c : CoreId) (l : List OutRead) : (s.setReads c l).fltSeen = s.fltSeen := rfl
@[simp] theorem State.setReads_warm (s : State) (c : CoreId) (l : List OutRead) : (s.setReads c l).warm = s.warm := rfl
@[simp] theorem State.setReads_crewRst (s : State) (c : CoreId) (l : List OutRead) : (s.setReads c l).crewRst = s.crewRst := rfl
@[simp] theorem State.setReads_bh (s : State) (c : CoreId) (l : List OutRead) : (s.setReads c l).bh = s.bh := rfl
@[simp] theorem State.setReads_ll (s : State) (c : CoreId) (l : List OutRead) : (s.setReads c l).ll = s.ll := rfl
@[simp] theorem State.setReads_out (s : State) (c : CoreId) (l : List OutRead) : (s.setReads c l).out = s.out := rfl
@[simp] theorem State.setReads_pending (s : State) (c : CoreId) (l : List OutRead) : (s.setReads c l).pending = s.pending := rfl

@[simp] theorem State.ctlServed_time (s : State) (who : Requester) : (s.ctlServed who).time = s.time := rfl
@[simp] theorem State.ctlServed_regs (s : State) (who : Requester) : (s.ctlServed who).regs = s.regs := rfl
@[simp] theorem State.ctlServed_mem (s : State) (who : Requester) : (s.ctlServed who).mem = s.mem := rfl
@[simp] theorem State.ctlServed_flash (s : State) (who : Requester) : (s.ctlServed who).flash = s.flash := rfl
@[simp] theorem State.ctlServed_eccOne (s : State) (who : Requester) : (s.ctlServed who).eccOne = s.eccOne := rfl
@[simp] theorem State.ctlServed_eccTwo (s : State) (who : Requester) : (s.ctlServed who).eccTwo = s.eccTwo := rfl
@[simp] theorem State.ctlServed_cores (s : State) (who : Requester) : (s.ctlServed who).cores = s.cores := rfl
@[simp] theorem State.ctlServed_clock (s : State) (who : Requester) : (s.ctlServed who).clock = s.clock := rfl
@[simp] theorem State.ctlServed_cc (s : State) (who : Requester) : (s.ctlServed who).cc = s.cc := rfl
@[simp] theorem State.ctlServed_sched (s : State) (who : Requester) : (s.ctlServed who).sched = s.sched := rfl
@[simp] theorem State.ctlServed_ctl (s : State) (who : Requester) : (s.ctlServed who).ctl = s.ctl := rfl
@[simp] theorem State.ctlServed_banks (s : State) (who : Requester) : (s.ctlServed who).banks = s.banks := rfl
@[simp] theorem State.ctlServed_early (s : State) (who : Requester) : (s.ctlServed who).early = s.early := rfl
@[simp] theorem State.ctlServed_snaps (s : State) (who : Requester) : (s.ctlServed who).snaps = s.snaps := rfl
@[simp] theorem State.ctlServed_hcasRes (s : State) (who : Requester) : (s.ctlServed who).hcasRes = s.hcasRes := rfl
@[simp] theorem State.ctlServed_lastRead (s : State) (who : Requester) : (s.ctlServed who).lastRead = s.lastRead := rfl
@[simp] theorem State.ctlServed_freeCtr (s : State) (who : Requester) : (s.ctlServed who).freeCtr = s.freeCtr := rfl
@[simp] theorem State.ctlServed_vcOn (s : State) (who : Requester) : (s.ctlServed who).vcOn = s.vcOn := rfl
@[simp] theorem State.ctlServed_inRst (s : State) (who : Requester) : (s.ctlServed who).inRst = s.inRst := rfl
@[simp] theorem State.ctlServed_storeOn (s : State) (who : Requester) : (s.ctlServed who).storeOn = s.storeOn := rfl
@[simp] theorem State.ctlServed_vmeshOn (s : State) (who : Requester) : (s.ctlServed who).vmeshOn = s.vmeshOn := rfl
@[simp] theorem State.ctlServed_vgwOn (s : State) (who : Requester) : (s.ctlServed who).vgwOn = s.vgwOn := rfl
@[simp] theorem State.ctlServed_vioOn (s : State) (who : Requester) : (s.ctlServed who).vioOn = s.vioOn := rfl
@[simp] theorem State.ctlServed_routers (s : State) (who : Requester) : (s.ctlServed who).routers = s.routers := rfl
@[simp] theorem State.ctlServed_exits (s : State) (who : Requester) : (s.ctlServed who).exits = s.exits := rfl
@[simp] theorem State.ctlServed_meshHold (s : State) (who : Requester) : (s.ctlServed who).meshHold = s.meshHold := rfl
@[simp] theorem State.ctlServed_ops (s : State) (who : Requester) : (s.ctlServed who).ops = s.ops := rfl
@[simp] theorem State.ctlServed_outWrites (s : State) (who : Requester) : (s.ctlServed who).outWrites = s.outWrites := rfl
@[simp] theorem State.ctlServed_outReads (s : State) (who : Requester) : (s.ctlServed who).outReads = s.outReads := rfl
@[simp] theorem State.ctlServed_meshWait (s : State) (who : Requester) : (s.ctlServed who).meshWait = s.meshWait := rfl
@[simp] theorem State.ctlServed_holding (s : State) (who : Requester) : (s.ctlServed who).holding = s.holding := rfl
@[simp] theorem State.ctlServed_noDispatch (s : State) (who : Requester) : (s.ctlServed who).noDispatch = s.noDispatch := rfl
@[simp] theorem State.ctlServed_seatsZeroed (s : State) (who : Requester) : (s.ctlServed who).seatsZeroed = s.seatsZeroed := rfl
@[simp] theorem State.ctlServed_storesZeroed (s : State) (who : Requester) : (s.ctlServed who).storesZeroed = s.storesZeroed := rfl
@[simp] theorem State.ctlServed_ports (s : State) (who : Requester) : (s.ctlServed who).ports = s.ports := rfl
@[simp] theorem State.ctlServed_stroke (s : State) (who : Requester) : (s.ctlServed who).stroke = s.stroke := rfl
@[simp] theorem State.ctlServed_ini (s : State) (who : Requester) : (s.ctlServed who).ini = s.ini := rfl
@[simp] theorem State.ctlServed_rxc (s : State) (who : Requester) : (s.ctlServed who).rxc = s.rxc := rfl
@[simp] theorem State.ctlServed_limits (s : State) (who : Requester) : (s.ctlServed who).limits = s.limits := rfl
@[simp] theorem State.ctlServed_ownIn (s : State) (who : Requester) : (s.ctlServed who).ownIn = s.ownIn := rfl
@[simp] theorem State.ctlServed_dma (s : State) (who : Requester) : (s.ctlServed who).dma = s.dma := rfl
@[simp] theorem State.ctlServed_pwr (s : State) (who : Requester) : (s.ctlServed who).pwr = s.pwr := rfl
@[simp] theorem State.ctlServed_killAt (s : State) (who : Requester) : (s.ctlServed who).killAt = s.killAt := rfl
@[simp] theorem State.ctlServed_zeroPass (s : State) (who : Requester) : (s.ctlServed who).zeroPass = s.zeroPass := rfl
@[simp] theorem State.ctlServed_fns (s : State) (who : Requester) : (s.ctlServed who).fns = s.fns := rfl
@[simp] theorem State.ctlServed_hdma (s : State) (who : Requester) : (s.ctlServed who).hdma = s.hdma := rfl
@[simp] theorem State.ctlServed_vfRegs (s : State) (who : Requester) : (s.ctlServed who).vfRegs = s.vfRegs := rfl
@[simp] theorem State.ctlServed_vfErr (s : State) (who : Requester) : (s.ctlServed who).vfErr = s.vfErr := rfl
@[simp] theorem State.ctlServed_perst (s : State) (who : Requester) : (s.ctlServed who).perst = s.perst := rfl
@[simp] theorem State.ctlServed_link (s : State) (who : Requester) : (s.ctlServed who).link = s.link := rfl
@[simp] theorem State.ctlServed_aer (s : State) (who : Requester) : (s.ctlServed who).aer = s.aer := rfl
@[simp] theorem State.ctlServed_fltSeen (s : State) (who : Requester) : (s.ctlServed who).fltSeen = s.fltSeen := rfl
@[simp] theorem State.ctlServed_warm (s : State) (who : Requester) : (s.ctlServed who).warm = s.warm := rfl
@[simp] theorem State.ctlServed_crewRst (s : State) (who : Requester) : (s.ctlServed who).crewRst = s.crewRst := rfl
@[simp] theorem State.ctlServed_bh (s : State) (who : Requester) : (s.ctlServed who).bh = s.bh := rfl
@[simp] theorem State.ctlServed_ll (s : State) (who : Requester) : (s.ctlServed who).ll = s.ll := rfl
@[simp] theorem State.ctlServed_out (s : State) (who : Requester) : (s.ctlServed who).out = s.out := rfl
@[simp] theorem State.ctlServed_pending (s : State) (who : Requester) : (s.ctlServed who).pending = s.pending := rfl

@[simp] theorem State.dropExit_time (s : State) (c : CoreId) (p : Packet) : (s.dropExit c p).time = s.time := rfl
@[simp] theorem State.dropExit_regs (s : State) (c : CoreId) (p : Packet) : (s.dropExit c p).regs = s.regs := rfl
@[simp] theorem State.dropExit_mem (s : State) (c : CoreId) (p : Packet) : (s.dropExit c p).mem = s.mem := rfl
@[simp] theorem State.dropExit_flash (s : State) (c : CoreId) (p : Packet) : (s.dropExit c p).flash = s.flash := rfl
@[simp] theorem State.dropExit_eccOne (s : State) (c : CoreId) (p : Packet) : (s.dropExit c p).eccOne = s.eccOne := rfl
@[simp] theorem State.dropExit_eccTwo (s : State) (c : CoreId) (p : Packet) : (s.dropExit c p).eccTwo = s.eccTwo := rfl
@[simp] theorem State.dropExit_cores (s : State) (c : CoreId) (p : Packet) : (s.dropExit c p).cores = s.cores := rfl
@[simp] theorem State.dropExit_clock (s : State) (c : CoreId) (p : Packet) : (s.dropExit c p).clock = s.clock := rfl
@[simp] theorem State.dropExit_cc (s : State) (c : CoreId) (p : Packet) : (s.dropExit c p).cc = s.cc := rfl
@[simp] theorem State.dropExit_sched (s : State) (c : CoreId) (p : Packet) : (s.dropExit c p).sched = s.sched := rfl
@[simp] theorem State.dropExit_ctl (s : State) (c : CoreId) (p : Packet) : (s.dropExit c p).ctl = s.ctl := rfl
@[simp] theorem State.dropExit_ctlRound (s : State) (c : CoreId) (p : Packet) : (s.dropExit c p).ctlRound = s.ctlRound := rfl
@[simp] theorem State.dropExit_banks (s : State) (c : CoreId) (p : Packet) : (s.dropExit c p).banks = s.banks := rfl
@[simp] theorem State.dropExit_early (s : State) (c : CoreId) (p : Packet) : (s.dropExit c p).early = s.early := rfl
@[simp] theorem State.dropExit_snaps (s : State) (c : CoreId) (p : Packet) : (s.dropExit c p).snaps = s.snaps := rfl
@[simp] theorem State.dropExit_hcasRes (s : State) (c : CoreId) (p : Packet) : (s.dropExit c p).hcasRes = s.hcasRes := rfl
@[simp] theorem State.dropExit_lastRead (s : State) (c : CoreId) (p : Packet) : (s.dropExit c p).lastRead = s.lastRead := rfl
@[simp] theorem State.dropExit_freeCtr (s : State) (c : CoreId) (p : Packet) : (s.dropExit c p).freeCtr = s.freeCtr := rfl
@[simp] theorem State.dropExit_vcOn (s : State) (c : CoreId) (p : Packet) : (s.dropExit c p).vcOn = s.vcOn := rfl
@[simp] theorem State.dropExit_inRst (s : State) (c : CoreId) (p : Packet) : (s.dropExit c p).inRst = s.inRst := rfl
@[simp] theorem State.dropExit_storeOn (s : State) (c : CoreId) (p : Packet) : (s.dropExit c p).storeOn = s.storeOn := rfl
@[simp] theorem State.dropExit_vmeshOn (s : State) (c : CoreId) (p : Packet) : (s.dropExit c p).vmeshOn = s.vmeshOn := rfl
@[simp] theorem State.dropExit_vgwOn (s : State) (c : CoreId) (p : Packet) : (s.dropExit c p).vgwOn = s.vgwOn := rfl
@[simp] theorem State.dropExit_vioOn (s : State) (c : CoreId) (p : Packet) : (s.dropExit c p).vioOn = s.vioOn := rfl
@[simp] theorem State.dropExit_routers (s : State) (c : CoreId) (p : Packet) : (s.dropExit c p).routers = s.routers := rfl
@[simp] theorem State.dropExit_meshHold (s : State) (c : CoreId) (p : Packet) : (s.dropExit c p).meshHold = s.meshHold := rfl
@[simp] theorem State.dropExit_ops (s : State) (c : CoreId) (p : Packet) : (s.dropExit c p).ops = s.ops := rfl
@[simp] theorem State.dropExit_outWrites (s : State) (c : CoreId) (p : Packet) : (s.dropExit c p).outWrites = s.outWrites := rfl
@[simp] theorem State.dropExit_outReads (s : State) (c : CoreId) (p : Packet) : (s.dropExit c p).outReads = s.outReads := rfl
@[simp] theorem State.dropExit_meshWait (s : State) (c : CoreId) (p : Packet) : (s.dropExit c p).meshWait = s.meshWait := rfl
@[simp] theorem State.dropExit_holding (s : State) (c : CoreId) (p : Packet) : (s.dropExit c p).holding = s.holding := rfl
@[simp] theorem State.dropExit_noDispatch (s : State) (c : CoreId) (p : Packet) : (s.dropExit c p).noDispatch = s.noDispatch := rfl
@[simp] theorem State.dropExit_seatsZeroed (s : State) (c : CoreId) (p : Packet) : (s.dropExit c p).seatsZeroed = s.seatsZeroed := rfl
@[simp] theorem State.dropExit_storesZeroed (s : State) (c : CoreId) (p : Packet) : (s.dropExit c p).storesZeroed = s.storesZeroed := rfl
@[simp] theorem State.dropExit_ports (s : State) (c : CoreId) (p : Packet) : (s.dropExit c p).ports = s.ports := rfl
@[simp] theorem State.dropExit_stroke (s : State) (c : CoreId) (p : Packet) : (s.dropExit c p).stroke = s.stroke := rfl
@[simp] theorem State.dropExit_ini (s : State) (c : CoreId) (p : Packet) : (s.dropExit c p).ini = s.ini := rfl
@[simp] theorem State.dropExit_rxc (s : State) (c : CoreId) (p : Packet) : (s.dropExit c p).rxc = s.rxc := rfl
@[simp] theorem State.dropExit_limits (s : State) (c : CoreId) (p : Packet) : (s.dropExit c p).limits = s.limits := rfl
@[simp] theorem State.dropExit_ownIn (s : State) (c : CoreId) (p : Packet) : (s.dropExit c p).ownIn = s.ownIn := rfl
@[simp] theorem State.dropExit_dma (s : State) (c : CoreId) (p : Packet) : (s.dropExit c p).dma = s.dma := rfl
@[simp] theorem State.dropExit_pwr (s : State) (c : CoreId) (p : Packet) : (s.dropExit c p).pwr = s.pwr := rfl
@[simp] theorem State.dropExit_killAt (s : State) (c : CoreId) (p : Packet) : (s.dropExit c p).killAt = s.killAt := rfl
@[simp] theorem State.dropExit_zeroPass (s : State) (c : CoreId) (p : Packet) : (s.dropExit c p).zeroPass = s.zeroPass := rfl
@[simp] theorem State.dropExit_fns (s : State) (c : CoreId) (p : Packet) : (s.dropExit c p).fns = s.fns := rfl
@[simp] theorem State.dropExit_hdma (s : State) (c : CoreId) (p : Packet) : (s.dropExit c p).hdma = s.hdma := rfl
@[simp] theorem State.dropExit_vfRegs (s : State) (c : CoreId) (p : Packet) : (s.dropExit c p).vfRegs = s.vfRegs := rfl
@[simp] theorem State.dropExit_vfErr (s : State) (c : CoreId) (p : Packet) : (s.dropExit c p).vfErr = s.vfErr := rfl
@[simp] theorem State.dropExit_perst (s : State) (c : CoreId) (p : Packet) : (s.dropExit c p).perst = s.perst := rfl
@[simp] theorem State.dropExit_link (s : State) (c : CoreId) (p : Packet) : (s.dropExit c p).link = s.link := rfl
@[simp] theorem State.dropExit_aer (s : State) (c : CoreId) (p : Packet) : (s.dropExit c p).aer = s.aer := rfl
@[simp] theorem State.dropExit_fltSeen (s : State) (c : CoreId) (p : Packet) : (s.dropExit c p).fltSeen = s.fltSeen := rfl
@[simp] theorem State.dropExit_warm (s : State) (c : CoreId) (p : Packet) : (s.dropExit c p).warm = s.warm := rfl
@[simp] theorem State.dropExit_crewRst (s : State) (c : CoreId) (p : Packet) : (s.dropExit c p).crewRst = s.crewRst := rfl
@[simp] theorem State.dropExit_bh (s : State) (c : CoreId) (p : Packet) : (s.dropExit c p).bh = s.bh := rfl
@[simp] theorem State.dropExit_ll (s : State) (c : CoreId) (p : Packet) : (s.dropExit c p).ll = s.ll := rfl
@[simp] theorem State.dropExit_out (s : State) (c : CoreId) (p : Packet) : (s.dropExit c p).out = s.out := rfl
@[simp] theorem State.dropExit_pending (s : State) (c : CoreId) (p : Packet) : (s.dropExit c p).pending = s.pending := rfl

end Sys2Proof.Machine
end

