-- ==== Sys2Proof/WellFormed.lean ====
section
/-! DEFINITION. Which commands are well formed: the limits of their operands that the operand types do not already set. -/
namespace Sys2Proof

/-- A 32-bit access of register space names an even word address (R43). -/
def evenWord (a : Nat) (wide : Bool) : Bool := !wide || a % 2 == 0

/-- A host request lies in its BAR (R480) or in the 4 KiB of a configuration space, touches at least one doubleword, has no enables of a last doubleword beside the first
when it touches one, and carries as many doublewords as it writes (R60). -/
def HostReq.ok (r : HostReq) : Bool :=
  decide (1 ≤ r.len) && decide (r.dw + r.len ≤ match r.space with | .bar2 => 1024 | .config => 1024 | _ => 2147483648) && (r.len != 1 || r.last == 0) &&
  (match r.write with | some ds => ds.length == r.len | none => true)

/-- A flit has room for 123 words of payload (R293). -/
def Flit.ok (f : Flit) : Bool := decide (f.payload.length ≤ 123) && decide (f.fixed.length ≤ 8)

/-- A list that gives each crew its entry (R17). -/
def perCrew {α : Type} (l : List α) : Bool := l.length == 96

/-- The draw of a section in mW: VSTORE and VGW are powered in sections of at most 8 W (R471). -/
def drawOk (sec : Section) (draw : Nat) : Bool :=
  match sec with
  | .vstore _ => decide (draw ≤ 8000)
  | .vgw _ => decide (draw ≤ 8000)
  | .vmesh => true
  | .vc _ => true

/-- A command's operands lie in their ranges; the commands not named have operands that their types limit. -/
def wellFormed (i : Instr) : Bool :=
  match i with
  | .registerWrite _ a wide _ => evenWord a.toNat wide
  | .clearingRead _ a wide => evenWord a.toNat wide
  | .aliasRead _ a wide => evenWord a.toNat wide
  | .aliasWrite _ a wide _ => evenWord a.toNat wide
  | .peekWrite _ a wide _ => evenWord a.toNat wide
  | .hostRequest r => r.ok
  | .vfAccess _ r => r.ok
  | .syncFlit _ f => f.ok
  | .dataFlit _ f => f.ok
  | .idleFlit _ f => f.ok
  | .currentReport _ _ _ _ _ crews => perCrew crews
  | .limiterStep _ _ crews => perCrew crews
  | .thermalStep temps => perCrew temps
  | .governorPeriod g => perCrew g.shares && perCrew g.ceils && (match g.off with | some x => drawOk x.1 x.2 | none => true)
  | .trim t => perCrew t.clk && perCrew t.bal
  | .domainSectionPowerUp sec draw => drawOk sec draw
  | .hdmaDescriptorFetch _ (some d) => d.length == 32
  | .firmwareUpdate image => decide (image.length ≤ 0xE00000)
  | _ => true

end Sys2Proof
end

