-- ==== Sys2Proof/Tests/Slice0.lean ====
section
/-! SUPPORT. Tests of single commands on small states, with results worked out from the rules, and for every statement a state
and operands that meet its hypotheses. -/
namespace Sys2Proof.Tests
open Sys2Proof Sys2Proof.Machine
set_option Elab.async false

/-! ## Small states -/

/-- All crews, stores, the mesh and the link domains powered and out of reset. -/
def base : State :=
  { State.reset with vcOn := BitVec.allOnes 96, storeOn := BitVec.allOnes 96, inRst := 0, vmeshOn := true,
                     vgwOn := BitVec.allOnes 16, vioOn := true }

/-- So long, in ns, after VBH power-on. -/
def up (ns : Nat) (s : State) : State := { s with clock := [(96, 4 * ns)] }

/-- A seat, a control core, and the boathouse core. -/
def s0 : CoreId := .seat 0 0
def x0 : CoreId := .cox 0
def bh : CoreId := .boathouse

/-- A core that executes instructions at `pc`. -/
def ready (pc : Addr) : Machine.Core := { Core.reset false .running with pc := pc }

/-- `base` with seat 0 of crew 0 running. -/
def run (f : Machine.Core → Machine.Core) : State := base.setCore s0 (f (ready 0x100))

/-- What a command leaves, looked at by f; none unless it answers a next state. -/
def after {α : Type} (i : Instr) (s : State) (f : State → α) : Option α :=
  match exec i s with
  | .next t => some (f t)
  | _ => none

/-- An instruction stands at the pc of core c. -/
def ins (c : CoreId) (i : Instr) (s : State) : State :=
  match s.resolve c (s.core c).pc.toNat with
  | .mem w => s.writeWords [(w, i.word.setWidth 16), (w + 1, (i.word >>> 16).setWidth 16)]
  | _ => s

/-- What an instruction that stands at the pc of core c leaves. -/
def on {α : Type} (c : CoreId) (i : Instr) (s : State) (f : State → α) : Option α := after i (ins c i s) f

/-- An access that is carried out ends in a state. -/
theorem AccRes.ok_of {r : AccRes} (h : (match r with | .ok _ => true | _ => false) = true) : ∃ t, r = .ok t := by
  cases r <;> simp at h ⊢

/-- A read that answers ends in a state and a value. -/
theorem NowRes.ok_of {r : NowRes} (h : (match r with | .ok _ _ => true | _ => false) = true) : ∃ t v, r = .ok t v := by
  cases r <;> simp at h ⊢

/-- An element that is carried out ends in a state. -/
theorem ElemRes.next_of {r : ElemRes} (h : (match r with | .next _ => true | _ => false) = true) : ∃ t, r = .next t := by
  cases r <;> simp at h ⊢

/-! ## Scalar instructions (spec/04) -/

/-- w1 and the flags VCNZ (bits 3:0 of CST) after an instruction on a seat with w2, w3 and the flags before it. -/
def sc (i : Instr) (x y : Word) (flags : Word := 0) : Option (Word × Word) :=
  on s0 i (run (fun k => { ((k.setW 1 0x5A5A).setW 2 x).setW 3 y with cst := flags }))
    (fun t => ((t.core s0).rw 1, (t.core s0).cst &&& 0xF))

/-- a1 after an instruction on a seat with a2, a3 and w2, w3. -/
def sa (i : Instr) (p q : Addr) (x y : Word) : Option Addr :=
  on s0 i (run (fun k => ((((k.setA 1 0x12345678).setA 2 p).setA 3 q).setW 2 x).setW 3 y)) (fun t => (t.core s0).ra 1)

theorem witness_step : base.pending = [] ∧ ({ base with pending := [.catchInstant] } : State).pending = [.catchInstant] := by decide

/-- An instruction stands at the pc of a core that is able to carry it out: of a seat, of a control core, of the boathouse core. -/
theorem witness_holds_seat :
    (ins s0 (.add s0 1 2 3) (run id)).holds s0 (.add s0 1 2 3) ∧ (ins s0 (.add s0 1 2 3) (run id)).able s0 [1, 2, 3] [] [] ∧
    (run id).codeInMemory s0 := by
  unfold State.holds State.able State.codeInMemory
  refine ⟨by decide +kernel, by decide +kernel, ?_⟩
  rw [show (run id).access s0 ((run id).core s0).pc.toNat false = .mem 0x10000100 from by decide +kernel]
  intro r h
  cases h

theorem witness_holds_cox :
    (ins (.cox 0) (.reti (.cox 0)) (base.setCore (.cox 0) (ready 0x100100))).holds (.cox 0) (.reti (.cox 0)) := by
  unfold State.holds; decide +kernel

theorem witness_holds_boathouse :
    (ins .boathouse (.nop .boathouse) (base.setCore .boathouse (ready 0x08000100))).holds .boathouse (.nop .boathouse) := by
  unfold State.holds; decide +kernel

theorem witness_able_seat : (run id).able s0 [1, 2, 3] [0, 1, 2, 3, 7] [0, 15] := by unfold State.able; decide
theorem witness_able_cox :
    (base.setCore x0 (ready 0x100100)).able x0 [0, 15] [0, 1, 2, 3, 4, 5, 6, 7] [] := by unfold State.able; decide

theorem test_add_sub :
    sc (.add s0 1 2 3) 0xFFFF 1 = some (0, 5) ∧ sc (.add s0 1 2 3) 0x7FFF 1 = some (0x8000, 0xA) ∧
    sc (.adc s0 1 2 3) 0xFFFF 0 4 = some (0, 5) ∧ sc (.sub s0 1 2 3) 3 4 = some (0xFFFF, 2) ∧
    sc (.sub s0 1 2 3) 0x8000 1 = some (0x7FFF, 0xC) ∧ sc (.sbc s0 1 2 3) 5 4 0 = some (0, 5) ∧
    sc (.neg s0 1 2) 0x8000 0 = some (0x8000, 0xA) ∧ sc (.neg s0 1 2) 0 0 = some (0, 5) ∧
    sc (.cmp s0 2 3) 1 2 = some (0x5A5A, 2) := by decide +kernel

theorem test_logic :
    sc (.and s0 1 2 3) 0xF0F0 0x8888 0xC = some (0x8080, 2) ∧ sc (.or s0 1 2 3) 0xF000 0x000F 0xC = some (0xF00F, 2) ∧
    sc (.xor s0 1 2 3) 0xAAAA 0xAAAA 0xC = some (0, 1) ∧ sc (.not s0 1 2) 0xFFFF 0 0xC = some (0, 0xD) ∧
    sc (.tst s0 (.scalar 2 3)) 1 2 0xC = some (0x5A5A, 1) ∧ sc (.mov s0 1 2) 7 0 0xF = some (7, 0xF) := by decide +kernel

theorem test_min_max :
    sc (.min s0 1 2 3) 0xFFFF 1 = some (0xFFFF, 2) ∧ sc (.minu s0 1 2 3) 0xFFFF 1 = some (1, 0) ∧
    sc (.max s0 1 2 3) 0xFFFF 1 = some (1, 0) ∧ sc (.maxu s0 1 2 3) 0xFFFF 1 = some (0xFFFF, 2) := by decide +kernel

theorem test_shifts :
    sc (.shl s0 1 2 3) 0x8001 1 = some (2, 4) ∧ sc (.shl s0 1 2 3) 0x8001 16 4 = some (0x8001, 6) ∧
    sc (.shr s0 1 2 3) 0x8001 1 = some (0x4000, 4) ∧ sc (.sar s0 1 2 3) 0x8001 1 = some (0xC000, 6) ∧
    sc (.rol s0 1 2 3) 0x8001 1 4 = some (3, 4) ∧ sc (.ror s0 1 2 3) 0x8001 1 = some (0xC000, 2) ∧
    sc (.shli s0 1 2 15) 3 0 = some (0x8000, 6) ∧ sc (.shri s0 1 2 15) 0xC000 0 = some (1, 4) ∧
    sc (.sari s0 1 2 15) 0x8000 0 = some (0xFFFF, 2) ∧ sc (.roli s0 1 2 4) 0x1234 0 = some (0x2341, 0) ∧
    sc (.rori s0 1 2 4) 0x1234 0 = some (0x4123, 0) := by decide +kernel

theorem test_bit_counts :
    sc (.clz s0 1 2) 0 0 = some (16, 0) ∧ sc (.clz s0 1 2) 0xFFFF 0 = some (0, 1) ∧ sc (.popc s0 1 2) 0xF00F 0 = some (8, 0) ∧
    sc (.brev s0 1 2) 0x0003 0 = some (0xC000, 0) := by decide +kernel

theorem test_products :
    sc (.mul s0 1 2 3) 0x0100 0x0100 = some (0, 1) ∧ sc (.mulhs s0 1 2 3) 0xFFFF 2 = some (0xFFFF, 2) ∧
    sc (.mulhu s0 1 2 3) 0xFFFF 2 = some (1, 0) ∧ sa (.mulwu s0 1 2 3) 0 0 0xFFFF 0xFFFF = some 0xFFFE0001 := by decide +kernel

theorem test_addresses :
    sa (.adda s0 1 2 3) 1 0 0 0xFFFE = some 0xFFFFFFFF ∧ sa (.addau s0 1 2 3) 1 0 0 0xFFFE = some 0xFFFF ∧
    sa (.addaa s0 1 2 3) 0xFFFFFFFF 2 0 0 = some 1 ∧ sa (.subaa s0 1 2 3) 1 2 0 0 = some 0xFFFFFFFF ∧
    sa (.mova s0 1 2) 9 0 0 0 = some 9 ∧ sa (.movwa s0 1 2 3) 0 0 0x1234 0x5678 = some 0x12345678 ∧
    sa (.shla s0 1 2 31) 3 0 0 0 = some 0x80000000 ∧ sa (.addai s0 1 2 0xFFFF) 0 0 0 0 = some 0xFFFFFFFF ∧
    sa (.lal s0 1 0xABCD) 0 0 0 0 = some 0x1234ABCD ∧ sa (.lah s0 1 0xABCD) 0 0 0 0 = some 0xABCD5678 := by decide +kernel

theorem test_address_words :
    on s0 (.moval s0 1 2) (run (fun k => k.setA 2 0x12345678)) (fun t => (t.core s0).rw 1) = some 0x5678 ∧
    on s0 (.movah s0 1 2) (run (fun k => k.setA 2 0x12345678)) (fun t => (t.core s0).rw 1) = some 0x1234 ∧
    on s0 (.cmpa s0 2 3) (run (fun k => (k.setA 2 0).setA 3 1)) (fun t => (t.core s0).cst) = some 2 := by decide +kernel

theorem test_bytes :
    sc (.extb s0 1 2 1) 0x80FF 0 = some (0x80, 0) ∧ sc (.extbs s0 1 2 1) 0x80FF 0 = some (0xFF80, 0) ∧
    sc (.insb s0 1 2 1) 0x12AB 0 = some (0xAB5A, 0) ∧ sc (.packb s0 1 2 3) 0x1234 0x5678 = some (0x7834, 0) ∧
    sc (.swpb s0 1 2) 0x1234 0 = some (0x3412, 0) := by decide +kernel

theorem test_immediates :
    sc (.addi s0 1 2 0xFFFF) 1 0 = some (0, 5) ∧ sc (.andi s0 1 2 0x0F) 0xFF 0 0xC = some (0xF, 0) ∧
    sc (.ori s0 1 2 0x8000) 1 0 0xC = some (0x8001, 2) ∧ sc (.xori s0 1 2 0xFFFF) 0xFFFF 0 0xC = some (0, 1) ∧
    sc (.li s0 1 0xBEEF) 0 0 0xF = some (0xBEEF, 0xF) ∧ sc (.cmpi s0 2 3) 3 0 = some (0x5A5A, 5) ∧
    sc (.nop s0) 0 0 0xF = some (0x5A5A, 0xF) := by decide +kernel

/-- Levels 0 and 1 of loops that end at 0x120, level 1 for the last time. -/
def loops : State :=
  run (fun k => { k with pc := 0x120, cst := 0x0200, le := #v[0x120, 0x120, 0, 0], ls := #v[0x110, 0x118, 0, 0], lc := #v[5, 1, 0, 0] })

theorem witness_endTest :
    (loops.core s0).held = [] ∧ loops.bh.step = false ∧ cstLd (loops.core s0).cst = 2 ∧
    (loops.core s0).le.get 1 = (loops.core s0).pc ∧ (loops.core s0).lc.get 1 = 1 ∧ (loops.core s0).le.get 0 = (loops.core s0).pc ∧
    (loops.core s0).lc.get 0 ≠ 1 ∧ cstLd ((run id).core s0).cst = 0 ∧
    cstExl ((base.setCore x0 (ready 0x100100)).core x0).cst = false := by decide
theorem test_endTest :
    on s0 (.nop s0) loops (fun t => ((t.core s0).pc, (t.core s0).lc.get 0, (t.core s0).lc.get 1, (t.core s0).cst)) =
      some (0x110, 4, 0, 0x0100) := by decide +kernel

theorem witness_scalarFrame :
    scalarDest (.add s0 1 2 3) = some (s0, some 1, none) ∧ scalarDest (.lah s0 1 3) = some (s0, none, some 1) ∧
    (∃ t, exec (.add s0 1 2 3) (run id) = .next t) ∧ (∃ t, exec (.lah s0 1 3) (run id) = .next t) ∧
    cstSs ((run id).core s0).cst = false ∧ ((run id).core s0).held = [] :=
  ⟨by decide, by decide, ⟨_, rfl⟩, ⟨_, rfl⟩, by decide, by decide⟩

/-- Control core 0, running at 0x0010_0100 of its crew store. -/
def cox (f : Machine.Core → Machine.Core) : State := base.setCore x0 (f (ready 0x00100100))

/-- The boathouse core, running in its own memory. -/
def boat (f : Machine.Core → Machine.Core) : State := base.setCore bh (f (ready 0x08000100))

/-- A line of block b, word i holding i + 0x40, with a dirty mask. -/
def line (b : Nat) (dirty : BitVec 32 := 0) : Line := ⟨b, (List.range 32).map (fun i => BitVec.ofNat 16 (i + 0x40)), dirty, 0⟩

/-- Block of 0x0010_0020 of crew 0: store word 0x2000_0020. -/
def blk : Nat := 0x1000001

theorem witness_load :
    (run (fun k => k.setA 2 0x201)).ableMem s0 (.a 1) 2 ∧ (effAddr 0x201 false 0).getLsbD 0 = true ∧
    ((run (fun k => { k.setA 2 0x200 with tileQ := [(0, .tst 0 0x200 16)] })).fetched s0).behindTile s0 false [0x200] = true ∧
    ((run (fun k => k.setA 2 0x20000)).fetched s0).access s0 0x20000 false = .unmapped ∧
    (run id).access s0 0x1FFFF false = .mem 0x1001FFFF ∧ cacheable s0 0x1001FFFF = false ∧ (run id).sound 0x1001FFFE true ∧
    (run id).access s0 0x100020 false = .mem 0x20000020 ∧ cacheable s0 0x20000020 = true ∧ blockOf 0x100020 0x20000020 = blk ∧
    ((ready 0).putLine (line blk)).line blk = some (line blk) ∧ (ready 0).line blk = none ∧ (ready 0).misses = [] ∧
    coreCrew s0 = some (memCrew 0x20000020) ∧ ((run id).setReg (R.COX_CC_CTRL 0) 0).ccOn 0 = false ∧
    (cox id).access x0 0xF0000000 false = .reg 0xF0000000 ∧ (boat id).access bh 0x09000000 false = .flash 0 ∧
    (boat id).access bh 0x0A000000 false = .rom 0 := by
  unfold State.ableMem State.able State.sound; refine ⟨by decide, by decide, by decide, by decide, by decide, by decide, ?_, by decide, by decide, by decide, by decide, by decide, by decide, by decide, by decide, by decide, by decide, by decide⟩
  intro v h; rcases h with rfl | ⟨-, rfl⟩ <;> decide

theorem witness_store :
    (run (fun k => k.setA 2 0x1FFFE)).ableMem s0 (.a 1) 2 ∧ (run id).access s0 0x1FFFE true = .mem 0x1001FFFE ∧
    (run id).access s0 0x1FFFF true = .mem 0x1001FFFF ∧ (run id).access s0 0x20000 true = .unmapped ∧
    ((run (fun k => { k.setA 2 0x200 with tileQ := [(0, .tld 0 0x200 16)] })).fetched s0).behindTile s0 true [0x200] = true ∧
    (cox id).access x0 0xF0000000 true = .reg 0xF0000000 ∧ (∃ t, exec (storeInstr s0 (.a 1) 2 false 0) (run id) = .next t) := by
  unfold State.ableMem State.able; exact ⟨by decide, by decide, by decide, by decide, by decide, by decide, ⟨_, rfl⟩⟩

theorem test_load :
    on s0 (.ld s0 1 2 true 3) ((run (fun k => k.setA 2 0x200)).writeWords [(0x10000200, 0xBEEF)])
      (fun t => ((t.core s0).rw 1, (t.core s0).ra 2, (t.core s0).pc)) = some (0xBEEF, 0x203, 0x102) ∧
    on s0 (.ldd s0 1 2 false 0xFFE) ((run (fun k => k.setA 2 0x202)).writeWords [(0x10000200, 0x5678), (0x10000201, 0x1234)])
      (fun t => (t.core s0).ra 1) = some 0x12345678 ∧
    on s0 (.ldd s0 1 2 false 0) (run (fun k => k.setA 2 0x201)) (fun t => ((t.core s0).stopping, (t.core s0).pc)) =
      some (some ⟨5, false, 0x100, 0x201⟩, 0x100) := by decide +kernel

theorem test_store :
    on s0 (.st s0 1 2 false 1) (run (fun k => (k.setA 2 0x200).setW 1 0xBEEF)) (fun t => (t.word 0x10000201, t.word 0x10000200)) =
      some (0xBEEF, 0) ∧
    on s0 (.std s0 1 2 true 0xFFE) (run (fun k => (k.setA 2 0x200).setA 1 0x12345678))
      (fun t => (t.word 0x10000200, t.word 0x10000201, (t.core s0).ra 2)) = some (0x5678, 0x1234, 0x1FE) := by decide +kernel

theorem witness_outstanding :
    ((run (fun k => { k with returned := [⟨.w 1, 7⟩] })).core s0).returned[0]? = some ⟨.w 1, 7⟩ ∧
    ((run (fun k => { k with misses := [⟨blk, [], none⟩] })).core s0).misses[0]? = some ⟨blk, [], none⟩ ∧
    (ready 0).victim blk = none ∧ ((run id).resolve s0 (blk * 32) = .mem (blk * 32)) ∧ (run id).answers (blk * 32) = true ∧
    (run id).eccOne.contains (blk * 32) = false ∧ (run id).eccTwo.contains (blk * 32) = false ∧
    ((cox (fun k => { k with errs := [9, 8], cst := 0x80 })).core x0).errs = [9, 8] ∧ lowestAddr [8, 9] = 8 ∧
    cstExl ((cox (fun k => { k with errs := [8], cst := 0x80 })).core x0).cst = true := by decide

theorem test_loadReturn :
    after (.loadReturn s0 0) (run (fun k => { k with returned := [⟨.w 1, 7⟩], busyW := 2 }))
      (fun t => ((t.core s0).rw 1, (t.core s0).busyW, (t.core s0).returned)) = some (7, 0, []) ∧
    after (.lineFill s0 0) ((run (fun k => { k with misses := [⟨blk, [.load (.w 1) 1, .store 2 5], none⟩] })).writeWords [(0x20000021, 0xAB)])
      (fun t => ((t.core s0).returned, ((t.core s0).line blk).map (fun l => (l.dirty, l.get 2)))) =
      some ([⟨.w 1, 0xAB⟩], some (4, 5)) := by decide +kernel

theorem test_impreciseErrorReport :
    after (.impreciseErrorReport s0) (run (fun k => { k with errs := [0x30] })) (fun t => (t.core s0).stopping) =
      some (some ⟨3, true, 0x100, 0x30⟩) ∧
    after (.impreciseErrorReport x0) (cox (fun k => { k with errs := [0x30], ivb := 0x200 }))
      (fun t => ((t.core x0).pc, (t.core x0).ecause)) = some (0x210, 0x4004) := by decide +kernel

theorem witness_branches :
    (run id).able s0 [1, 2, 3] [] [] ∧ atLoopEnd ((run id).core s0) = false ∧ atLoopEnd (loops.core s0) = true ∧
    loops.able s0 [1] [4, 5, 6, 7, 0] [] ∧ (loops.core s0).ra 6 = 0 ∧ (run (fun k => k.setA 7 0x201)).able s0 [] [1, 2, 3, 7] [] ∧
    (∃ t, (run id).storeAt s0 0x200 true 0x102 = .ok t) ∧ (∃ t v, (run id).loadNow s0 0x200 true = .ok t v) ∧
    (∃ u, (run (fun k => { k.setA 6 1 with wait := some (.rep (.set 1)) })).repElement s0 (.set 1) = .next u) := by
  unfold State.able
  exact ⟨by decide, by decide, by decide, by decide, by decide, by decide, AccRes.ok_of (by decide), NowRes.ok_of (by decide), ElemRes.next_of (by decide)⟩

theorem test_conditions :
    sc (.sel s0 1 2 3 1) 7 8 1 = some (7, 1) ∧ sc (.sel s0 1 2 3 5) 7 8 0xA = some (8, 0xA) ∧
    sc (.sel s0 1 2 3 14) 7 8 8 = some (8, 8) ∧
    on s0 (.bc s0 2 0xFFFFC) (run id) (fun t => (t.core s0).pc) = some 0xFC ∧
    on s0 (.bc s0 15 2) (run id) (fun t => ((t.core s0).stopping.map (fun x => (x.code, x.eval)))) = some (some (1, 0x83C00002)) := by decide +kernel

theorem test_calls :
    on s0 (.call s0 0x10) (run (fun k => k.setA 7 0x400)) (fun t => ((t.core s0).pc, (t.core s0).ra 7, t.word 0x100003FE)) =
      some (0x110, 0x3FE, 0x102) ∧
    on s0 (.callr s0 2) (run (fun k => (k.setA 7 0x400).setA 2 0x300)) (fun t => (t.core s0).pc) = some 0x300 ∧
    on s0 (.jr s0 2) (run (fun k => k.setA 2 0x301)) (fun t => (t.core s0).stopping) = some (some ⟨5, false, 0x100, 0x301⟩) ∧
    on s0 (.ret s0) ((run (fun k => k.setA 7 0x3FE)).writeWords [(0x100003FE, 0x222)]) (fun t => ((t.core s0).pc, (t.core s0).ra 7)) =
      some (0x222, 0x400) ∧
    on x0 (.reti x0) (cox (fun k => { k with ecst := 0x30, epc := 0x100200 })) (fun t => ((t.core x0).pc, (t.core x0).cst)) =
      some (0x100200, 0x30) := by decide +kernel

theorem test_loopBody :
    on s0 (.brk s0 3) loops (fun t => ((t.core s0).stopping.map (fun x => x.code))) = some (some 1) := by decide +kernel

theorem witness_special :
    (run id).able s0 [0, 15] [] [] ∧ (cox id).able x0 [0, 15] [] [] ∧ srListed 0x37 = true ∧
    cstStore ((run id).core s0).cst 0xF &&& 0xFFF0 = ((run id).core s0).cst &&& 0xFFF0 ∧
    cstStore ((run id).core s0).cst 0x10 &&& 0xFFF0 ≠ ((run id).core s0).cst &&& 0xFFF0 := by unfold State.able; decide

theorem test_special :
    on s0 (.mfs s0 1 0x1C) (run id) (fun t => (t.core s0).rw 1) = some 0 ∧
    on x0 (.mfs x0 1 0x1C) (cox id) (fun t => (t.core x0).rw 1) = some 8 ∧
    on x0 (.mts x0 0x18 1) (cox (fun k => k.setW 1 0x12FF)) (fun t => (t.core x0).ivb) = some 0x1200 ∧
    on s0 (.mts s0 0x14 1) (run id) (fun t => ((t.core s0).stopping.map (fun x => x.code))) = some (some 2) := by decide +kernel

theorem witness_exceptions :
    (cox id).able x0 [] [] [] ∧ cstExl ((cox (fun k => { k with cst := 0x80 })).core x0).cst = true ∧
    ((cox (fun k => { k with cst := 0x10 })).setReg (R.COX_IE 0) 1).able x0 [] [] [] ∧ cstIe 0x10 = true ∧ waitYields (some .wfi) = true ∧
    (((cox (fun k => { k with cst := 0x10, wait := some .wfi })).setReg (R.COX_IE 0) 0x400).setReg (R.COX_DBELL_STAT 0) 1).enabledSources x0 = [10] ∧
    (run (fun k => { k with stopping := some ⟨7, false, 0x100, 3⟩ })).crewUp 0 = true := by unfold State.able; refine ⟨?_, ?_, ?_, ?_, ?_, ?_, ?_⟩ <;> decide

theorem test_exceptions :
    on x0 (.brk x0 3) (cox (fun k => { k with ivb := 0x200, cst := 0x31 })) (fun t => ((t.core x0).pc, (t.core x0).cst, (t.core x0).ecst, (t.core x0).eval)) =
      some (0x21C, 0xA1, 0x31, 3) ∧
    on s0 (.trap s0 4) (run id) (fun t => (t.core s0).stopping) = some (some ⟨8, false, 0x102, 4⟩) ∧
    after (.interrupt x0) (((cox (fun k => { k with cst := 0x10, ivb := 0x200, wait := some .wfi })).setReg (R.COX_IE 0) 0x400).setReg (R.COX_DBELL_STAT 0) 1)
      (fun t => ((t.core x0).pc, (t.core x0).ecause)) = some (0x268, 0x801A) ∧
    after (.seatStop 0 0) (run (fun k => { k with stopping := some ⟨7, false, 0x100, 3⟩ }))
      (fun t => ((t.core s0).mode, (t.core s0).ecause, (t.core s0).epc)) = some (.stopped, 7, 0x100) := by decide +kernel

theorem witness_caches :
    (cox id).able x0 [] [0] [] ∧ (cox id).enabledSources x0 = [] ∧ (cox id).memIdle x0 = true ∧
    (cox (fun k => { k with misses := [⟨blk, [], none⟩] })).memIdle x0 = false ∧
    lineBlock x0 0x100020 = blk ∧ ((ready 0).putLine (line blk 5)).line blk = some (line blk 5) ∧ (line blk 5).dirty ≠ 0 ∧
    storeBase 0 ≤ 32 * blk ∧ 32 * blk + 32 ≤ storeBase 1 ∧ ((cox id).setReg (R.COX_CC_CTRL 0) 0).ccOn 0 = false ∧ (cox id).crewKilled 0 = false ∧
    ((ready 0).putLine (line blk 0)).dirtyBlocks = [] := by unfold State.able; decide

theorem test_caches :
    on x0 (.wfi x0) (cox id) (fun t => (t.core x0).wait) = some (some .wfi) ∧
    on x0 (.csync x0) (cox id) (fun t => (t.core x0).pc) = some 0x100102 ∧
    on x0 (.cflush x0 1) (cox (fun k => ((k.setA 1 0x100020).putLine (line blk 5))))
      (fun t => (t.word 0x20000020, t.word 0x20000021, t.word 0x20000022)) = some (0x40, 0, 0x42) ∧
    on x0 (.cflushA x0) (cox (fun k => k.putLine (line blk 2))) (fun t => t.word 0x20000021) = some 0x41 ∧
    on x0 (.cinv x0 1) (cox (fun k => ((k.setA 1 0x100020).putLine (line blk 5)))) (fun t => (((t.core x0).line blk).isSome, t.word 0x20000020)) =
      some (false, 0) ∧
    on x0 (.cinvA x0) (cox (fun k => k.putLine (line blk 2))) (fun t => (t.core x0).l1d) = some [] ∧
    on x0 (.cinvI x0) (cox (fun k => { k with l1i := [(0, [line 0])] })) (fun t => (t.core x0).l1i) = some [] := by decide +kernel

theorem witness_loops :
    (run id).able s0 [1] [7] [] ∧ cstLd ((run id).core s0).cst = 0 ∧ cstLd (loops.core s0).cst = 2 ∧
    cstLd ((run (fun k => { k with cst := 0x400 })).core s0).cst = 4 ∧ (0x100 + 2 * 4094 + 2 : Addr).getLsbD 0 = false ∧
    (∃ t, (run id).storeAt s0 0x3FE true 5 = .ok t) ∧ (∃ t v, (run id).loadNow s0 0x3FE true = .ok t v) := by
  unfold State.able; exact ⟨by decide, by decide, by decide, by decide, by decide, AccRes.ok_of (by decide), NowRes.ok_of (by decide)⟩

theorem test_loops :
    on s0 (.loop s0 (.imm 3) 4) (run id) (fun t => ((t.core s0).ls.get 0, (t.core s0).le.get 0, (t.core s0).lc.get 0, (t.core s0).cst, (t.core s0).pc)) =
      some (0x102, 0x108, 3, 0x0100, 0x102) ∧
    on s0 (.loop s0 (.w 1) 4) (run id) (fun t => (t.core s0).pc) = some 0x10A ∧
    on s0 (.lpop s0) (run (fun k => { k with cst := 0x200 })) (fun t => (t.core s0).cst) = some 0x100 ∧
    on s0 (.lsave s0) (run (fun k => { k.setA 7 0x400 with cst := 0x100, ls := #v[2, 0, 0, 0], le := #v[4, 0, 0, 0], lc := #v[6, 0, 0, 0] }))
      (fun t => ((t.core s0).ra 7, t.word 0x100003FE, t.word 0x100003FC, t.word 0x100003FA, (t.core s0).cst)) = some (0x3FA, 6, 4, 2, 0) ∧
    on s0 (.lrest s0) ((run (fun k => k.setA 7 0x3FA)).writeWords [(0x100003FE, 6), (0x100003FC, 4), (0x100003FA, 2)])
      (fun t => ((t.core s0).ls.get 0, (t.core s0).le.get 0, (t.core s0).lc.get 0, (t.core s0).cst)) = some (2, 4, 6, 0x100) := by decide +kernel

/-- Seat 0 with a block repeat under way over a4 = 0x200, a5 = 0x300. -/
def rep (r : Rep) (n : Addr) : State :=
  (run (fun k => { ((k.setA 4 0x200).setA 5 0x300).setA 6 n with wait := some (.rep r) })).writeWords
    [(0x10000200, 7), (0x10000201, 8), (0x10000300, 7), (0x10000301, 9)]

theorem witness_blockRepeat :
    (run (fun k => k.setA 6 1)).able s0 [1] [4, 5, 6] [] ∧ ((run (fun k => k.setA 6 1)).core s0).ra 6 ≠ 0 ∧
    ((rep .mov 1).core s0).wait = some (.rep .mov) ∧ ((rep .cmp 1).core s0).mode = .running ∧ cstSs ((rep .cmp 1).core s0).cst = false ∧
    (∃ t v, (rep .cmp 2).loadNow s0 0x200 false = .ok t v) ∧ (∃ t, (rep (.set 5) 2).storeAt s0 0x300 false 5 = .ok t) := by
  unfold State.able; exact ⟨by decide, by decide, by decide, by decide, by decide, NowRes.ok_of (by decide), AccRes.ok_of (by decide)⟩

theorem test_blockRepeat :
    after (.blockRepeatElement s0) (rep .mov 2) (fun t => (t.word 0x10000300, (t.core s0).ra 4, (t.core s0).ra 5, (t.core s0).ra 6, (t.core s0).pc)) =
      some (7, 0x201, 0x301, 1, 0x100) ∧
    after (.blockRepeatElement s0) (rep .movD 1) (fun t => ((t.core s0).ra 4, (t.core s0).ra 6, (t.core s0).pc, (t.core s0).wait)) =
      some (0x1FF, 0, 0x102, none) ∧
    after (.blockRepeatElement s0) (rep (.set 5) 1) (fun t => (t.word 0x10000300, (t.core s0).ra 4)) = some (5, 0x200) ∧
    after (.blockRepeatElement s0) (rep .cmp 1) (fun t => ((t.core s0).cst, (t.core s0).pc)) = some (1, 0x102) ∧
    after (.blockRepeatElement s0) (rep (.scan 7) 9) (fun t => ((t.core s0).cst, (t.core s0).ra 4, (t.core s0).ra 6)) = some (1, 0x200, 9) ∧
    after (.blockRepeatElement s0) (rep (.scanNe 7) 1) (fun t => ((t.core s0).cst, (t.core s0).ra 4)) = some (0, 0x201) := by decide +kernel

/-! ## Handles, catch groups and calls on a core -/

/-- Crew 0's handle 5: FULL, in its crew store from 0x2000_1000, 0x100 words, lane 0; handle 6: remote. -/
def handles (s : State) : State :=
  (((((s.setReg (R.HT_CTRL 0 5) 0x5).setReg32 (R.HT_BASE_LO 0 5) 0x20001000).setReg32 (R.HT_LEN_LO 0 5) 0x100).setReg
    (R.HT_CTRL 0 6) 0x9).setReg32 (R.HT_LEN_LO 0 6) 0x100)

/-- Group 3 and call 4 enabled for lane 0, seat 0 of crew 0 a member of the group; call 5 is SYS. -/
def synced (s : State) : State :=
  (((s.setReg (R.SYN_CGCTRL 3) 1).setReg (R.SYN_CGMEM 0 3) 1).setReg (R.SYN_CALLCFG 4) 0x0800).setReg (R.SYN_CALLCFG 5) 0x0C00

theorem witness_handles :
    (handles (run (fun k => (k.setW 2 5).setA 3 0xFF))).able s0 [2] [1, 3] [] ∧ (handles (run id)).crewOn 0 = true ∧
    (handles (run id)).hUse 0 0 5 0xFF = true ∧ (handles (run id)).hUse 0 0 5 0x100 = false ∧ (handles (run id)).hKind 0 5 ≠ 2 ∧
    (handles (run id)).able s0 (List.finRange 16) [3] [] ∧ (handles (run id)).hStateUse 0 0 6 = true ∧ (handles (run id)).hKind 0 6 = 2 ∧
    0xFC + 3 + 1 ≤ (handles (run id)).hLen 0 6 ∧ ((handles (run id)).schedOf 0).hails.length < 8 ∧
    8 ≤ (((run id).setSched 0 { Sched.empty with hails := List.replicate 8 ⟨0, 0, 0, 0, 0, 0, [], 0, false, 0, 0, none⟩ }).schedOf 0).hails.length := by
  unfold State.able; decide

theorem test_handles :
    on s0 (.hlea s0 1 2 3) (handles (run (fun k => (k.setW 2 5).setA 3 0xFF))) (fun t => (t.core s0).ra 1) = some 0x200010FF ∧
    on s0 (.hlea s0 1 2 3) (handles (run (fun k => (k.setW 2 5).setA 3 0x100))) (fun t => ((t.core s0).stopping.map (fun x => x.code))) =
      some (some 3) ∧
    on s0 (.hail s0 2 3 4 1) (handles (run (fun k => (((k.setW 2 0x0603).setA 3 0x10).setW 4 0xAA).setW 5 0xBB)))
      (fun t => ((t.schedOf 0).hails.map (fun h => (h.data, h.cnt, h.handle)), (t.core s0).pc)) = some ([([0xAA, 0xBB], 3, 6)], 0x102) := by decide +kernel

theorem test_hailAccept :
    after (.hailAccept s0) (run (fun k => { k with wait := some (.hail ⟨0, 6, 0, 0, 0, 0, [7], 0, false, 0, 0, none⟩) }))
      (fun t => ((t.schedOf 0).hails.map Hail.data, (t.core s0).wait, (t.core s0).pc)) = some ([[7]], none, 0x102) := by decide +kernel

theorem witness_sync :
    (synced (run id)).able s0 [1] [] [] ∧ (synced (run id)).bit (R.SYN_CGCTRL 3) 0 = true ∧
    (synced (run id)).fld (R.SYN_CGCTRL 3) 2 10 = (synced (run id)).laneOf 0 ∧
    ((synced (run id)).cgMembers 0 3).getLsbD (cgBit s0) = true ∧ (synced (run id)).bit (R.SYN_CGARR 0 3) (cgBit s0) = false ∧
    ((synced (run id)).setReg (R.SYN_CGARR 0 3) 1).bit (R.SYN_CGARR 0 3) (cgBit s0) = true ∧
    (synced (run id)).bit (R.SYN_CGCTRL 63) 0 = false ∧ ((synced (run id)).cgMembers 0 3).getLsbD (cgBit (.seat 0 7)) = false ∧
    (synced (run id)).bit (R.SYN_CALLCFG 4) 11 = true ∧ (synced (run id)).callSys 4 = false ∧ (synced (run id)).callSys 5 = true ∧
    (synced (run id)).runsPhases = false ∧ (synced (run id)).bit (R.SYN_CALLCFG 255) 11 = false ∧
    ((run (fun k => { k with cgw := [(3, 0)] })).core s0).cgwLeft 3 = some 0 ∧ ((run (fun k => { k with cgw := [(3, 2)] })).core s0).cgwLeft 3 = some 2 := by
  unfold State.able; decide

theorem test_sync :
    on s0 (.cga s0 3) (synced (run id)) (fun t => (t.reg (R.SYN_CGARR 0 3), (t.core s0).pc)) = some (1, 0x102) ∧
    on s0 (.cga s0 63) (synced (run id)) (fun t => ((t.core s0).stopping.map (fun x => (x.code, x.eval)), t.reg R.SYN_ERR)) = some (some (3, 63), 1) ∧
    on s0 (.cgw s0 3) (synced (run id)) (fun t => ((t.core s0).wait, (t.core s0).cgw)) = some (some (.cgw 3), [(3, 1)]) ∧
    on s0 (.cls s0 4) (synced (run id)) (fun t => t.reg (R.SYN_CALLVAL 0)) = some 0x10 ∧
    on s0 (.clc s0 4) ((synced (run id)).setReg (R.SYN_CALLVAL 0) 0x30) (fun t => t.reg (R.SYN_CALLVAL 0)) = some 0x20 ∧
    on s0 (.clt s0 1 4) ((synced (run id)).setReg (R.SYN_CALLVAL 0) 0x30) (fun t => (t.core s0).rw 1) = some 1 ∧
    on s0 (.clw s0 4) (synced (run id)) (fun t => (t.core s0).wait) = some (some (.clw 4)) ∧
    on s0 (.cls s0 5) (synced (run id)) (fun t => (t.core s0).wait) = some (some (.callOp 5 true)) ∧
    on s0 (.tend s0) (run id) (fun t => (t.core s0).wait) = some (some .tend) := by decide +kernel

/-! ## Vector and matrix units (spec/05) -/

/-- Every lane of v1, v2, v3 set; p1 holds lanes 0 and 31. -/
def vec (a b c : Word) : State :=
  run (fun k => { ((k.setV 1 (Vector.replicate 32 a)).setV 2 (Vector.replicate 32 b)).setV 3 (Vector.replicate 32 c) with p := #v[0, 0x80000001, 0, 0] })

/-- Lanes 0, 1 and 31 of v1 after a command. -/
def lanes (i : Instr) (s : State) : Option (Word × Word × Word) :=
  on s0 i s (fun t => let v := (t.core s0).rv 1; (v.get 0, v.get 1, v.get 31))

theorem witness_vector :
    (vec 0 0 0).able s0 [1, 2, 3] [1] [1, 2, 3] ∧ ((vec 0 0 0).core s0).tileQ = [] ∧ ((vec 0 0 0).core s0).misses = [] ∧
    (vec 0 0 0).access s0 0x2FF false = .mem 0x100002FF ∧ cacheable s0 0x100002FF = false ∧ (vec 0 0 0).answers 0x100002FF = true ∧
    (vec 0 0 0).access s0 0x20000 true = .unmapped := by unfold State.able; decide

theorem test_vectorInteger :
    lanes (.vadd s0 1 2 3 1 .i16) (vec 7 0xFFFF 2) = some (1, 7, 1) ∧ lanes (.vsub s0 1 2 3 0 .u16) (vec 7 1 2) = some (0xFFFF, 0xFFFF, 0xFFFF) ∧
    lanes (.vadds s0 1 2 3 1 .i16) (vec 7 0x7FFF 1) = some (0x7FFF, 7, 0x7FFF) ∧ lanes (.vsubs s0 1 2 3 1 .u8) (vec 7 0x0105 0x0206) = some (0, 7, 0) ∧
    lanes (.vmul s0 1 2 3 1 .i16) (vec 7 0x100 0x101) = some (0x100, 7, 0x100) ∧ lanes (.vmulh s0 1 2 3 1 .u16) (vec 7 0xFFFF 2) = some (1, 7, 1) ∧
    lanes (.vmin s0 1 2 3 1 .i8) (vec 7 0x80FF 0x0001) = some (0x80FF, 7, 0x80FF) ∧ lanes (.vmax s0 1 2 3 1 .i16) (vec 7 0xFFFF 1) = some (1, 7, 1) := by decide +kernel

theorem test_vectorBits :
    lanes (.vand s0 1 2 3 1 .u8) (vec 7 0xF0 0x3C) = some (0x30, 7, 0x30) ∧ lanes (.vor s0 1 2 3 1 .i16) (vec 7 0xF0 0x0F) = some (0xFF, 7, 0xFF) ∧
    lanes (.vxor s0 1 2 3 1 .i16) (vec 7 0xFF 0x0F) = some (0xF0, 7, 0xF0) ∧ lanes (.vshl s0 1 2 3 1 .i16) (vec 7 1 0x1F) = some (0x8000, 7, 0x8000) ∧
    lanes (.vshr s0 1 2 3 1 .i16) (vec 7 0x8000 15) = some (0xFFFF, 7, 0xFFFF) ∧ lanes (.vabs s0 1 2 1 .i16) (vec 7 0xFFFE 0) = some (2, 7, 2) ∧
    lanes (.vmov s0 1 2 1 .i16) (vec 7 9 0) = some (9, 7, 9) ∧ lanes (.vmac s0 1 2 3 1 .i16) (vec 7 3 4) = some (19, 7, 19) := by decide +kernel

theorem test_vectorFloat :
    lanes (.vfadd s0 1 2 3 1 .f16) (vec 7 0x3C00 0x4000) = some (0x4200, 7, 0x4200) ∧ lanes (.vfsub s0 1 2 3 1 .bf16) (vec 7 0x3F80 0x3F80) = some (0, 7, 0) ∧
    lanes (.vfmul s0 1 2 3 1 .f16) (vec 7 0x7C00 0) = some (0x7E00, 7, 0x7E00) ∧ lanes (.vfma s0 1 2 3 1 .f16) (vec 0x3C00 0x4000 0x4000) = some (0x4500, 0x3C00, 0x4500) ∧
    lanes (.vfms s0 1 2 3 1 .f16) (vec 0x4500 0x4000 0x4000) = some (0x3C00, 0x4500, 0x3C00) ∧ lanes (.vfmin s0 1 2 3 1 .f16) (vec 7 0x8000 0) = some (0x8000, 7, 0x8000) ∧
    lanes (.vfmax s0 1 2 3 1 .f16) (vec 7 0x8000 0) = some (0, 7, 0) := by decide +kernel

theorem test_vectorFloatOne :
    lanes (.vfabs s0 1 2 1 .f16) (vec 7 0xBC00 0) = some (0x3C00, 7, 0x3C00) ∧ lanes (.vfneg s0 1 2 1 .f16) (vec 7 0x3C00 0) = some (0xBC00, 7, 0xBC00) ∧
    lanes (.vfrcp s0 1 2 1 .f16) (vec 7 0x4000 0) = some (0x3800, 7, 0x3800) ∧ lanes (.vfrsq s0 1 2 1 .bf16) (vec 7 0x4080 0) = some (0x3F00, 7, 0x3F00) ∧
    lanes (.vfexp2 s0 1 2 1 .f16) (vec 7 0x4200 0) = some (0x4800, 7, 0x4800) ∧ lanes (.vflog2 s0 1 2 1 .f16) (vec 7 0x4800 0) = some (0x4200, 7, 0x4200) := by
  decide +kernel

theorem test_vectorMoves :
    on s0 (.vcmp s0 2 2 3 2 1 .i16) (vec 0 0xFFFF 1) (fun t => (t.core s0).rp 2) = some 0x80000001 ∧
    lanes (.vbc s0 1 1 1) (vec 7 0 0) = some (0, 7, 0) ∧ lanes (.vins s0 1 1 2 0) ((vec 7 0 0).setCore s0 (((vec 7 0 0).core s0).setW 1 9 |>.setW 2 0x21)) = some (7, 9, 7) ∧
    on s0 (.vext s0 1 2 3) (vec 7 8 9) (fun t => (t.core s0).rw 1) = some 8 ∧ lanes (.vperm s0 1 2 3 1) (vec 7 8 0x3F) = some (8, 7, 8) ∧
    lanes (.vrot s0 1 2 3 1) (vec 7 8 9) = some (8, 7, 8) ∧ lanes (.vsel s0 1 2 3 1) (vec 7 8 9) = some (8, 9, 8) ∧
    lanes (.viota s0 1 0) (vec 7 8 9) = some (0, 1, 31) := by decide +kernel

theorem test_reductions :
    on s0 (.vradd s0 1 2 1 .i16) (vec 0 0xFFFF 0) (fun t => (t.core s0).rw 1) = some 0xFFFE ∧
    on s0 (.vrmin s0 1 2 2 .i16) (vec 0 5 0) (fun t => (t.core s0).rw 1) = some 0x7FFF ∧
    on s0 (.vrmax s0 1 2 0 .u16) (vec 0 5 0) (fun t => (t.core s0).rw 1) = some 5 ∧
    on s0 (.vfradd s0 1 2 0 .f16) (vec 0 0x3C00 0) (fun t => (t.core s0).rw 1) = some 0x5000 ∧
    on s0 (.vfrmin s0 1 2 2 .f16) (vec 0 5 0) (fun t => (t.core s0).rw 1) = some 0x7C00 ∧
    on s0 (.vfrmax s0 1 2 2 .bf16) (vec 0 5 0) (fun t => (t.core s0).rw 1) = some 0xFF80 := by decide +kernel

theorem test_conversions :
    lanes (.vcvt s0 1 2 .f16 .i16 false false) (vec 0 3 0) = some (0x4200, 0x4200, 0x4200) ∧
    lanes (.vcvt s0 1 2 .i16 .i8 true false) (vec 0 0x01FF 0) = some (0xFFFF, 1, 1) ∧
    lanes (.vcvt s0 1 2 .i8 .i16 false true) (vec 0 0x1234 0) = some (0x7F7F, 0x7F7F, 0) := by decide +kernel

theorem test_predicates :
    on s0 (.pand s0 2 0 1) (vec 0 0 0) (fun t => (t.core s0).rp 2) = some 0x80000001 ∧ on s0 (.por s0 2 1 3) (vec 0 0 0) (fun t => (t.core s0).rp 2) = some 0x80000001 ∧
    on s0 (.pxor s0 2 0 1) (vec 0 0 0) (fun t => (t.core s0).rp 2) = some 0x7FFFFFFE ∧ on s0 (.pnot s0 0 1) (vec 0 0 0) (fun t => (t.core s0).rp 0) = some 0xFFFFFFFF ∧
    on s0 (.ptail s0 2 1) ((vec 0 0 0).setCore s0 (((vec 0 0 0).core s0).setW 1 4)) (fun t => (t.core s0).rp 2) = some 15 ∧
    on s0 (.pcnt s0 1 1) (vec 0 0 0) (fun t => (t.core s0).rw 1) = some 2 ∧ on s0 (.pmova s0 1 1) (vec 0 0 0) (fun t => (t.core s0).ra 1) = some 0x80000001 ∧
    on s0 (.pmovp s0 2 1) ((vec 0 0 0).setCore s0 (((vec 0 0 0).core s0).setA 1 6)) (fun t => (t.core s0).rp 2) = some 6 := by decide +kernel

/-- `vec` with a1 at 0x200, where words 0x200 to 0x202 hold 1, 2, 3. -/
def vmem : State :=
  ((vec 7 8 9).setCore s0 ((((vec 7 8 9).core s0).setA 1 0x200).setW 12 2)).writeWords [(0x10000200, 1), (0x10000201, 2), (0x10000202, 3)]

theorem test_vectorMemory :
    lanes (.vld s0 1 1 false 1 0) vmem = some (2, 3, 0) ∧ lanes (.vldB s0 1 1 true 4 1) vmem = some (1, 7, 1) ∧
    lanes (.vlds s0 1 1 false 0 0 0) vmem = some (1, 3, 0) ∧
    on s0 (.vst s0 2 1 false 0 1) vmem (fun t => (t.word 0x10000200, t.word 0x10000201, t.word 0x1000021F)) = some (8, 2, 8) ∧
    on s0 (.vsts s0 2 1 false 0 0 1) vmem (fun t => (t.word 0x10000200, t.word 0x1000023E)) = some (8, 8) := by decide +kernel

theorem witness_tileIssue :
    (run id).able s0 [tileStrideReg 7] [1] [15] ∧ ((run id).core s0).tileQ.length < 4 ∧ ((run id).core s0).matQ.length < 4 ∧
    4 ≤ ((run (fun k => { k with tileQ := List.replicate 4 (0, .tzero 0) })).core s0).tileQ.length ∧
    5 ≤ ((run (fun k => { k with matQ := List.replicate 5 (0, .zzero 0) })).core s0).matQ.length ∧
    (run id).access s0 (0x1FF00 + 15 * 16 + 15) false = .mem 0x1001FFFF ∧ (0x201 : Addr).getLsbD 0 = true := by unfold State.able; decide

theorem test_tileIssue :
    on s0 (.tld s0 2 1 true (.imm 16)) vmem (fun t => ((t.core s0).tileQ, (t.core s0).ra 1)) = some ([(0, .tld 2 0x200 16)], 0x300) ∧
    on s0 (.zst s0 2 1 false (.imm 31)) vmem (fun t => ((t.core s0).stopping.map (fun x => x.code))) = some (some 5) ∧
    on s0 (.tzero s0 2) vmem (fun t => (t.core s0).tileQ) = some [(0, .tzero 2)] ∧ on s0 (.ttr s0 2 3) vmem (fun t => (t.core s0).tileQ) = some [(0, .ttr 2 3)] ∧
    on s0 (.tmovr s0 2 2 1) vmem (fun t => ((t.core s0).stopping.map (fun x => x.code))) = some (some 1) ∧
    on s0 (.vmovt s0 1 2 14) vmem (fun t => (t.core s0).tileQ) = some [(0, .vmovt 1 2 14)] := by decide +kernel

theorem test_matrixIssue :
    on s0 (.mma s0 1 2 3 true 2 true false .e4m3) vmem (fun t => (t.core s0).matQ) = some [(0, .mma 1 2 3 true .e5m2 true false .e4m3)] ∧
    on s0 (.zzero s0 1) vmem (fun t => (t.core s0).matQ) = some [(0, .zzero 1)] ∧
    on s0 (.zcvt s0 1 2 1 false false false .f16) vmem (fun t => ((t.core s0).stopping.map (fun x => x.code))) = some (some 1) ∧
    on s0 (.zmovr s0 1 2 3) vmem (fun t => (t.core s0).matQ) = some [(0, .zmovr 1 2 3)] := by decide +kernel

/-- A seat with one operation at the head of its tile path, or of its matrix queue. -/
def tiled (o : TileOp) : State := vmem.setCore s0 { vmem.core s0 with tileQ := [(0, o)] }
def matrixed (o : MatOp) : State :=
  run (fun k => { k with matQ := [(0, o)], t := Vector.replicate 8 (Vector.replicate 16 (Vector.replicate 16 2)) })

theorem witness_queues :
    (tiled (.tld 2 0x200 16)).crewUp 0 = true ∧ ((tiled (.tld 2 0x200 16)).core s0).tileReady = true ∧
    ((tiled (.tld 2 0x200 16)).core s0).misses = [] ∧ ((tiled (.tld 2 0x200 16)).core s0).wait ≠ some .csync ∧
    (tiled (.tld 2 0x200 16)).access s0 (0x200 + 15 * 16 + 15) false = .mem 0x100002FF ∧ ((matrixed (.zzero 1)).core s0).matReady = true ∧
    ((matrixed (.zzero 1)).core s0).matQ = [(0, .zzero 1)] := by decide

theorem test_tilePath :
    after (.tilePathTransfer s0) (tiled (.tld 2 0x200 16)) (fun t => ((((t.core s0).t.get 2).get 0).get 2, (t.core s0).tileQ)) = some (3, []) ∧
    after (.tilePathTransfer s0) (tiled (.tmovr 2 (Vector.replicate 32 9) 2)) (fun t =>
      let x := (t.core s0).t.get 2; ((x.get 1).get 0, (x.get 2).get 15, (x.get 3).get 0)) = some (0, 9, 9) := by decide +kernel

theorem test_matrixQueue :
    after (.matrixQueueOperation s0) (matrixed (.mma 1 2 3 false .i16 false false .i16)) (fun t => (((t.core s0).z.get 1).get 5).get 7) = some 64 ∧
    after (.matrixQueueOperation s0) (matrixed (.zcvt 2 1 0 true true false .i16)) (fun t => (((t.core s0).t.get 2).get 5).get 7) = some 0 := by decide +kernel

theorem witness_onlySeats :
    isSeat x0 = false ∧ isSeat bh = false ∧ (cox id).able x0 [tileStrideReg 0] [1] [1, 2, 3] ∧ (boat id).able bh [tileStrideReg 0] [1] [1, 2, 3] := by
  unfold State.able; decide
theorem test_onlySeats :
    on x0 (.vadd x0 1 2 3 0 .i16) (cox id) (fun t => ((t.core x0).ecause, (t.core x0).eval)) = some (1, 0xA048C000) := by decide +kernel

/-! ## Crew caches and memory (spec/06) -/

/-- `base` with one line of block b in crew 0's crew cache. -/
def cached (b : Nat) : State :=
  { base with cc := [(0, ⟨[(b % 512, [⟨b, List.replicate 32 7, false, false⟩])], none⟩)] }

theorem witness_crewCache :
    base.crewUp 0 = true ∧ base.crewUp 95 = true ∧ (base.reg (R.COX_CC_STAT 0)).getLsbD 0 = false ∧ (base.reg (R.COX_CC_CTRL 0)).getLsbD 0 = true ∧
    ((base.setReg (R.COX_CC_STAT 0) 1).reg (R.COX_CC_STAT 0)).getLsbD 0 = true ∧ ((base.setReg (R.COX_CC_CTRL 0) 0).reg (R.COX_CC_CTRL 0)).getLsbD 0 = false ∧
    ({ base with cc := [(0, ⟨[], some .disable⟩)] } : State).cache 0 = ⟨[], some .disable⟩ ∧
    ({ base with cc := [(0, ⟨[], some (.invalidate 0)⟩)] } : State).cache 0 = ⟨[], some (.invalidate 0)⟩ := by decide

theorem test_crewCache :
    after (.invall 0) (cached blk) (fun t => ((t.cache 0).sets.map (fun e => e.2.map CcLine.marked), t.reg (R.COX_CC_STAT 0))) = some ([[true]], 1) ∧
    after (.invrange 0) (((cached blk).setReg32 (R.COX_CC_RBASE_LO 0) 0x2000003F).setReg32 (R.COX_CC_RLEN_LO 0) 1)
      (fun t => (t.cache 0).sets.map (fun e => e.2.map CcLine.marked)) = some [[true]] ∧
    after (.invrange 0) (((cached blk).setReg32 (R.COX_CC_RBASE_LO 0) 0x20000040).setReg32 (R.COX_CC_RLEN_LO 0) 1)
      (fun t => (t.cache 0).sets.map (fun e => e.2.map CcLine.marked)) = some [[false]] ∧
    after (.invall 0) (base.setReg (R.COX_CC_STAT 0) 1) (fun t => t.reg (R.COX_CC_STAT 0)) = some 9 := by decide +kernel

theorem test_crewCacheEnds :
    after (.ccCommandDone 0) ({ base with cc := [(0, ⟨[(1, [⟨blk, [], true, false⟩, ⟨blk + 512, [], false, false⟩])], some (.invalidate 0)⟩)] }.setReg
      (R.COX_CC_STAT 0) 1) (fun t => (t.cache 0).sets.map (fun e => e.2.map CcLine.block)) = some [[blk + 512]] ∧
    after (.ccDisable 0) ((cached blk).writeWords [(0x207C0000, 9), (0x207BFFFF, 8)])
      (fun t => (t.word 0x207C0000, t.word 0x207BFFFF, t.ccOn 0)) = some (9, 8, false) ∧
    after (.ccDisableDone 0) (({ base with cc := [(0, ⟨[], some .disable⟩)] }.setReg (R.COX_CC_STAT 0) 1).writeWords [(0x207C0000, 9), (0x207BFFFF, 8)])
      (fun t => (t.reg (R.COX_CC_STAT 0), (t.cache 0).busy, t.word 0x207C0000, t.word 0x207BFFFF)) = some (2, none, 0, 8) ∧
    after (.ccEnable 0) (base.setReg (R.COX_CC_CTRL 0) 0) (fun t => t.ccOn 0) = some true := by decide +kernel

theorem witness_memory :
    base.crewUp 0 = true ∧ mapGet (fun _ => []) base.banks 0 = [] ∧ base.crewOn 0 = true ∧
    ({ base with seatsZeroed := 0 } : State).seatsZeroed.getLsbD 0 = false ∧ base.storeOn.getLsbD 95 = true ∧ State.reset.storeOn.getLsbD 95 = false ∧
    mapGet (fun _ => []) ({ base with banks := [(0, [⟨0, 3, 5, true⟩])] } : State).banks 0 = [⟨0, 3, 5, true⟩] := by decide

theorem test_memory :
    after (.correctedWriteback 0x20000005) { base with eccOne := [5, 0x20000005] } (fun t => t.eccOne) = some [5] ∧
    after (.bankGrant 0 0 2) { base with banks := [(2, [⟨0, 3, 5, false⟩, ⟨0, 4, 6, false⟩, ⟨1, 0, 5, false⟩, ⟨1, 1, 5, true⟩])] }
      (fun t => ((mapGet (fun _ => []) t.banks 2).map BankReq.rank, t.reg32 (R.COX_BANK_WAIT_LO 0))) = some ([4, 1], 2) ∧
    on s0 (.ld s0 1 2 false 0) (run (fun k => { (k.setA 2 0x100020).putLine (line (blk + 1)) with busyA := 0 })) (fun t => (t.core s0).misses.map Miss.block) =
      some [blk] ∧
    after (.correctedWriteback 0x20000025) { base with eccOne := [0x20000025] } (fun t => (mapGet (fun _ => []) t.banks 1).map BankReq.rank) = some [23] ∧
    after (.memoryZeroingDone (.seatMemories 0)) ({ base with inRst := 1, seatsZeroed := 0, storesZeroed := 1 }.writeWords [(0x10000000, 5), (0x10100000, 6)])
      (fun t => (t.word 0x10000000, t.word 0x10100000, t.inRst)) = some (0, 6, 0) := by decide +kernel

/-! ## Control cores (spec/07) -/

/-- Crew 0's queue 2 in RUN, its ring of 16 records at 0x0010_0000, one record waiting: pc 0x400, seats of `mask`. -/
def queued (mask : Word) : State :=
  (((((base.setReg (R.COX_CTRL 0) 1).setReg (R.COX_Q_CTRL 0 2) 0x0401).setReg32 (R.COX_Q_BASE_LO 0 2) 0x00100000).setReg
    (R.COX_Q_STAT 0 2) 1).setReg (R.COX_Q_TAIL 0 2) 1).writeWords [(0x20000000, 0x400), (0x20000002, 0x11), (0x20000005, mask), (0x20000009, 0x77)]

/-- The head record in the head buffer, both gates open. -/
def headed (ready : Bool) : HeadBuf :=
  ⟨0, [0x400, 0, 0x11, 0, 0, 6, 0, 0, 0, 0x77, 0, 0, 0, 0, 0, 0], 0x100000, ready, ready, if ready then some 0 else none, none, false⟩
def held (ready : Bool) : State := (queued 6).setSched 0 { Sched.empty with heads := [(2, headed ready)] }

theorem witness_cox :
    base.crewKilled 0 = false ∧ (queued 6).headOf 0 2 = none ∧ (held true).headOf 0 2 = some (headed true) ∧ base.crewScrub 0 = false ∧
    ((queued 6).reg (R.COX_Q_CTRL 0 2)).getLsbD 0 = true ∧ (base.reg (R.COX_Q_CTRL 0 31)).getLsbD 0 = false ∧
    (queued 6).qState 0 2 = 1 ∧ (queued 6).qEvent 0 2 = false ∧ (queued 6).qCount 0 2 = 1 ∧ (queued 6).answers 0x2000000F = true ∧
    (queued 6).eccOne = [] ∧ (queued 6).eccTwo = [] ∧ ((held true).reg (R.COX_CTRL 0)).getLsbD 0 = true ∧ (held true).noDispatch.getLsbD 0 = false ∧
    (∀ p : Fin 32, p.val ≠ 2 → (held true).headOf 0 p.val = none) ∧ (held true).qRunning 0 2 < (held true).fld (R.COX_Q_CTRL 0 2) 5 3 + 1 ∧
    ((headed true).words.getD 5 0).getLsbD 0 = false ∧ ((headed true).words.getD 5 0).getLsbD 1 = true ∧ ((held true).core (.seat 0 1)).mode = .idle ∧
    ((queued 6).setReg (R.COX_Q_STAT 0 2) 2).fld (R.COX_Q_STAT 0 2) 0 2 = 2 ∧ ((queued 6).setReg (R.COX_Q_CTRL 0 2) 2).qEvent 0 2 = true := by decide

theorem test_counters :
    after (.cntInc 0 63 255) (base.setReg32 (R.COX_CNT_LO 0 63) 0xFFFFFFFF) (fun t => t.reg32 (R.COX_CNT_LO 0 63)) = some 0xFE ∧
    after (.gateEvaluation 0 2) (held false) (fun t => (t.headOf 0 2).map (fun h => (h.g0, h.g1))) = some (some (true, true)) ∧
    after (.hcas (.cox 3) 0 5 1 2) (base.setReg (R.HT_CTRL 0 5) 1) (fun t => (t.reg (R.HT_CTRL 0 5), t.hcasRes.map Prod.snd)) = some (2, [3]) ∧
    after (.hcas .host 0 5 0 2) (base.setReg (R.HT_CTRL 0 5) 1) (fun t => (t.reg (R.HT_CTRL 0 5), t.hcasRes.map Prod.snd)) = some (1, [2]) ∧
    after (.coxDbellSet 0 0x8000) (base.setReg (R.COX_DBELL_STAT 0) 1) (fun t => t.reg (R.COX_DBELL_STAT 0)) = some 0x8001 := by decide +kernel

theorem test_queues :
    after (.queueEnable 0 2 0x0401) (base.setReg32 (R.COX_Q_BASE_LO 0 2) 0x100000) (fun t => (t.reg (R.COX_Q_STAT 0 2), t.reg (R.COX_Q_CTRL 0 2))) = some (1, 0x0401) ∧
    after (.queueEnable 0 2 0x0401) (base.setReg32 (R.COX_Q_BASE_LO 0 2) 0xFFFF0) (fun t => t.reg (R.COX_Q_STAT 0 2) &&& 0x3F) = some 0x22 ∧
    after (.queueDisable 0 2 0x0400) (queued 6) (fun t => (t.qState 0 2, t.qTail 0 2)) = some (0, 1) ∧
    after (.tailWrite 0 2 16) (queued 6) (fun t => t.qTail 0 2) = some 16 ∧
    after (.tailWrite 0 2 17) (queued 6) (fun t => (t.qState 0 2, t.qTail 0 2)) = some (2, 1) ∧
    after (.headWrite 0 2 1) ((queued 6).setReg (R.COX_Q_CTRL 0 2) 0x0403) (fun t => t.qHead 0 2) = some 1 ∧
    after (.headWrite 0 2 2) ((queued 6).setReg (R.COX_Q_CTRL 0 2) 0x0403) (fun t => t.qHead 0 2) = some 0 := by decide +kernel

theorem test_queueErrors :
    after (.restart 0 2) ((queued 6).setReg (R.COX_Q_STAT 0 2) 6) (fun t => (t.qState 0 2, t.qHead 0 2)) = some (1, 0) ∧
    after (.skip 0 2) ((queued 6).setReg (R.COX_Q_STAT 0 2) 6) (fun t => (t.qState 0 2, t.qHead 0 2)) = some (1, 1) ∧
    after (.flush 0 2) (held true) (fun t => (t.qHead 0 2, t.headOf 0 2)) = some (1, none) := by decide +kernel

theorem test_dispatch :
    after (.headFetch 0 2) (queued 6) (fun t => (t.headOf 0 2).map HeadBuf.words) = some (some (headed true).words) ∧
    after (.headFetch 0 2) (queued 0) (fun t => (t.qState 0 2, t.fld (R.COX_Q_STAT 0 2) 2 4)) = some (2, 3) ∧
    after (.dispatchRound 0) (held true) (fun t => ((t.core (.seat 0 1)).mode, (t.core (.seat 0 1)).pc, (t.core (.seat 0 1)).rw 1, t.qHead 0 2)) =
      some (.running, 0x400, 0x77, 1) ∧
    after (.dispatchRound 0) (held true) (fun t => [0, 1, 7].map (t.core (.seat 0 1)).ra) = some [0x11, 0x100000, 0x20000] := by decide +kernel

/-- Seat 0 has ended a task of queue 2, with the action words 4, 6, 7 and 8. -/
def ended (w4 w6 w7 w8 : Word) : State :=
  run (fun k => { k with wait := some .tend, task := some ⟨2, [0, 0, 0, 0, w4, 1, w6, w7, w8, 0, 0, 0, 0, 0, 0, 0], 0, none, false⟩ })

/-- An advance by 5 of counter 63 of crew 1 is on the control network. -/
def advancing : State := { base with ctl := [⟨.cox 0, .advance ⟨0, 2, 1, 63, 5, false⟩, 0, []⟩] }

theorem witness_tasks :
    (ended 0 0 0 0).crewUp 0 = true ∧ ((ended 2 0 0 0).core s0).wait = some .tend ∧ (ended 2 0 0 0).bit (R.COX_STROKE_STAT 0) 9 = false ∧
    (ended 2 0 0 0).crewKilled 0 = false ∧ ((ended 2 0 0 0).core s0).matQ = [] ∧ (handles (ended 8 0 0 0x205)).hStateUse 0 0 5 = true ∧
    (handles (ended 8 0 0 0x207)).hStateUse 0 0 7 = false ∧ (advancing.ctlPick 0 (fun t => t.advance.isSome)).isSome = true ∧
    base.laneOf 1 = base.laneOf 0 ∧ base.crewKilled 1 = false := by decide

theorem test_tasks :
    after (.taskCompletion 0 0) (ended 2 0 0 0) (fun t => ((t.core s0).mode, t.reg (R.COX_TDONE_LO 0))) = some (.idle, 4) ∧
    after (.taskCompletion 0 0) (ended 4 0x3F 9 0) (fun t => t.reg32 (R.COX_CNT_LO 0 63)) = some 9 ∧
    after (.taskCompletion 0 0) (ended 4 0x207F 9 0) (fun t => t.ctl.map CtlTxn.advance) = some [some ⟨0, 2, 1, 63, 9, false⟩] ∧
    after (.taskCompletion 0 0) (handles (ended 8 0 0 0x205)) (fun t => t.fld (R.HT_CTRL 0 5) 0 2) = some 2 ∧
    after (.counterAdvanceArrival 0) advancing (fun t => (t.reg32 (R.COX_CNT_LO 1 63), t.ctl)) = some (5, []) := by decide +kernel

theorem witness_seatCommands :
    ((run id).core s0).mode = .running ∧ ((run (fun k => { k with mode := .stopped })).core s0).mode = .stopped ∧ (base.core s0).mode = .idle ∧
    ((run (fun k => { k with mode := .stopped })).core s0).task = none ∧ (State.reset.core x0).mode = .reset ∧
    ((run id).reg (R.COX_STROKE_STAT 0)).getLsbD 9 = false := by decide

theorem test_seatCommands :
    after (.coxSeatStop 0 0) (run id) (fun t => (t.core s0).stopReq) = some true ∧ after (.coxSeatStop 0 0) base (fun t => (t.core s0).mode) = some .stopped ∧
    after (.coxSeatResume 0 0) (run (fun k => { k with mode := .stopped, epc := 0x300, task := some ⟨0, [], 0, none, false⟩ }))
      (fun t => ((t.core s0).mode, (t.core s0).pc)) = some (.running, 0x300) ∧
    after (.coxSeatAbort 0 0) (run id) (fun t => ((t.core s0).mode, t.reg (R.COX_ABORTS 0))) = some (.idle, 1) := by decide +kernel

/-! ## DMA engines (spec/08) -/

/-- Engine 1 of crew 0 in a state, with what it holds. -/
def engine (state : Nat) (f : Dma → Dma) : State := (base.setReg (R.DMA_STAT 0 1) (BitVec.ofNat 16 state)).setEng 0 1 (f (base.eng 0 1))

/-- A COPY of `len` words from 0x0020_0000 to 0x0020_1000 of the own crew store that ends its chain. -/
def copyWords (len : Word) : List Word := [0, 0, 0x0800, 0, 0, 0x20, 0x1000, 0x20, len, 0, 0, 0, 0, 0, 0, 0]
def copying (read : Nat) (buf : List Word) : State :=
  (engine 3 (fun d => { d with words := copyWords 2, read := read, buf := buf, src := { d.src with base := 0x200000 }, dst := { d.dst with base := 0x201000 } })).writeWords
    [(0x20100000, 0x11), (0x20100001, 0x22)]

/-- An engine with its chain at 0x0020_0000, where a WAIT that ends the chain stands, of the given lane. -/
def fetching (lane : Word) : State :=
  ((engine 1 id).setReg32 (R.DMA_CUR_LO 0 1) 0x200000).writeWords [(0x20100002, 0x0802), (0x2010000B, lane)]

theorem witness_dma :
    base.crewUp 0 = true ∧ base.crewKilled 0 = false ∧ (engine 5 id).fld (R.DMA_STAT 0 1) 0 3 = 5 ∧ ((engine 6 id).eng 0 1).halting = none ∧
    ((engine 2 id).eng 0 1).out.any DmaReq.isWrite = false ∧ (fetching 0).answers 0x2010000F = true ∧ (fetching 0).eccTwo = [] ∧
    ((engine 2 (fun d => { d with words := [0, 0, 2, 0, 0, 0, 0, 0, 0, 0, 0, 0, 0x0D, 5, 0, 0] })).eng 0 1).words.getD 12 0 = 0x0D ∧
    (∀ j : Fin 4, j ≠ 1 → (copying 0 []).dmaAsks 0 j.val = false) ∧ (copying 0 []).dmaWord 0 0 0x200001 = .inl 0x20100001 ∧ memCrew 0x20100001 = 0 ∧
    (copying 0 []).dmaWord 0 0 0x201001 = .inl 0x20101001 := by decide

theorem witness_dmaList :
    let s := (engine 3 (fun d => { d with words := copyWords 8, src := ⟨2, 0, none, none, 0x200000, 0, 0⟩ })).writeWords [(0x20100000, 0x3000), (0x20100001, 0x20), (0x20100002, 8)]
    let d := s.eng 0 1
    d.src.pat = 2 ∧ d.src.left = 0 ∧ d.wantsRead = true ∧ d.src.handle = none ∧ d.src.next % 4 = 0 ∧
    s.ownRead 0 d.src.next 4 = (s, some [0x3000, 0x20, 8, 0]) ∧ d.read + 8 ≤ 8 ∧
    (let r : DmaReq := ⟨7, .read, 0x10000000, 1, false⟩
     let p : Packet := { kind := .readData, dst := 0, exit := .crew, src := 1, req := .dma 0 1, prio := 0, born := 0, addr := 0x10000000, len := 1, lane := 0
                         tag := 7, poison := false, cause := .none, words := [(0x10000000, 9)] }
     let t := engine 3 (fun d => { d with words := copyWords 2, out := [r] })
     (t.eng 0 1).out = [r] ∧ r.tag = p.tag ∧ r.len = p.words.length ∧ (t.eng 0 1).src.pat = 0 ∧
     mapGet (fun _ => []) ({ t with exits := [(0, [p])] } : State).exits 0 = [p]) := by
  decide +kernel

theorem test_dmaCommands :
    after (.dmaStart 0 1) ((engine 5 id).setReg32 (R.DMA_HEAD_LO 0 1) 0x20000F) (fun t => (t.reg (R.DMA_STAT 0 1), t.reg32 (R.DMA_CUR_LO 0 1))) = some (1, 0x200000) ∧
    after (.dmaStart 0 1) (engine 3 id) (fun t => t.reg (R.DMA_STAT 0 1)) = some 0x103 ∧
    after (.dmaStop 0 1) (engine 2 id) (fun t => (t.reg (R.DMA_STAT 0 1), t.reg (R.DMA_IRQ 0 1))) = some (0x2D, 4) ∧
    after (.dmaAbort 0 1) (engine 3 (fun d => { d with buf := [1] })) (fun t => (t.fld (R.DMA_STAT 0 1) 0 3, (t.eng 0 1).buf)) = some (6, []) ∧
    after (.abortComplete 0 1) (engine 6 id) (fun t => (t.fld (R.DMA_STAT 0 1) 0 3, t.reg (R.DMA_IRQ 0 1))) = some (0, 8) ∧
    after (.dmaResume 0 1) (engine 5 id) (fun t => t.fld (R.DMA_STAT 0 1) 0 3) = some 1 := by decide +kernel

theorem test_dmaDescriptors :
    after (.descriptorFetch 0 1) (fetching 0) (fun t => (t.reg (R.DMA_STAT 0 1), (t.eng 0 1).ready)) = some (3, true) ∧
    after (.descriptorFetch 0 1) (fetching 1) (fun t => t.reg (R.DMA_STAT 0 1) &&& 0xFF) = some 0x45 ∧
    after (.dmaGateOpen 0 1) ((engine 2 (fun d => { d with words := [0, 0, 2, 0, 0, 0, 0, 0, 0, 0, 0, 0, 0x0D, 5, 0, 0] })).setReg32 (R.COX_CNT_LO 0 3) 5)
      (fun t => t.fld (R.DMA_STAT 0 1) 0 3) = some 3 ∧
    after (.descriptorCompletion 0 1) (engine 3 (fun d => { d with ready := true, words := [0, 0, 0x4C02, 0x0083, 0, 0, 0, 0, 0, 0, 0, 0, 0, 0, 0, 0] }))
      (fun t => (t.fld (R.DMA_STAT 0 1) 0 3, t.reg32 (R.COX_CNT_LO 0 3), t.reg (R.DMA_IRQ 0 1))) = some (0, 2, 2) := by decide +kernel

theorem test_dmaTransfers :
    after (.dmaBurstGrant 0) (copying 0 []) (fun t => ((t.eng 0 1).buf, (t.eng 0 1).read)) = some ([0x11, 0x22], 2) ∧
    after (.dmaBurstGrant 0) (copying 2 [0x11, 0x22]) (fun t => (t.word 0x20101000, t.word 0x20101001, (t.eng 0 1).ready)) = some (0x11, 0x22, true) ∧
    after (.dmaTimeout 0 1 0) (engine 3 (fun d => { d with words := copyWords 2, out := [⟨7, .read, 0x10100000, 2, false⟩] }))
      (fun t => (t.reg (R.DMA_STAT 0 1), t.reg32 (R.DMA_FAILADDR_LO 0 1))) = some (0x1D, 0x10100000) := by decide +kernel

/-! ## On-chip networks and identifiers (spec/09, spec/10) -/

/-- A write of 9 to 0x1010_0005 of crew 1, by seat 0 of crew 0. -/
def writePkt (kind : PktKind) : Packet :=
  { kind := kind, dst := 1, exit := .crew, src := 0, req := .core s0, prio := 3, born := 0, addr := 0x10100005, len := 1, lane := 0, tag := 7
    poison := false, cause := .none, words := [(0x10100005, 9)] }
def arrived (r : Nat) (p : Packet) : State := { base with exits := [(r, [p])], outWrites := [(coreKey s0, [(7, true)])] }

theorem witness_mesh :
    base.meshUp = true ∧ (base.setMeshIn 0 0 0 [writePkt .write]).meshIn 0 0 (writePkt .write).vc = [writePkt .write] ∧ base.crewMem 1 = true ∧
    (writePkt .write).flits ≤ 8 ∧ (base.asArbitrated 0 (writePkt .write)).promoted = false ∧ base.holder 0 1 0 = none ∧ routeOut 0 (writePkt .write) = 1 ∧ routeOut 1 (writePkt .write) = 4 ∧
    (arrived 1 (writePkt .write)).oldestRequest 1 .write = some (writePkt .write) ∧ base.globalPlace 0x10100005 = .mem 0x10100005 ∧
    base.globalPlace 0x30000000 = .mem 0x30000000 ∧ base.globalPlace 0x50000000 = .unmapped ∧ base.answers 0x10100005 = true ∧
    ((arrived 0 (writePkt .writeAck)).coreAck 0).map Prod.fst = some s0 ∧ ((arrived 0 (writePkt .writeAck)).core s0).wait ≠ some .csync := by decide

theorem test_mesh :
    after (.routerArbitration 0 ⟨1, .none⟩) (base.setMeshIn 0 0 0 [writePkt .write]) (fun t => ((t.meshIn 0 0 0).length, (t.meshIn 1 (linkEnd 0 1).2 0).length)) = some (0, 1) ∧
    after (.meshWrite 1) (arrived 1 (writePkt .write)) (fun t => (t.word 0x10100005, (t.meshIn 1 0 1).map (fun a => (a.kind, a.dst, a.tag)))) = some (9, [(.writeAck, 0, 7)]) ∧
    after (.meshRead 1) ((arrived 1 { writePkt .read with words := [] }).writeWords [(0x10100005, 4)]) (fun t => (t.meshIn 1 0 1).map (fun a => (a.kind, a.words))) =
      some [(.readData, [(0x10100005, 4)])] ∧
    after (.writeAcknowledge 0) (arrived 0 (writePkt .error)) (fun t => ((t.core s0).errs, t.outWrites.length)) = some ([0x10100005], 0) := by decide +kernel

theorem test_meshErrors :
    after (.routerArbitration 0 ⟨1, .double⟩) (base.setMeshIn 0 0 0 [writePkt .write]) (fun t => ((t.meshIn 1 (linkEnd 0 1).2 0).map Packet.poison, t.reg (R.MESH_ERR 1))) =
      some ([true], 2) ∧
    after (.routerArbitration 0 ⟨1, .none⟩) ({ base with storeOn := base.storeOn &&& ~~~2 }.setMeshIn 0 0 0 [writePkt .write])
      (fun t => ((t.meshIn 0 0 1).map (fun a => (a.kind, a.cause)), t.reg (R.MESH_ERR 0))) = some ([(.error, .unpowered)], 4) := by decide +kernel

/-- A transaction of crew 0's control core on the control network. -/
def txn (a : Addr) (w : Option (BitVec 32)) (dst : Option LoadDst) : CtlTxn := ⟨.cox 0, .core a false w dst, 0, []⟩

theorem witness_control :
    ((cox id).readAny (.cox 0) 0xF000010F false).2.isSome = true ∧ ((cox id).writeAny (.cox 0) (R.COX_IE 0) false 5).2 = true ∧
    ({ cox id with ctl := [txn (BitVec.ofNat 32 (R.COX_IE 0)) (some 5) none] } : State).ctl[0]?.isSome = true ∧
    ((cox id).core x0).wait ≠ some .csync := by decide +kernel

theorem test_control :
    after (.controlTransaction 0) { cox id with ctl := [txn (BitVec.ofNat 32 (R.COX_IE 0)) (some 5) none] } (fun t => (t.reg (R.COX_IE 0), t.ctl)) = some (5, []) ∧
    after (.controlTransaction 0) { (cox id).setReg (R.COX_IE 0) 6 with ctl := [txn (BitVec.ofNat 32 (R.COX_IE 0)) none (some (.w 3))] }
      (fun t => (t.core x0).returned) = some [⟨.w 3, 6⟩] ∧
    after (.controlTimeout 0) { cox (fun k => { k with busyW := 8 }) with ctl := [txn 0xF0770000 none (some (.w 3))] }
      (fun t => ((t.core x0).errs, (t.core x0).busyW)) = some ([0xF0770000], 0) := by decide +kernel

theorem witness_identifiers : base.gwAny = true ∧ (∀ p : Fin 32, base.portState p.val = 0) ∧ (base.setReg (R.GW_STAT 0) 4).portState 0 = 4 := by decide +kernel

theorem test_identifiers :
    after (.devidWrite false 0xFFFF) base (fun t => t.reg R.GW_DEVID) = some 0x80FF ∧ after (.devidWrite true 7) base (fun t => t.reg R.GW_SYSID) = some 7 ∧
    after (.devidWrite true 7) (base.setReg (R.GW_STAT 0) 4) (fun t => (t.reg R.GW_SYSID, t.reg R.GW_FEVT)) = some (base.reg R.GW_SYSID, 2) ∧
    after (.routingEntryWrite 255 0xFFFF) base (fun t => t.reg 0xF14001FE) = some 0x1FFF := by
  decide +kernel

/-- Group 3's only member, seat 0 of crew 0, has arrived and waits; so does call 4. -/
def arrival : State := (synced (run (fun k => { k with wait := some (.cgw 3), cgw := [(3, 1)] }))).setReg (R.SYN_CGARR 0 3) 1

theorem witness_groups :
    arrival.meshUp = true ∧ (arrival.reg (R.SYN_CGCTRL 3)).getLsbD 0 = true ∧ (arrival.reg (R.SYN_CGCTRL 3)).getLsbD 1 = false ∧
    (∀ c : Fin 96, arrival.cgMembers c.val 3 &&& ~~~ (arrival.reg (R.SYN_CGARR c.val 3)) = 0) ∧ arrival.cgMembers 0 3 ≠ 0 ∧ arrival.cgEarly 3 = [] ∧
    (arrival.core s0).wait = some (.cgw 3) ∧ (arrival.core s0).cgw = [(3, 1)] ∧ (arrival.reg (R.SYN_CGCTRL 63)).getLsbD 0 = false ∧
    (arrival.reg (R.SYN_CALLCFG 4)).getLsbD 11 = true ∧ (arrival.reg (R.SYN_CALLCFG 4)).getLsbD 10 = false ∧ (arrival.reg (R.SYN_CALLCFG 5)).getLsbD 10 = true ∧
    arrival.stkState < 2 ∧ (arrival.reg (R.SYN_CALLCFG 255)).getLsbD 11 = false := by decide +kernel

theorem test_groups :
    after (.catchGroupEnable 63 0x0FFE) arrival (fun t => t.reg (R.SYN_CGCTRL 63)) = some 0xFFF ∧
    after (.catchGroupDisable 3 0) arrival (fun t => ((t.core s0).stopping.map (fun x => x.code), t.reg (R.SYN_CGCTRL 3))) = some (some 3, 0) := by decide +kernel

theorem test_callCommands :
    after (.callSet 0 0x10) (synced (run (fun k => { k with wait := some (.clw 4) }))) (fun t => (t.reg (R.SYN_CALLVAL 0), (t.core s0).wait)) = some (0x10, none) ∧
    after (.callClear 0 0x10) ((synced base).setReg (R.SYN_CALLVAL 0) 0x11) (fun t => t.reg (R.SYN_CALLVAL 0)) = some 1 ∧
    after (.callSet 0 0x20) (synced base) (fun t => (t.reg (R.SYN_CALLVAL 0), t.reg R.SYN_ERR)) = some (0, 8) ∧
    after (.callDisable 4 0) ((synced base).setReg (R.SYN_CALLVAL 0) 0x11) (fun t => (t.reg (R.SYN_CALLVAL 0), t.reg (R.SYN_CALLCFG 4))) = some (1, 0) := by decide +kernel

/-! ## Register space (spec/02) -/

/-- PF0 with bus mastering and memory decoding, its vector 0 open. -/
def fn0 : HostFn := { HostFn.reset 0 with bme := true, mse := true, table := [(3, 0)] }

/-- `base` with the host's link up. -/
def hosted : State := { base with perst := false, link := (5, 16, true), fns := [(0, fn0)] }

theorem witness_registers :
    hosted.mayAccess .host = true ∧ base.mayAccess .host = false ∧ hosted.answersAt (R.MESH_PRIO 0 + 1) = true ∧
    hosted.answersAt 0xF8000001 = true ∧ ({ hosted with vcOn := 0 } : State).answersAt (R.MESH_PRIO 0) = false ∧
    hosted.reg R.HST_ACCERR_STAT = 0 ∧ hosted.crewUp 0 = true ∧
    State.reset.answersAt (R.MESH_PRIO 0) = false ∧ base.crewUp 0 = true ∧ base.warm = false ∧ base.answersAt (R.MESH_PRIO 0) = true ∧
    base.reg R.HST_ACCERR_STAT = 0 ∧ base.reg (R.MESH_PRIO 0) &&& 0xF888 = 0 ∧ (0x777 : Word).getLsbD 3 = false := by decide +kernel

theorem test_registerAccesses :
    after (.registerWrite .host (BitVec.ofNat 27 (R.MESH_PRIO 0 - 0xF0000000)) false 0xFFFF) hosted (fun t => t.reg (R.MESH_PRIO 0)) = some 0x777 ∧
    after (.clearingRead .boathouse (BitVec.ofNat 27 (R.COX_MEM_ERR 0 - 0xF0000000)) false) (base.setReg (R.COX_MEM_ERR 0) 7)
      (fun t => (t.reg (R.COX_MEM_ERR 0), t.lastRead.map (fun x => x.data))) = some (4, some [7, 0]) ∧
    after (.aliasRead (.cox 5) (BitVec.ofNat 27 (16 * (R.COX_MEM_ERR 0 - 0xF0000000) + 1)) false) (base.setReg (R.COX_MEM_ERR 0) 3) (fun t => t.reg (R.COX_MEM_ERR 0)) = some 1 ∧
    after (.aliasWrite .host (BitVec.ofNat 27 (16 * (R.MESH_PRIO 0 - 0xF0000000))) false 1) (hosted.setReg (R.MESH_PRIO 0) 0) (fun t => t.reg (R.MESH_PRIO 0)) = some 1 ∧
    after (.peekWrite .host (BitVec.ofNat 28 (R.MESH_PRIO 0 - 0xF0000000)) false 1) hosted (fun t => (t.reg R.HST_ACCERR_STAT, t.reg (R.MESH_PRIO 0))) =
      some (0x10, base.reg (R.MESH_PRIO 0)) := by decide +kernel

theorem test_unpowered_registers :
    after (.registerWrite .host (BitVec.ofNat 27 (R.PWR_CLK 7 - 0xF0000000)) false 0x50) { hosted with vcOn := 0 }
      (fun t => (t.reg R.HST_ACCERR_STAT, t.reg32 R.HST_ACCERR_ADDR_LO, t.lastRead.map (fun x => x.status))) =
        some (8, 0xF0079000, some .discarded) ∧
    ({ hosted with vcOn := 0 } : State).view .boathouse (R.PWR_CLK 7 - 0x10000000) = 0 ∧
    after (.controlTimeout 0) { base with ctl := [txn 0xF025FFF0 none (some (.w 3))] } (fun t => t.ctl.length) = some 1 := by decide +kernel

theorem test_snapshotRead :
    after (.snapshotRead .host (BitVec.ofNat 27 0x600030)) { hosted with time := 0x123456789 } (fun t => (t.lastRead.map (fun x => x.data), t.readValue .host 0xF0600031)) =
      some (some [0x89, 0x67], 0x2345) := by decide +kernel

/-! ## The stroke (spec/03) -/

/-- `base` with the stroke logic in a state and phase, and the reference locked. -/
def stroke (state phase : Nat) : State := ((base.setFld R.STK_STAT 0 3 state).setFld R.STK_STAT 4 2 phase).setBit R.BH_CLK 0 true

/-- A port in a state, with what it holds. -/
def port (s : State) (p state : Nat) (f : Port → Port) : State := (s.setFld (R.GW_STAT p) 0 4 state).setPort p (f (s.port p))

/-- The content of a SYNC flit of a master's slot. -/
def msg (master hops : Nat) : SyncMsg := { syncOf [] with mvalid := true, master := master, hops := hops }

theorem witness_stroke :
    (stroke 0 0).stkState = 0 ∧ (stroke 1 0).stkState = 1 ∧ (stroke 1 0).following = none ∧ (stroke 2 3).stkPhase = 3 ∧ (stroke 4 2).stkPhase = 2 ∧
    (stroke 2 3).stroke.first = none ∧ (stroke 2 3).held = false ∧ ((stroke 2 3).setBit R.STK_STAT 6 true).held = true ∧
    ((stroke 1 0).setReg R.STK_MASTER 0x107).following = some 7 ∧ (stroke 2 3).crewUp 95 = true ∧ (stroke 2 3).paceOn = false ∧
    (((stroke 2 3).setReg (R.COX_STROKE_STAT 95) 0x100).reg (R.COX_STROKE_STAT 95)).getLsbD 8 = true := by decide +kernel

theorem test_strokePhases :
    after .driveEntry (stroke 0 0) (fun t => t.stkPhase) = some 0 ∧
    after .catchInstant (stroke 0 0) (fun t => t.stkPhase) = some 0 ∧
    after (.strokeResume 95) ((stroke 2 3).setReg (R.COX_STROKE_STAT 95) 0x100) (fun t => t.reg (R.COX_STROKE_STAT 95)) = some 0 := by decide +kernel

theorem witness_master :
    (stroke 0 0).warm = false ∧ (stroke 2 0).isMaster = false ∧ ((stroke 2 0).setBit R.STK_STAT 3 true).isMaster = true ∧ (stroke 2 0).activePorts = [] ∧
    (port (stroke 2 0) 31 5 id).activePorts = [31] ∧ (stroke 2 0).reg R.BH_CLK &&& 1 = 1 ∧ ((stroke 1 0).setReg R.STK_CTRL 1).reg R.STK_CTRL = 1 ∧
    ((port (stroke 2 0) 31 5 (fun x => { x with heard := some (msg 7 254) })).port 31).heard = some (msg 7 254) ∧ (msg 7 254).up = false := by decide +kernel

theorem test_master :
    after (.strokeEnable 0xFFFF) (stroke 0 0) (fun t => (t.reg R.STK_CTRL, t.stkState)) = some (0xF, 1) ∧
    after (.strokeEnable 0) (stroke 2 3) (fun t => (t.stkState, t.stkPhase)) = some (0, 0) ∧ after .stkApply (stroke 2 0) (fun t => t.reg R.STK_EVT) = some 0x40 ∧
    after .stkApply (((stroke 2 0).setBit R.STK_STAT 3 true).setReg32 R.STK_PERIOD_LO 1) (fun t => (t.stroke.pend.map (fun x => (x.1.period, x.2)), t.reg R.STK_EVT)) =
      some (some (2000, 2), 0x20) ∧
    after .elect (stroke 2 0) (fun t => (t.stroke.electing, t.stroke.gen)) = some (true, 1) := by decide +kernel

theorem test_masterEvents :
    after .masterLoss { port (stroke 2 0) 31 5 id with time := 1000000 } (fun t => (t.stkState, t.reg R.STK_EVT)) = some (3, 1) ∧
    after .syncListenTimeout { (stroke 1 0).setReg R.STK_CTRL 1 with time := 1000000 } (fun t => (t.stkState, t.isMaster, t.stroke.first)) = some (2, true, some 1020000) ∧
    after .holdoverExpiry { stroke 3 0 with time := 50000000 } (fun t => (t.stkState, t.isMaster, t.reg R.STK_EVT)) = some (4, true, 0x80) ∧
    after .upstreamSwitch ((port (stroke 2 0) 31 5 (fun x => { x with heard := some (msg 7 254) })).setReg R.STK_MASTER 0x107) (fun t => t.stroke.upstream) =
      some (some 31) := by decide +kernel

theorem test_holdLimit :
    after .holdLimit { (((stroke 2 3).setBit R.STK_STAT 3 true).setBit R.STK_STAT 6 true) with time := 1000000 } (fun t => (t.stroke.announce.isSome, t.reg R.STK_EVT)) = some (true, 0x10) := by
  decide +kernel

/-! ## Gweni links (spec/10) -/

/-- A flit with a right CRC. -/
def good (ty : FType) (h : FlitHdr) (ws : List Word) : Flit := { hdr := h, payload := ws, crc := flitCrc ty h ws, fec := false }
def hdr (seq : BitVec 12) : FlitHdr := ⟨seq, 0xFFF, false, 0, 0, 5, 0⟩

set_option maxRecDepth 100000 in
theorem witness_flits :
    (port base 31 5 id).gwUp 31 = true ∧ (port base 31 5 id).portState 31 = 5 ∧ ((port base 31 5 id).port 31).degrade = none ∧ ((port base 31 5 id).port 31).rxNext < 4096 ∧
    flitOk .idle { good .idle (hdr 0) [] with crc := 0 } = false ∧ (port base 31 5 id).linkUp 31 = true ∧ ((port base 31 5 id).port 31).pos % 64 = 0 ∧
    ((port base 31 6 (fun x => { x with ctrl := [[1], [2]] })).port 31).ctrl = [[1], [2]] := by decide +kernel

set_option maxRecDepth 100000 in
theorem witness_goodFlit : flitOk .data (good .data (hdr 0) [0]) = true ∧ flitOk .idle (good .idle (hdr 4) []) = true := by decide +kernel

set_option maxRecDepth 100000 in
theorem test_flits :
    after (.dataFlit 31 (good .data (hdr 0) [0])) (port base 31 5 id) (fun t => ((t.port 31).rxNext, (t.port 31).credit.get 0)) = some (1, 5) ∧
    after (.dataFlit 31 (good .data (hdr 3) [0])) (port base 31 5 id) (fun t => ((t.port 31).rxNext, (t.port 31).nak, t.reg (R.GW_REPLAY 31))) = some (0, true, 1) ∧
    after (.dataFlit 31 { good .data (hdr 0) [0] with fec := true, crc := 0, unc := [(true, false)] }) (port base 31 5 id) (fun t => (t.reg (R.GW_CRCERR 31), t.reg (R.GW_FECUNC 31))) = some (1, 1) ∧
    after (.idleFlit 31 (good .idle (hdr 0) [])) (port base 31 5 id) (fun t => (t.port 31).rxNext) = some 0 := by decide +kernel

theorem test_flitSlot :
    after (.flitSlot 31) (port base 31 6 (fun x => { x with ctrl := [[1], [2]] })) (fun t => ((t.port 31).ctrl, (t.port 31).last.map Prod.fst)) = some ([[2]], some .ctrl) ∧
    after (.flitSlot 31) (port base 31 5 (fun x => { x with pos := 1 })) (fun t => ((t.port 31).last.map Prod.fst, (t.port 31).pos)) = some (some .idle, 2) ∧
    after (.flitSlot 31) (port base 31 5 (fun x => { x with pos := 1, replay := [⟨9, 0, 0, [7], 1⟩], resend := 1 }))
      (fun t => ((t.port 31).last.map (fun y => y.2.hdr.seq), (t.port 31).resend)) = some (some 9, 0) := by decide +kernel

theorem witness_links :
    (port base 31 5 (fun x => { x with episode := some (0, 7) })).gwUp 31 = true ∧ (base.port 31).queues.toList.flatten = [] ∧
    ((base.setFld (R.GW_STAT 31) 4 2 3).setBit (R.GW_CTRL 31) 3 true).portWidth 31 = 3 ∧
    (128 ≤ ((fun (x : Port) => (x.sent.get 0 + 256 - x.credit.get 0 % 256) % 256) { Port.empty with sent := Vector.replicate 6 128 })) ∧
    base.bit R.GW_DEVID 15 = false ∧ (port base 31 9 (fun x => { x with degrade := some (true, 0, true) })).portState 31 = 9 := by decide +kernel

theorem test_linkEvents :
    after (.nakRepeat 31) (port base 31 5 (fun x => { x with episode := some (0, 7) })) (fun t => ((t.port 31).episode, (t.port 31).nak)) = some (some (0, 8), true) ∧
    after (.retryExhaustion 31 false) (port base 31 5 (fun x => { x with episode := some (0, 8) })) (fun t => (t.portState 31, t.reg (R.GW_CAUSE 31))) = some (7, 6) ∧
    after (.gwCmdDown 31) (port base 31 4 id) (fun t => (t.portState 31, t.reg (R.GW_CAUSE 31))) = some (7, 7) ∧
    after (.ctrlDown 31 (hdr 0) 3) (port base 31 6 id) (fun t => (t.portState 31, t.reg (R.GW_CAUSE 31))) = some (7, 8) ∧
    after (.degradeTimeout 31) (port base 31 9 (fun x => { x with degrade := some (true, 0, true) })) (fun t => t.reg (R.GW_CAUSE 31)) = some 6 ∧
    after (.trainingTimeout 31) (port base 31 2 id) (fun t => t.reg (R.GW_CAUSE 31)) = some 10 := by decide +kernel

theorem test_training :
    after (.lightDetect 31 0x0F) (port base 31 1 id) (fun t => t.portState 31) = some 2 ∧ after (.lightDetect 31 0x07) (port base 31 1 id) (fun t => t.portState 31) = some 1 ∧
    after (.lockComplete 31 0xFF) (port base 31 2 (fun x => { x with lit := 0x0F })) (fun t => t.portState 31) = some 3 ∧
    after (.alignComplete 31) ((port base 31 3 id).setFld (R.GW_STAT 31) 6 8 0xFF |>.setBit R.GW_DEVID 15 true) (fun t => (t.portState 31, t.portWidth 31)) = some (4, 3) ∧
    after (.alignComplete 31) (port base 31 3 id) (fun t => (t.portState 31, t.reg (R.GW_CAUSE 31))) = some (3, 4) ∧
    after (.downEnd 31) (port base 31 7 (fun x => { x with redo := true })) (fun t => t.portState 31) = some 1 := by decide +kernel

theorem test_ident :
    after (.ident 31 (hdr 0) ⟨9, 2, 0, 0, 0xFF, false, false, 0⟩) (port base 31 4 id) (fun t => (t.portState 31, t.reg (R.GW_NBR 31))) = some (5, 0x8209) ∧
    after (.ident 31 (hdr 0) ⟨9, 2, 1, 0, 0xFF, false, false, 0⟩) (port base 31 4 id) (fun t => (t.portState 31, t.reg (R.GW_CAUSE 31))) = some (6, 1) ∧
    after (.heldIdent 31) (port base 31 6 id) (fun t => (t.port 31).ctrl.length) = some 1 ∧
    after (.portEnable 31 1) (base.setReg (R.GW_CTRL 31) 0) (fun t => (t.portState 31, t.reg (R.GW_CTRL 31))) = some (1, 1) ∧
    after (.portEnable 31 0) ((port base 31 5 id).setReg (R.GW_CTRL 31) 1) (fun t => (t.portState 31, t.reg (R.GW_CAUSE 31))) = some (0, 7) := by decide +kernel

/-! ## Remote memory access (spec/11, spec/12) -/

/-- Window 5 of lane 0, open for all: 0x1000 words from 0x2000_1000, key 9, hails to crew 0. -/
def window : State :=
  ((((base.setReg (R.WIN_CTRL 5) 0xF).setReg32 (R.WIN_BASE_LO 5) 0x20001000).setReg32 (R.WIN_LEN_LO 5) 0x1000).setReg32 (R.WIN_KEY_LO 5) 9)

/-- A request of type ty of this device to itself through window 5, one word at offset 3. -/
def req (ty : TType) : Tpkt := ⟨ty, 3, 0, base.devId, base.devId, 5, true, false, 0, false, false, 0, 0, 9, 3, if ty = .write then 1 else 0, 0, [0xAB]⟩
def queuedIn (k : Tpkt) : State := { window with ownIn := [⟨k, 0, none, 0, 0⟩] }

/-- A request of this device to itself that is not answered, in the context of queue 0, lane 0. -/
def ctxKey : Nat := base.devId
def waiting (ty : TType) (o : RmaOrigin) : State := { base with ini := [(ctxKey, { live := true, epoch := 0, next := 1, out := [⟨{ req ty with tag := 0 }, 0, 0, o⟩], lastAt := none })] }
def answer (ty : TType) (param : Word) (seq : BitVec 32) : Tpkt := ⟨ty, 3, 0, base.devId, base.devId, 5, false, false, 0, false, false, 0, seq, 0, 3, param, 0, [7]⟩
def answered (s : State) (k : Tpkt) : State := { s with ownIn := [⟨k, 0, none, 0, 0⟩] }

theorem witness_target :
    base.meshUp = true ∧ (base.reg (R.WIN_CTRL 4095)).getLsbD 0 = false ∧ (window.reg (R.WIN_CTRL 5)).getLsbD 0 = true ∧
    (window.setReg (R.WIN_CTRL 5) 0xE).winOk 5 = true ∧ (queuedIn (req .write)).ownIn = [⟨req .write, 0, none, 0, 0⟩] ∧ (req .hail).dst = base.devId ∧
    (queuedIn (req .write)).rxCtx ((req .write).src * 32 * 1024) = RxCtx.none ∧ (queuedIn (req .write)).time ≤ 0 + 100000 ∧
    window.windowCheck (req .write) = 0 ∧ window.windowCheck { req .write with key := 8 } = 2 ∧ window.windowCheck { req .write with offset := 0x1000 } = 4 ∧
    window.windowCheck { req .read with lane := 1 } = 1 ∧ base.windowCheck (req .write) = 5 ∧ window.crewUp 0 = true ∧ window.crewKilled 0 = false ∧
    window.globalPlace 0x20001003 = .mem 0x20001003 := by decide +kernel

theorem test_windows :
    after (.windowOpen 5 0xF) (window.setReg (R.WIN_CTRL 5) 0) (fun t => t.reg (R.WIN_CTRL 5)) = some 0xF ∧
    after (.windowOpen 5 0xF) ((window.setReg (R.WIN_CTRL 5) 0).setReg32 (R.WIN_LEN_LO 5) 0x1001) (fun t => (t.reg (R.WIN_CTRL 5), t.reg R.RMA_EVT)) = some (0x80E, 1) ∧
    after (.windowClose 5 0xF) window (fun t => t.reg (R.WIN_CTRL 5)) = some 0xE ∧
    after (.rmaTimeoutWrite 11) base (fun t => (t.reg R.RMA_TIMEOUT, t.reg R.RMA_TMOEFF, t.reg R.RMA_EVT)) = some (11, 12, 8) := by decide +kernel

theorem test_requests :
    after (.writePacket none) (queuedIn (req .write)) (fun t => (t.atInput 2 1 0).map Packet.words) = some [[(0x20001003, 0xAB)]] ∧
    after (.writePacket none) (queuedIn (req .write)) (fun t => t.ops.map MemOp.left) = some [1] ∧
    after (.readPacket none) (queuedIn { req .read with param := 1 }) (fun t => (t.atInput 2 1 0).map (fun p => (p.addr, p.len))) =
      some [(0x20001003, 1)] ∧
    after (.hailPacket none) (queuedIn { req .hail with param := 4 * 63 }) (fun t => t.reg32 (R.COX_CNT_LO 0 63)) = some 0 ∧
    after (.writePacket none) (queuedIn { req .write with key := 8 }) (fun t => (t.ownIn.map (fun q => (q.pkt.ptype, q.pkt.param)), t.reg (R.WIN_NAKS 5))) =
      some ([(.nak, 2)], 1) := by decide +kernel

/-- Accesses of a requester whose last answer stands at the router before its exit. -/
def answering (s : State) (use : OpFor) (who : MeshReq) (kind : PktKind) (ws : List (Nat × Word)) : State :=
  { s with ops := [⟨who, 0, use, [], 1, [], none⟩] }.setMeshIn who.router 3 1
    [{ kind := kind, dst := who.router, exit := who.exit, src := 0, req := who, prio := 0, born := 0, addr := 0x20001003, len := 1, lane := 0, tag := 0
       poison := false, cause := if kind = PktKind.error then .unpowered else .none, words := ws }]

/-- Such an answer at a router meets what its last hop supposes. -/
def answerLeaves (s : State) (r out : Nat) : Bool :=
  match s.meshIn r 3 1 with
  | [a] => a.vc == 1 && a.load.isNone && routeOut r a == out && decide (a.flits ≤ 8) && !a.promoted && !(s.overAge a) && (s.holder r out 1).isNone
  | _ => false

theorem witness_answers :
    answerLeaves (answering window (.remote (req .write) false) .own .writeAck []) 2 5 = true ∧
    answerLeaves (answering hosted (.channel 0) .host .readData [(0x20000000, 1), (0x20000001, 2)]) 90 6 = true := by decide +kernel

theorem test_requests_end :
    after (.routerArbitration 2 ⟨5, .none⟩) (answering window (.remote (req .write) false) .own .writeAck [])
      (fun t => (t.ops.length, t.ownIn.map (fun q => (q.pkt.ptype, q.pkt.param)))) = some (0, [(.ack, 0)]) ∧
    after (.routerArbitration 2 ⟨5, .none⟩) (answering window (.remote { req .read with param := 1 } false) .own .readData [(0x20001003, 4)])
      (fun t => t.ownIn.map (fun q => (q.pkt.ptype, q.pkt.data))) = some [(.rdata, [4])] ∧
    after (.routerArbitration 2 ⟨5, .none⟩) (answering window (.remote { req .hail with param := 4 * 63 } false) .own .writeAck [])
      (fun t => t.reg32 (R.COX_CNT_LO 0 63)) = some 1 ∧
    after (.routerArbitration 2 ⟨5, .none⟩) (answering window (.remote (req .write) false) .own .error []) (fun t => t.ownIn.map (fun q => (q.pkt.ptype, q.pkt.param))) =
      some [(.nak, 9)] := by decide +kernel

theorem witness_initiator :
    ((base.setSched 0 { Sched.empty with hails := [⟨0, 6, base.devId, 5, 9, 3, [7], 0, false, 0, 0, none⟩] }).schedOf 0).hails.length = 1 ∧
    base.mayLeave 0 = true ∧ base.engineRequest 0 1 = none ∧ (base.iniCtx ctxKey).live = false ∧ (base.iniCtx ctxKey).lastAt = none ∧
    ((waiting .write .nobody).iniCtx ctxKey).live = true ∧ ((waiting .write .nobody).iniCtx ctxKey).out.map RmaReq.origin = [.nobody] ∧
    (answered (waiting .write .nobody) (answer .ack 0 0)).time ≤ 0 + 100000 ∧ (answer .ack 0 0).wash = false ∧
    ((waiting .write .nobody).iniCtx ctxKey).out.find? (fun x => x.pkt.seq == 0 && x.pkt.tag == 0) ≠ none ∧ (base.limiter 255).washAt = none := by decide +kernel

theorem test_initiator :
    after (.requestSequenced (.hailPort 0)) (base.setSched 0 { Sched.empty with hails := [⟨0, 6, base.devId, 5, 9, 3, [7], 0, false, 0, 0, none⟩] })
      (fun t => (t.ownIn.map (fun q => (q.pkt.ptype, q.pkt.syn, q.pkt.data)), (t.schedOf 0).hails.length)) = some ([(.hail, true, [7])], 0) ∧
    after (.ack none) (answered (waiting .write .nobody) (answer .ack 0 0)) (fun t => (t.iniCtx ctxKey).out) = some [] ∧
    after (.ack none) (answered (waiting .write .nobody) (answer .ack 0 9)) (fun t => t.reg R.RMA_STALE) = some 1 ∧
    after (.rdata none) (answered (waiting .read .nobody) (answer .rdata 1 0)) (fun t => (t.iniCtx ctxKey).out) = some [] ∧
    after (.nak none) (answered (waiting .hail (.hail 3)) (answer .nak 2 0)) (fun t => (t.reg (R.RMA_HAILST 3), (t.iniCtx ctxKey).out)) = some (0x8002, []) := by decide +kernel

theorem test_contexts :
    after (.attemptTimeout 0 0 ⟨base.devId, by decide⟩ 0) { waiting .write .nobody with time := 1000000 } (fun t => (t.iniCtx ctxKey).out.map RmaReq.tries) = some [1] ∧
    after (.contextClose 0 0 ⟨base.devId, by decide⟩) { base with ini := [(ctxKey, { IniCtx.empty with live := true, epoch := 255, next := 1 })], time := 500000 } (fun t => ((t.iniCtx ctxKey).live, (t.iniCtx ctxKey).epoch)) =
      some (false, 0) ∧
    after (.quarantineEnd 0 0 ⟨base.devId, by decide⟩) { base with ini := [(ctxKey, { IniCtx.empty with epoch := 3, lastAt := some 5 })], time := 500005 } (fun t => (t.iniCtx ctxKey).lastAt) = some none ∧
    after (.rateIncrease 255) { (base.setReg (R.RMA_RATE 255) 1000).setReg R.RMA_INC 0x2001 with time := 1000000 } (fun t => t.reg (R.RMA_RATE 255)) = some 1024 ∧
    after (.ageDiscard none false) { queuedIn (req .write) with time := 100001 } (fun t => (t.ownIn, t.reg R.RMA_AGEDROP)) = some ([], 1) := by decide +kernel

/-! ## Lanes (spec/13) -/

/-- Slot 15 in a state, for lane 9; crew 95 assigned to it. -/
def slot (st : Word) : State := ((base.setReg (R.LANE_SLOT_STAT 15) st).setReg (R.LANE_SLOT_ID 15) 9).setReg (R.LANE_CREW 95) 0x1F

theorem witness_lanes :
    (slot 0).meshUp = true ∧ (slot 0).slotState 15 = 0 ∧ (slot 0).slotLane 15 = 9 ∧ (∀ j : Fin 16, (slot 0).slotState j.val = 0) ∧ (slot 4).slotState 15 = 4 ∧
    (slot 1).crewUp 95 = true ∧ ((slot 1).reg (R.LANE_CREW 95)).getLsbD 4 = true ∧ ((slot 1).reg (R.LANE_CREW 0)).getLsbD 4 = false ∧
    (slot 3).zeroPass.getLsbD 15 = false ∧ ({ slot 3 with zeroPass := 0x8000 } : State).zeroPass.getLsbD 15 = true ∧ (slot 2).routers = [] ∧ (slot 2).exits = [] ∧
    (slot 2).banks = [] ∧ (slot 1).drained ((slot 1).slotCrews 15) = true ∧ ((slot 0x402).reg (R.LANE_SLOT_STAT 15)).getLsbD 10 = true ∧
    (slot 1).laneOf 95 = 9 ∧ (slot 1).crewKilled 95 = false ∧ (slot 3).crewKilled 95 = true := by decide +kernel

theorem test_lanes :
    after (.activate 15) (slot 0) (fun t => t.slotState 15) = some 1 ∧ after (.activate 15) (slot 1) (fun t => t.reg (R.LANE_SLOT_EVT 15)) = some 0x10 ∧
    after (.crewAssign 0 0x1F) (slot 1) (fun t => t.reg (R.LANE_CREW 0)) = some 0x1F ∧ after (.crewAssign 0 0x1F) (slot 2) (fun t => t.reg (R.LANE_CREW 0)) = some 0 ∧
    after (.release .host 15) (slot 4) (fun t => t.slotState 15) = some 3 ∧ after (.release (.cox 0) 15) (slot 4) (fun t => t.slotState 15) = some 4 ∧
    after (.drainEnd 15) (slot 0x402) (fun t => t.slotState 15) = some 4 ∧ after (.drainEnd 15) (slot 2) (fun t => t.slotState 15) = some 3 ∧
    after (.scrubEnd 15) { slot 3 with zeroPass := 0x8000 } (fun t => (t.slotState 15, t.reg (R.LANE_CREW 95))) = some (0, 0) := by decide +kernel

/-! ## Power and pace (spec/14) -/

/-- `base` with stage 1 on and the pace set enabled, between 100 W and 110 W. -/
def paced : State := { base.setReg R.PACE_CTRL 1 with pwr := { base.pwr with lo := 100000, hi := 110000, traj10 := 1050000, stage1 := true } }

theorem witness_pace :
    (paced.reg R.PACE_CTRL).getLsbD 0 = true ∧ (paced.reg R.PACE_STAT).getLsbD 7 = false ∧ ((paced.setReg R.PACE_STAT 0x80).reg R.PACE_STAT).getLsbD 7 = true ∧
    paced.pwr.unheld = false ∧ paced.crewOn 95 = true ∧ base.crewQuiet 0 = false ∧ (base.reg R.PACE_CTRL).getLsbD 0 = false ∧ State.reset.crewOn 95 = false ∧
    base.pwr.waiting = none ∧ paced.ballast 95 = 0 := by decide +kernel

theorem test_pace :
    after .paceApply (base.setReg R.PACE_BAND 4) (fun t => (t.pwr.waiting.isSome, (t.reg R.PACE_EVT).getLsbD 0)) = some (true, true) ∧
    after (.paceEnable 1) (base.setReg32 R.PWR_PIN_LO 1000) (fun t => (t.pwr.traj10, t.reg R.PACE_CTRL)) = some (10000, 1) ∧
    after .kick ((paced.setReg R.PACE_STAT 0x80).setReg32 R.PWR_PIN_LO 7) (fun t => (t.pwr.traj10, t.reg R.PACE_STAT)) = some (70, 0) ∧
    after .paceWatchdogExpiry (up 100000000 paced) (fun t => (t.reg R.PACE_STAT, t.reg R.PACE_EVT)) = some (0x80, 0x80) ∧
    after .staleHoldEnd (up 200000000 (paced.setReg R.PACE_STAT 0x80)) (fun t => t.pwr.unheld) = some true ∧ after .short { paced with vcOn := 0 } (fun t => t.reg R.PACE_EVT) = some 0x10 ∧
    after .over { paced with vcOn := 0 } (fun t => t.reg R.PACE_EVT) = some 0x20 ∧
    after .pendingSetInForce { paced with pwr := { paced.pwr with waiting := some (⟨5, 6, 7, 8, 9, 10, 0, 0, 11⟩, 0) } } (fun t => (t.pwr.inForce.target, t.reg32 R.PACE_ATARGET_LO)) =
      some (5, 5) := by decide +kernel

theorem test_trim :
    after (.trim ⟨105000, 0, List.replicate 96 9, List.replicate 96 9⟩) (paced.setReg R.PACE_STAT 0x30) (fun t => t.reg R.PACE_STAT) = some 0 := by decide +kernel

theorem witness_faults :
    paced.pwr.stage1 = true ∧ State.reset.pwr.stage1 = false ∧ ({ paced with pwr := { paced.pwr with ordered := true } } : State).pwr.ordered = true := by decide

theorem test_faults :
    after (.uvin 5) paced (fun t => (t.vcOn, t.reg R.PWR_FLT, t.reg R.PWR_CAUSE)) = some (0, 1, 1) ∧ after (.overpower 5) paced (fun t => t.reg R.PWR_CAUSE) = some 2 ∧
    after (.overvolt 5) paced (fun t => t.reg R.PWR_CAUSE) = some 3 ∧ after (.stage 5) paced (fun t => t.reg R.PWR_CAUSE) = some 4 ∧
    after (.reg 99 5) paced (fun t => t.reg R.PWR_CAUSE) = some 0x635 ∧ after (.tjmax 5) paced (fun t => t.reg32 R.PWR_PSTEP_LO) = some 5 ∧
    after .shut paced (fun t => t.pwr.ordered) = some true ∧
    after (.order 5) { paced with pwr := { paced.pwr with ordered := true } } (fun t => (t.reg R.PWR_FLT, t.reg R.PWR_CAUSE, t.vioOn)) = some (4, 7, false) := by decide +kernel

/-! ## The boathouse (spec/15) -/

/-- The boathouse core executes at pc; below 0x0A00_0000 that is firmware. -/
def atPc (s : State) (pc : Addr) : State := s.setCore bh (ready pc)
def fw : State := atPc base 0x08000000
def rom : State := atPc base 0x0A000000

/-- An image of one word, 0x1234, with its digest and header CRC worked out by other programs. -/
def image : List Byte :=
  [66, 86, 67, 72, 1, 0, 0, 0, 1, 0, 0, 0, 1, 0, 0, 0, 0, 0, 0, 0, 1, 0, 0, 0, 231, 77, 14, 68, 166, 88, 255, 205, 192, 238, 114, 102, 235, 209, 113, 65, 59, 143, 207, 24, 44, 151, 162, 114, 84, 217, 244, 138, 186, 234, 98, 102, 65, 96, 118, 196, 0, 0, 0, 0, 52, 18]
def flashed (n : Nat) : State := { rom with flash := ((List.range 66).map (fun i => n * 0x1000000 + i)).zip image |>.filter (fun p => p.2 != 0xFF) }

theorem witness_boathouse :
    (base.setReg R.BH_WDOG 0x8001).bh.kicked + max 1 ((base.setReg R.BH_WDOG 0x8001).reg R.BH_WDOG).toNat % 1024 * 10000000 ≤ 10000000 ∧
    (up 10000000 base).uptime = 10000000 ∧ ((up 10000000 base).setReg R.BH_WDOG 0x8001).bh.kicked = 0 ∧
    ((base.setCore bh { ready 0 with lockup := true }).core bh).lockup = true ∧ fw.stkState = 0 ∧ (base.setReg R.STK_STAT 1).stkState ≠ 0 ∧
    fw.bh.tset = false ∧ fw.stroke.slew = 0 ∧ (base.core bh).mode = .reset ∧ (fw.core bh).mode ≠ .reset ∧ (base.reg R.BH_CLK).getLsbD 0 = false ∧
    ((base.setReg R.BH_CLK 1).reg R.BH_CLK).getLsbD 0 = true ∧ ((base.setReg R.BH_TMR_CTRL 1).reg R.BH_TMR_CTRL).getLsbD 0 = true := by decide +kernel

theorem witness_flash :
    ({ fw with stroke := { fw.stroke with slew := 10, ticks := 9999 } } : State).stroke.slew = 10 ∧ fw.bh.flashOp = none ∧ fw.bh.locked = none ∧
    (fw.reg R.BH_FL_LOCK).getLsbD 0 = false ∧ ((fw.setReg R.BH_FL_LOCK 1).reg R.BH_FL_LOCK).getLsbD ((fw.reg32 R.BH_FL_ADDR_LO).toNat % 0x2000000 / 0x1000000) = true ∧
    rom.inRom = true ∧ fw.inRom = false ∧ fw.firmware = true ∧ rom.firmware = false ∧ (rom.reg R.BH_BOOT).getLsbD 1 = false ∧ rom.imgValid 0 = false ∧
    rom.imgValid 1 = false ∧ ((rom.setReg R.BH_BOOT 14).reg R.BH_BOOT).toNat / 4 % 4 = 3 ∧ (image.length ≤ 0xE00000) := by decide +kernel

theorem witness_image : (flashed 0).imgValid 0 = true ∧ (flashed 0).imgValid 1 = false ∧ (flashed 1).imgValid 1 = true := by decide +kernel

theorem test_core_resets :
    after .bhWatchdogExpiry ((up 10000000 fw).setReg R.BH_WDOG 0x8001) (fun t => (t.reg R.BH_RSTCAUSE, (t.core bh).pc, t.bh.kicked)) =
      some (0x11, 0x0A000000, 10000000) ∧
    after .bhWatchdogExpiry ((up 9999999 fw).setReg R.BH_WDOG 0x8001) (fun t => t.reg R.BH_RSTCAUSE) = some 0 ∧
    after .bhCorerst fw (fun t => t.reg R.BH_RSTCAUSE) = some 0x12 ∧
    after .lockupReset (base.setCore bh { ready 0 with lockup := true }) (fun t => (t.reg R.BH_RSTCAUSE, (t.core bh).lockup)) = some (0x14, false) := by decide +kernel

theorem test_time :
    after .timebaseTick fw (fun t => t.time) = some 10 ∧ after .tset fw (fun t => t.bh.tset) = some true ∧
    after .timebaseTick { fw.setReg (R.BH_TIMESET 0) 0x64 with bh := { fw.bh with tset := true } } (fun t => t.time) = some 100 ∧
    after .lossOfLock (fw.setReg R.BH_CLK 1) (fun t => t.reg R.BH_CLK) = some 2 := by decide +kernel

theorem test_flash :
    after .erase fw (fun t => (t.bh.flashOp, t.reg R.BH_FL_STAT)) = some (some (.erase 0), 1) ∧
    after .erase { fw with bh := { fw.bh with locked := some 0 } } (fun t => t.reg R.BH_FL_STAT) = some 0x14 ∧
    after .flashDone { flashed 0 with bh := { fw.bh with flashOp := some (.erase 0) } } (fun t => t.flash) = some [] ∧
    after .flashDone { fw with bh := { fw.bh with flashOp := some (.prog 2 [1, 2]) } } (fun t => t.flash) = some [(512, 1), (513, 2)] := by decide +kernel

theorem test_boot :
    after .boot (flashed 0) (fun t => (t.bh.locked, t.word 0x08000000, (t.core bh).pc)) = some (some 0, 0x1234, 0x08000000) ∧
    after .boot (flashed 1) (fun t => (t.bh.locked, t.reg R.BH_BOOT)) = some (some 1, 0x30) ∧
    after .boot rom (fun t => (t.bh.locked, t.reg R.BH_BOOT)) = some (none, 0x40) ∧
    after (.firmwareUpdate [7]) fw (fun t => (t.flash, t.reg R.BH_BOOT)) = some ([(0x1000000, 7)], 15) := by decide +kernel

/-! ## Management -/

/-- Firmware with the facility's endpoint ID 9, and the 20 bytes of a commitment: 1, 1 kW, 0, 1 to 1, band 5, cap 10. -/
def managed : State := fw.setReg R.BH_FAC_EID 9
def proposal : List Byte := [1, 0, 0, 0, 0x40, 0x42, 0x0F, 0, 0, 0, 0, 0, 1, 0, 1, 0, 5, 10, 0, 0]
def proposed : State := { managed with bh := { managed.bh with prop := some (commitmentOf proposal) } }

theorem witness_management :
    managed.firmware = true ∧ base.firmware = false ∧ (managed.reg R.BH_FAC_EID).toNat % 256 = 9 ∧ proposal.length = 20 ∧ (commitmentOf proposal).inRange = true ∧
    (commitmentOf (proposal.set 16 4)).inRange = false ∧ (commitmentOf proposal).id = leField [1, 0, 0, 0] 0 4 ∧ proposed.bh.prop = some (commitmentOf proposal) ∧
    managed.bh.prop = none ∧ managed.bh.commit = none ∧
    ({ managed with bh := { managed.bh with commit := some (commitmentOf proposal, 5) } } : State).bh.commit = some (commitmentOf proposal, 5) := by decide +kernel

theorem test_management :
    after (.proposeCommitment 9 proposal) managed (fun t => (t.bh.prop.isSome, t.reg R.BH_PROP_ID_LO, t.out)) = some (true, 1, [.pldm 9 0 []]) ∧
    after (.proposeCommitment 8 proposal) managed (fun t => t.out) = some [.pldm 8 0x80 []] ∧
    after (.confirmCommitment 9 [1, 0, 0, 0]) proposed (fun t => (t.bh.prop, t.reg32 R.PACE_TARGET_LO, t.out)) =
      some (none, 1000000, [.pldm 9 0 [0, 0, 0, 0, 0, 0, 0, 0]]) ∧
    after (.confirmCommitment 9 [2, 0, 0, 0]) proposed (fun t => t.out) = some [.pldm 9 0x81 []] ∧
    after (.withdrawProposal 9 [1, 0, 0, 0]) proposed (fun t => t.bh.prop) = some none := by decide +kernel

theorem test_readings :
    after (.getPaceCommitment 9 []) managed (fun t => t.out.length) = some 1 ∧ after (.getPowerReading 9 [1]) managed (fun t => t.out) = some [.pldm 9 2 []] ∧
    after (.platformMonitoringRequest 3 .discovery) managed (fun t => t.out) = some [.pldm 3 0 [0, 2, 5, 63]] := by decide +kernel

/-- I3C port 1 and UART 0 enabled, as targets on their pins; port 0 enabled with static address 0x55. -/
def serial : State :=
  ((fw.setReg (R.BH_I3C_CTRL 0) 0x2A9).setReg (R.BH_I3C_CTRL 1) 1).setReg (R.BH_UART_CTRL 0) 1
def addressed : State := serial.setReg (R.BH_I3C_STAT 0) 0x110

theorem witness_serial :
    (serial.reg (R.BH_I3C_CTRL 1)).getLsbD 0 = true ∧ (serial.reg (R.BH_I3C_CTRL 1)).getLsbD 1 = false ∧ (serial.reg (R.BH_I3C_CTRL 1)).getLsbD 2 = false ∧
    (fw.reg (R.BH_I3C_CTRL 0)).getLsbD 0 = false ∧ (serial.reg (R.BH_I3C_CTRL 0)).toNat / 8 % 128 = (0x55 : BitVec 8).toNat % 128 ∧
    (addressed.reg (R.BH_I3C_STAT 0)).getLsbD 8 = true ∧ (serial.reg (R.BH_I3C_STAT 0)).getLsbD 8 = false ∧ serial.firmware = true ∧
    (serial.reg (R.BH_UART_CTRL 0)).getLsbD 0 = true ∧ serial.pinIs 5 1 = true ∧ (serial.bh.uarts.get 0).tx.length < 64 ∧ serial.bh.spi.tx.length < 32 ∧
    (serial.reg (R.BH_UART_CTRL 1)).getLsbD 0 = false := by decide +kernel

theorem test_i3c :
    after (.ccc 0 (.entdaa 8)) serial (fun t => t.reg (R.BH_I3C_STAT 0)) = some 0x110 ∧ after (.ccc 0 (.setdasa 0x55 8)) serial (fun t => t.reg (R.BH_I3C_STAT 0)) = some 0x110 ∧
    after (.ccc 0 (.setdasa 0x54 8)) serial (fun t => t.reg (R.BH_I3C_STAT 0)) = some 0 ∧ after (.ccc 0 .rstdaa) addressed (fun t => t.reg (R.BH_I3C_STAT 0)) = some 0 ∧
    after (.ccc 1 (.setmwl 300)) serial (fun t => (t.bh.i3c.get 1).mwl) = some 256 ∧ after (.setEndpointId 1 7) serial (fun t => t.bh.eid) = some 7 := by decide +kernel

theorem test_serial :
    after (.uartReceive 0 0x41 false false) serial (fun t => (t.bh.uarts.get 0).rx) = some [(0x41, false, false)] ∧
    after (.uartDataWrite 1 0x141) serial (fun t => (t.bh.uarts.get 1).tx) = some [0x41] ∧
    after (.uartByteSent 0) (serial.setUart 0 ⟨[5, 6], []⟩) (fun t => (t.out, (t.bh.uarts.get 0).tx)) = some ([.uart 0 5], [6]) ∧
    after (.spiFrameDone 0x1234) { serial.setReg R.BH_SPI_CTRL 1 with bh := { serial.bh with spi := ⟨[0x5678], [], some 1⟩ } } (fun t => (t.bh.spi.rx, t.out)) =
      some ([0x34], [.spi 0x78]) := by decide +kernel

/-! ## Pins, analog inputs and JTAG (spec/15) -/

/-- Channel 7 of the analog inputs enabled, with a 10 kΩ thermistor of beta 3,950 against 10 kΩ; JTAG debug open. -/
def analog : State :=
  (((((fw.setReg (R.AIN_CFG 7) 0x11).setReg (R.AIN_RREF 7) 10000).setReg (R.AIN_RNOM 7) 1000).setReg (R.AIN_BETA 7) 3950).setReg R.BH_JTAG 1).setReg
    R.BH_PROT_EN 0x5
def converted (ratio : BitVec 24) (split : Bool) : State := { analog with bh := { analog.bh with ainEnd := [(7, ⟨ratio, split, 0⟩)] }, clock := [(96, 4 * 50000)] }

theorem witness_analog :
    (analog.reg (R.AIN_CFG 7)).getLsbD 0 = true ∧ (analog.reg (R.AIN_CFG 7)).getLsbD 4 = true ∧ ((fw.setReg (R.AIN_CFG 0) 0).reg (R.AIN_CFG 0)).getLsbD 0 = false ∧
    (converted 0x800000 false).bh.ainEnd.find? (fun x => x.1 == 7) = some (7, ⟨0x800000, false, 0⟩) ∧ (converted 0x800000 false).uptime = 50000 ∧ analog.bh.ainEnd = [] ∧
    ainReading 0x800000 10000 1000 3950 = .valid 2500 ∧ ainReading 0 10000 1000 3950 = .short ∧ ainReading 0xFFFFFF 10000 1000 3950 = .openWire := by decide +kernel

theorem witness_pins :
    fw.pinIs 18 1 = true ∧ (fw.setBh { fw.bh with mioFn := [(18, 0)] }).pinIs 18 1 = false ∧ (fw.bh.tachs.get 0).last = none ∧
    (fw.setBh { fw.bh with tachs := fw.bh.tachs.set 0 ⟨some 0, []⟩ }).bh.tachs.get 0 = ⟨some 0, []⟩ ∧ fw.pinIs 23 1 = true ∧ (fw.reg (R.MIO_FSEL 3)).toNat % 4 = 1 ∧
    fw.pinHeld 3 = none ∧ (fw.setBh { fw.bh with mioSwitch := [(3, true)] }).pinHeld 3 ≠ none ∧ (analog.reg R.BH_JTAG).getLsbD 0 = true ∧
    (fw.reg R.BH_JTAG).getLsbD 0 = false ∧ (analog.core bh).mode = .running ∧ State.reset.vioOn = false := by decide +kernel

theorem test_tachs :
    after (.tachEdge 0 10000) { up 30000000 fw with bh := { fw.bh with tachs := fw.bh.tachs.set 0 ⟨some 10000000, [20000000]⟩ } } (fun t => t.reg (R.BH_TACH_RPM 0)) =
      some 1500 ∧
    after (.tachStall 0) { up 1000000000 (fw.setReg (R.BH_TACH_RPM 0) 9) with bh := { fw.bh with tachs := fw.bh.tachs.set 0 ⟨some 0, []⟩ } } (fun t => (t.reg (R.BH_TACH_RPM 0), t.reg (R.BH_TACH_STAT 0))) = some (0, 1) := by decide +kernel

theorem test_analog :
    after (.ainResultPost 7) (converted 0x800000 false) (fun t => (t.reg (R.AIN_TEMP 7), t.reg R.AIN_DONE)) = some (2500, 0x80) ∧
    after (.ainResultPost 7) (converted 0x800000 true) (fun t => (t.reg R.AIN_OPEN, t.reg (R.AIN_CSTAT 7))) = some (0x80, 0) ∧
    after (.ainResultPost 7) (converted 0 false) (fun t => t.reg R.AIN_SHORT) = some 0x80 ∧
    after .shutin analog (fun t => t.reg R.BH_PROT_CAUSE) = some 1 := by decide +kernel

theorem test_jtag :
    after .idcode fw (fun t => (t.bh.ir, t.bh.dr)) = some (.idcode, 0x1960096F) ∧ after .extest fw (fun t => (t.bh.ir, t.reg R.BH_EVT)) = some (.bypass, 2) ∧
    after .extest State.reset (fun t => t.bh.ir) = some .extest ∧ after (.bhdebug .halt) analog (fun t => (t.core bh).mode) = some .stopped ∧
    after (.bhdebug (.write 5 0xABCD)) analog (fun t => t.word 0x08000005) = some 0xABCD := by decide +kernel

/-! ## The lid listener (spec/16) -/

/-- The listener settled, past LEARN, its floors at 0; active as well; with S2 running. -/
def heard : State :=
  { (base.setReg R.LL_STAT 0xF0).setReg R.LL_S0_CFG 0x0102 with ll := { Listener.reset with starting := false, floors := Vector.replicate 4 (some 0) } }
def active : State := heard.setReg R.LL_STAT 0xF5
def locating : State := { heard.setReg R.LL_STAT 0xF6 with ll := { heard.ll with s2on := true, s2frames := 4 } }

/-- A line of 1 kHz at full scale at every sensor, and 130 dB above at sensor 0. -/
def calm : Vector Spectrum 4 := Vector.replicate 4 [(1000000, 2 ^ 48)]
def loud : Vector Spectrum 4 := calm.set 0 [(1000000, 2 ^ 48 * 10 ^ 13), (49999, 7)]

/-- A line in each band of S1 at every sensor, with unit power but 10 dB in bands 0 and 1. -/
def chord : Vector Spectrum 4 :=
  Vector.replicate 4 ((List.range 16).map (fun b => ((if b % 2 = 0 then 100000 else 141421) * 2 ^ (b / 2), if b < 2 then 10 else 1)))

theorem witness_listener :
    (heard.reg R.LL_CTRL).getLsbD 0 = true ∧ heard.llValid = true ∧ (heard.reg R.LL_STAT).getLsbD 8 = false ∧ (heard.reg R.LL_STAT).getLsbD 4 = true ∧
    ((heard.setReg R.LL_STAT 0xE0).reg R.LL_STAT).getLsbD 4 = false ∧ ((heard.setReg R.LL_STAT 0x1F0).reg R.LL_STAT).getLsbD 8 = true ∧ State.reset.llValid = false ∧
    heard.ll.floors.get 0 = some 0 ∧ State.reset.ll.floors.get 0 = none ∧ (active.reg R.LL_STAT).getLsbD 2 = true ∧ locating.ll.s2on = true ∧ 4 ≤ locating.ll.s2frames ∧
    max 1 ((heard.reg R.LL_S0_CFG).toNat % 16) = 2 ∧ ((heard.setReg R.LL_CTRL 0).reg R.LL_CTRL).getLsbD 0 = false := by decide +kernel

/-- What frames and verdicts suppose: scores at and under the threshold, run lengths, verdicts that raise and do not. -/
def quietCfg : State := active.setReg R.LL_S1_CFG 0x0120
theorem witness_frames :
    quietCfg.llValid = true ∧ 0 < (quietCfg.reg R.LL_S1_CFG).toNat % 256 ∧ max 1 ((quietCfg.reg R.LL_S1_CFG).toNat / 256 % 16) ≤ quietCfg.ll.s1run + 1 ∧
    (quietCfg.reg R.LL_CTRL).getLsbD 2 = false ∧ (quietCfg.reg R.LL_CTRL).getLsbD 3 = false ∧ ((quietCfg.setReg R.LL_CTRL 7).reg R.LL_CTRL).getLsbD 2 = true ∧
    ((quietCfg.setReg (R.LL_TPLCFG 5) 1).reg (R.LL_TPLCFG 5)).toNat / 256 = 0 ∧ quietCfg.ll.hwheld.getLsbD 5 = false ∧
    (heard.reg R.LL_S3_THR).toNat % 256 ≤ (0x7FE : Word).toNat / 8 % 256 ∧ (0x7FE : Word).toNat % 8 = 6 ∧ (heard.reg R.LL_EVT).getLsbD 8 = false ∧
    (locating.reg R.LL_STAT) &&& 0xF0 = 0xF0 := by decide +kernel

theorem test_energies :
    calm.toList.length = 4 ∧ heard.s0Energy calm 0 = 0 ∧ heard.s0Energy loud 0 = 130 * 131072 ∧ quietCfg.s1Energy chord 1 = 40 ∧ quietCfg.s1Energy chord 15 = 0 := by
  decide +kernel

/-- Tachometer 0 turns at 3,000 RPM, and the notches follow it: its first harmonic, of one blade, is 50 Hz. -/
def notching : State :=
  { ((heard.setReg R.LL_NOTCH 0x0844).setReg (R.BH_TACH_RPM 0) 3000) with ll := { heard.ll with notchRpm := 3000, notchAt := some 0 } }

theorem witness_notch : ({ notching with ll := { notching.ll with notchAt := none } } : State).ll.notchAt = none ∧ notching.ll.notchAt = some 0 := by decide

theorem test_notch :
    notching.notched 50000 = true ∧ notching.notched 54000 = true ∧ notching.notched 54001 = false ∧ notching.notched 100000 = false ∧
    (notching.setReg R.LL_CTRL 1).notched 50000 = false ∧ (notching.setReg (R.BH_TACH_RPM 0) 0).notched 50000 = false ∧
    after (.s0Window (calm.set 0 [(1000000, 2 ^ 48), (50000, 2 ^ 60)])) (up 100000000 (notching.setReg (R.BH_TACH_RPM 0) 2000))
      (fun t => (t.ll.s0run, t.ll.notchRpm)) = some (0, 2000) := by decide +kernel

theorem test_s0 :
    after (.s0Window loud) heard (fun t => (t.ll.s0run, t.reg R.LL_EVT)) = some (1, 0) ∧
    after (.s0Window loud) { heard with ll := { heard.ll with s0run := 1 } } (fun t => (t.reg R.LL_EVT, t.reg R.LL_STAT)) = some (0x40, 0xFD) ∧
    after (.s0Window calm) { heard.setReg R.LL_STAT 0x1F0 with ll := { heard.ll with floors := Vector.replicate 4 none } }
      (fun t => (t.ll.floors.get 0, t.ll.learn)) = some (some 0, 1) ∧
    after .settleEnd State.reset (fun t => t.ll.starting) = some false := by decide +kernel

theorem test_frames :
    after (.s1Frame chord) ((quietCfg.setReg (R.LL_TPL 0 0) 0x7F).setReg (R.LL_TPL 0 1) 0xFF) (fun t => (t.reg (R.LL_SCORE 0), t.reg (R.LL_BAND 1), t.reg (R.LL_BAND 15))) =
      some (157, 40, 0) ∧
    after (.s2Result (Vector.replicate 6 0x81) 0x1234 9) locating (fun t => (t.reg R.LL_LOC, t.reg (R.LL_LAG 5), t.reg R.LL_EVT, t.llStage)) = some (0x1234, 128, 0x100, 3) ∧
    after (.verdictPost 0x7FE) heard (fun t => (t.reg R.LL_EVT, t.reg R.LL_LAST, t.reg (R.LL_COUNT 5))) = some (0x20, 0xFFE, 1) ∧
    after (.verdictPost 7) heard (fun t => (t.reg R.LL_EVT, t.reg R.LL_VERDICT)) = some (0, 7) := by decide +kernel

theorem test_modes :
    after (.sensorFail 3) heard (fun t => (t.reg R.LL_STAT, t.reg R.LL_EVT)) = some (0x70, 0x200) ∧
    after (.sensorRecovery 3) (heard.setReg R.LL_STAT 0x70) (fun t => t.reg R.LL_STAT) = some 0xF0 ∧ after .learnEnd { State.reset with ll := { Listener.reset with learn := 200 } } (fun t => t.reg R.LL_STAT) = some 0xF0 ∧
    after (.listenerEnable 2) active (fun t => (t.reg R.LL_CTRL, t.llStage)) = some (2, 0) ∧ after (.forceact 3) heard (fun t => t.reg R.LL_STAT) = some 0xFD := by decide +kernel

/-! ## Start-up, resets and the host (spec/17) -/

/-- VBH on and sound, at the boot ROM; the package on, with firmware. -/
def dark : State := atPc (State.reset.setReg R.PWR_VIN 4800) 0x0A000000
def lit : State := { (atPc dark 0x08000000).setReg R.PACE_CTRL 1 with vioOn := true, pwr := { dark.pwr with stage1 := true, hi := 100 } }

theorem witness_startup :
    dark.inRom = true ∧ dark.pwr.stage1 = false ∧ dark.onlyVbh = true ∧ 4000 ≤ (dark.reg R.PWR_VIN).toNat ∧ dark.reg R.BH_PROT_CAUSE = 0 ∧
    (dark.reg R.PWR_FLT).getLsbD 1 = false ∧ (dark.reg R.PWR_FLT).getLsbD 2 = false ∧ base.onlyVbh = false ∧ (atPc dark 0x08000000).firmware = true ∧ dark.bh.tripId = none ∧
    ((dark.setReg R.PWR_CAUSE 1).reg R.PWR_CAUSE).toNat % 16 = 1 ∧ (dark.reg R.PWR_CAUSE).toNat % 16 ≠ 1 ∧ 4200 ≤ (dark.reg R.PWR_VIN).toNat := by decide +kernel

theorem witness_resets :
    base.warm = false ∧ base.linkUp 0 = false ∧ (base.setReg (R.GW_STAT 31) 5).linkUp 31 = true ∧ base.crewUp 95 = true ∧ State.reset.crewUp 0 = false ∧
    base.crewAssigned 95 = false ∧ (slot 1).crewAssigned 95 = true ∧ (base.reg (R.COX_RSTSTAT 95)).getLsbD 0 = true ∧ base.crewRst.getLsbD 95 = false ∧
    ({ base with crewRst := BitVec.allOnes 96 } : State).crewRst.getLsbD 95 = true ∧ base.crewMem 95 = true ∧ base.inCacheRange 0x20000000 = false ∧
    (base.setReg (R.COX_RSTSTAT 95) 0).reg (R.COX_RSTSTAT 95) = 0 := by decide +kernel

/-- What bringing up sections and the fabric supposes. -/
def zero : State := { base with storesZeroed := BitVec.allOnes 96, seatsZeroed := BitVec.allOnes 96 }
theorem witness_bringup :
    fw.coxImage.length ≤ 0x7C0000 ∧ (∀ k : Fin 96, fw.crewUp k.val = true) ∧ (∀ p : Fin 32, fw.portState p.val = 0) ∧
    (∀ p : Fin 32, (fw.reg (R.GW_CTRL p.val)).getLsbD 0 = false) ∧ (fw.reg R.STK_STAT).toNat % 8 = 0 ∧ lit.firmware = true ∧ lit.pwr.stage1 = true ∧
    lit.zeroed = true ∧ lit.nextSection .vmesh = true ∧ lit.paceOn = true ∧ (lit.reg32 R.PACE_DEMAND_LO).toNat + 9 ≤ lit.pwr.hi ∧ fw.bh.phase ≠ 4 ∧ lit.nextSection (.vc 0) = false ∧ lit.crewUp 0 = false ∧ zero.zeroed = true ∧
    ({ zero with vcOn := 0 } : State).nextSection (.vc 0) = true ∧ ({ zero with vcOn := 0, vgwOn := 0 } : State).nextSection (.vgw 0) = true ∧
    ({ lit with vmeshOn := true } : State).nextSection (.vstore 1) = true := by decide +kernel

theorem test_startup :
    after .stage1Check dark (fun t => (t.pwr.stage1, t.vioOn, t.vmeshOn, t.bh.phase)) = some (true, true, false, 1) ∧
    after .stage1Check (dark.setReg R.PWR_VIN 3999) (fun t => t.pwr.stage1) = some false ∧
    after (.domainSectionPowerUp .vmesh 9) lit (fun t => (t.vmeshOn, t.reg R.HST_BOOTSTAT)) = some (true, 2) ∧
    after .vbhPowerOn { fw with flash := [(5, 5)], bh := { fw.bh with bootRec := 14 } } (fun t => (t.vcOn, t.flash, t.reg R.BH_BOOT)) = some (0, [(5, 5)], 14) := by decide +kernel

theorem test_resets :
    after (.coxCorerst 0) (run id) (fun t => ((t.core x0).mode, (t.core s0).mode)) = some (.reset, .running) ∧
    after (.crewrst 95) (slot 1) (fun t => t.reg (R.COX_RSTSTAT 95)) = some 3 ∧
    after (.run 0) (base.setReg32 (R.COX_BOOT_LO 0) 0x100) (fun t => ((t.core x0).mode, (t.core x0).pc)) = some (.running, 0x100) ∧
    after (.lddata 0 7) ((base.setReg (R.COX_CC_CTRL 0) 0).setReg32 (R.COX_LDADDR_LO 0) 0x7FFFFF) (fun t => (t.word 0x207FFFFF, t.reg32 (R.COX_LDADDR_LO 0))) = some (7, 0) ∧
    after (.crewResetDone 3) { base.setReg (R.COX_RSTSTAT 3) 5 with crewRst := 8 } (fun t => (t.crewRst, t.reg (R.COX_RSTSTAT 3))) = some (0, 1) := by decide +kernel

theorem test_crewrst :
    after (.crewrst 95) base (fun t => (t.reg (R.COX_RSTSTAT 95), t.crewRst.getLsbD 95)) = some (5, true) := by decide +kernel

/-- VF 1 there, with bus mastering and its vector 0 open. -/
def fn1 : HostFn := { fn0 with mse := false }

/-- The host's link up, VF 1 there with slot 0 active for lane 9 and crew 95 its own, memory at the start of crew 95's store. -/
def linked : State :=
  { ((slot 0).setReg (R.LANE_SLOT_STAT 0) 1).setReg (R.LANE_SLOT_ID 0) 9 with link := (5, 16, true), perst := false, fns := [(0, fn0), (1, fn1)] }
def linkedVf : State := linked.setReg (R.LANE_CREW 95) 0x10

theorem witness_requests :
    linked.vioOn = true ∧ linked.perst = false ∧ linked.link.1 ≠ 0 ∧ State.reset.vioOn = false ∧ (linked.fn 0).d3 = false ∧
    (({ linked with fns := [(0, { fn0 with d3 := true })] } : State).fn 0).d3 = true ∧ linked.pfMapped 0x20000001 true = true ∧
    linked.pfMapped 0x4FBFFFFF true = true ∧ linked.crewMem 0 = true ∧ linked.reg R.HST_ACCERR_STAT = 0 ∧ (linkedVf.fn 1).present = true ∧ (linked.fn 2).present = false ∧
    linkedVf.slotState 0 = 1 ∧ linkedVf.vfMay 0 0x4F800000 = true ∧ linkedVf.vfMay 0 0x20000000 = false ∧ linkedVf.answers 0x4F800000 = true ∧
    linkedVf.eccOne = [] ∧ linkedVf.eccTwo = [] ∧ linkedVf.slotState 15 ≠ 1 := by decide +kernel

theorem witness_functions :
    (linkedVf.fn 1).masked 0 = false ∧ (linkedVf.fn 1).masked 1 = true ∧ (linkedVf.fn 1).bme = true ∧ linkedVf.hostFault = false ∧ linkedVf.warm = false ∧
    linkedVf.meshUp = true ∧ linkedVf.crewAssigned 95 = true ∧ linkedVf.crewSlot 95 = 0 ∧ linkedVf.crewUp 95 = true ∧
    linkedVf.crewSlot 0 = 0 ∧ ((linkedVf.setReg (R.LANE_CREW 0) 0x11).crewSlot 0) ≠ 0 := by decide +kernel

/-- A descriptor of host DMA: DIR 0 to the store of crew 0, two words from host address 0x1000, LAST; and its other direction. -/
def desc (dir : BitVec 8) : List Byte := [0, 0, 0, 0, 0, 0, 0, 0, 0, 0x10, 0, 0, 0, 0, 0, 0, 0, 0, 0, 0x20, 2, 0, 0, 0, 2 + dir, 0, 0, 0, 0, 0, 0, 0]
def asking : State := { linked.setReg (R.HDMA_HEAD 5) 1 with hdma := [(0, ⟨[], 0, true, false⟩)] }
def moving (dir : BitVec 8) : State := { asking with hdma := [(0, ⟨desc dir, 0, false, false⟩)] }

theorem witness_hdma :
    asking.chState 0 = 1 ∧ (asking.chan 0).fetch = true ∧ linked.chState 0 ≠ 1 ∧ hdBad (desc 0) = false ∧ hdBad ((desc 0).set 8 1) = true ∧
    asking.hdAllowed 0 (desc 0) = true ∧ State.reset.hdAllowed 0 (desc 0) = false ∧ hdFlag (desc 0) 2 = false ∧ hdFlag (desc 0) 3 = false ∧ hdFlag (desc 0) 1 = true ∧
    hdFlag (desc 0) 0 = false ∧ hdFlag (desc 1) 0 = true ∧ hdLen (desc 0) = 2 ∧ (moving 0).chan 0 = ⟨desc 0, 0, false, false⟩ ∧ asking.chMay 0 0x20000001 true = true ∧
    asking.chMay 0 0x20000001 false = true ∧ asking.answers 0x20000001 = true ∧ asking.eccOne = [] := by decide +kernel

theorem test_requests_host :
    after (.hostRequest ⟨.bar0, 0x10000000, 1, 15, 0, some [0xABCD1234]⟩) linked (fun t => ((t.atInput 90 2 0).map Packet.words, t.lastRead)) =
      some ([[(0x20000000, 0x1234), (0x20000001, 0xABCD)]], some ⟨.ok, []⟩) ∧
    after (.hostRequest ⟨.bar0, 0x10000000, 1, 15, 0, none⟩) linked (fun t => (t.atInput 90 2 0).map (fun p => (p.addr, p.len))) = some [(0x20000000, 2)] ∧
    after (.routerArbitration 90 ⟨6, .none⟩) (answering linked (.host 0 ⟨.bar0, 0x10000000, 1, 15, 0, none⟩) .host .readData [(0x20000000, 0), (0x20000001, 0x5678)])
      (fun t => t.lastRead) = some (some ⟨.ok, [0, 0, 0x78, 0x56]⟩) ∧
    after (.vfAccess 0 ⟨.bar0, 0x10000000, 1, 15, 0, some [1]⟩) linkedVf (fun t => (t.ops.length, t.vfErr)) = some (0, [(1, 4)]) ∧
    after (.vfAccess 0 ⟨.bar0, 0x27C00000, 1, 15, 0, some [1]⟩) linkedVf (fun t => (t.atInput 90 2 0).map Packet.words) =
      some [[(0x4F800000, 1), (0x4F800001, 0)]] := by decide +kernel

theorem test_config :
    after (.hostRequest ⟨.config, 0, 1, 15, 0, none⟩) linked (fun t => t.lastRead) = some (some ⟨.ok, [0x9B, 0x1F, 0x00, 0x96]⟩) ∧
    after (.hostRequest ⟨.config, 1, 1, 15, 0, some [0x102]⟩) { linked with fns := [] } (fun t => ((t.fn 0).mse, (t.fn 0).bme, (t.fn 0).serr)) = some (true, false, true) ∧
    after (.hostRequest ⟨.atomic, 0x10000000, 1, 15, 0, some [1]⟩) linked (fun t => (t.lastRead, t.aer)) = some (some ⟨.unsupported, []⟩, 0x100000) := by decide +kernel

/-- A linked state whose crew 3 has no power. -/
def linkedDark : State := { linked with storeOn := linked.storeOn &&& ~~~8 }

theorem witness_failing_request :
    linkedDark.pfMapped 0x21800000 false = true ∧ linkedDark.pfMapped 0x21800001 true = true ∧ linkedDark.pfMapped 0x21800001 false = true ∧
    memCrew 0x21800000 = 3 ∧ linkedDark.crewMem 3 = false ∧ linkedDark.reg R.HST_ACCERR_STAT = 0 ∧ linkedDark.aer = 0 := by decide +kernel

theorem test_failing_request :
    after (.hostRequest ⟨.bar0, 0x10C00000, 1, 15, 0, none⟩) linkedDark (fun t => (t.lastRead, t.aer, t.reg R.HST_ACCERR_STAT)) =
      some (some ⟨.completerAbort, []⟩, 0x8000, 8) := by decide +kernel

theorem test_messages :
    after (.irqSend 0x60) (linked.setFn 0 { fn0 with table := [(15, 0)] }) (fun t => t.out) = some [.msix 0 3] ∧
    after (.irqSend 0x60) linked (fun t => (t.out, (t.fn 0).pba)) = some ([], 8) ∧ after (.irqSend 0x40) linked (fun t => t.reg R.HST_LINK) = some 0x200 ∧
    after (.irqSend 17) linked (fun t => t.reg R.HST_LINK) = some 0x200 ∧ after (.vfDbell 0 5 95) linkedVf (fun t => t.reg (R.COX_DBELL_STAT 95)) = some 5 ∧
    after (.vfReset 0) linkedVf (fun t => (t.fn 1).bme) = some false := by decide +kernel

theorem test_hdma :
    after (.hdmaStart 0) linked (fun t => (t.chState 0, (t.chan 0).fetch)) = some (1, true) ∧ after (.hdmaDescriptorFetch 0 none) asking (fun t => t.chWord 0 5) = some 10 ∧
    after (.hdmaDescriptorFetch 0 (some (desc 0))) asking (fun t => (t.chan 0).desc) = some (desc 0) ∧
    after (.hdmaCompletion 0 [7, 8] false) (moving 0) (fun t => ((t.atInput 90 2 0).map Packet.words, t.chState 0, (t.chan 0).moved)) =
      some ([[(0x20000000, 7), (0x20000001, 8)]], 1, 2) ∧
    after (.hdmaCompletion 0 [] false) (moving 1) (fun t => (t.atInput 90 2 0).map (fun p => (p.addr, p.len))) = some [(0x20000000, 2)] := by decide +kernel

theorem test_hdma_end :
    after (.routerArbitration 90 ⟨6, .none⟩) (answering { asking with hdma := [(0, ⟨desc 0, 2, false, false⟩)] } (.channel 0) .host .writeAck [])
      (fun t => (t.chState 0, t.chWord 0 6, t.ops.length)) = some (0, 1, 0) ∧
    after (.routerArbitration 90 ⟨6, .none⟩) (answering (moving 1) (.channel 0) .host .readData [(0x20000000, 0), (0x20000001, 0x1234)])
      (fun t => (t.chState 0, t.out)) = some (0, [.hostWrite 0x1000 [0, 0, 0x34, 0x12]]) ∧
    after (.routerArbitration 90 ⟨6, .none⟩) (answering (moving 1) (.channel 0) .host .error []) (fun t => t.chWord 0 5) = some 18 := by decide +kernel

/-! ## What else the statements suppose -/

/-- A packet of seat 0 waits for room at its router. -/
def jammed (who : MeshReq) (s : State) : State := { s with meshWait := [(meshKey who.router who.input 0, [{ writePkt .write with req := who }])] }

/-- Seat 0 with its crew cache off, the line of block b on its way, or a tile store under way. -/
def uncached : State := (run id).setReg (R.COX_CC_CTRL 0) 0
def missing (b : Nat) : State := run (fun k => { k with misses := [⟨b, [], none⟩] })
def storing : State := run (fun k => { k with tileQ := [(0, .tst 0 0x200 16)] })

theorem witness_accesses :
    uncached.ccServes 0 = false ∧ nearTo s0 0x20000020 = true ∧ nearTo s0 0x20800020 = false ∧ uncached.coreClogged s0 = false ∧
    (jammed (.core s0) uncached).coreClogged s0 = true ∧ (run id).behindTile s0 true [0x200] = false ∧ storing.behindTile s0 true [0x200] = true ∧
    (missing blk).lineBusy s0 blk = true ∧ (run id).lineBusy s0 blk = false ∧ (missing blk).cacheBusy s0 = true ∧ (run id).cacheBusy s0 = false ∧
    (run id).zeroing (blk * 32 + 31) = false ∧ (run id).readsOf s0 = [] ∧ ((run (fun k => { k with stopReq := true })).core s0).stopReq = true := by
  decide +kernel

theorem witness_places :
    ((boat id).access bh 0x09000001 false = .flash 2 ∧ (boat id).access bh 0x0A000001 false = .rom 1) ∧ (cox id).access x0 0xF0000001 true = .reg 0xF0000001 ∧
    (run id).access s0 0x100021 true = .mem 0x20000021 ∧ (run id).access s0 0x20000 false = .unmapped ∧ (LoadDst.a 3).wide = true := by decide +kernel

theorem witness_bursts :
    (copying 0 []).clogged 0 (.dma 0 1) = false ∧ (∀ j : Fin 4, j ≠ 1 → (copying 0 []).dmaAsksOut 0 j.val = false) ∧
    (copying 0 []).zeroing 0x20100001 = false ∧ ((copying 0 []).eng 0 1).out = [] ∧ ((copying 2 [0x11, 0x22]).eng 0 1).buf.length = 2 ∧
    ((engine 3 (fun d => { d with ready := true })).eng 0 1).ready = true ∧ ((engine 2 (fun d => { d with opened := true })).eng 0 1).opened = true ∧
    ((engine 3 (fun d => { d with halt := true, chain := 5 })).eng 0 1).chain < (engine 3 id).chainMax 0 1 ∧ (engine 3 id).chainMax 0 1 ≤ 65536 := by
  decide +kernel

/-- Two requesters wait on the control network, crew 0's control core having been served in this round; one of them peeks. -/
def waitingCtl : State :=
  { cox id with ctl := [txn 0xE0000000 none (some (.a 3)), { txn 0xE0000000 none (some (.a 3)) with who := .cox 1, kind := .core 0xE0000000 true none (some (.a 3)) }]
                ctlRound := [.cox 0] }

theorem witness_turns :
    waitingCtl.ctlTurn 0 (txn 0xE0000000 none (some (.a 3))) = false ∧ (waitingCtl.ctl[1]?.map (waitingCtl.ctlTurn 1)) = some true ∧
    (∀ y ∈ waitingCtl.ctl, y.at_ % 2 = 1 → y.who = .cox 1) ∧ identityWord 0xF025FFF0 = true ∧ identityWord 0xF0770000 = false ∧
    advancing.ctlTurn 0 ⟨.cox 0, .advance ⟨0, 2, 1, 63, 5, false⟩, 0, []⟩ = true := by decide +kernel

/-- A transport packet on its way to the port of router 2, which is ACTIVE. -/
def outward : Packet := { writePkt .write with dst := 2, exit := .port, src := 2, load := some ⟨req .write, 0, none, 0, 0⟩ }
def atPort : State := (port base 0 5 id).setMeshIn 2 3 0 [outward]

theorem witness_links_of_routers :
    outward.vc = 0 ∧ routeOut 2 outward = 5 ∧ (routerPort 2).isSome = true ∧ (port base ((routerPort 2).getD 0) 5 id).portActive ((routerPort 2).getD 0) = true ∧
    outward.flits ≤ atPort.credit 2 5 outward ∧ atPort.overAge outward = false ∧ (writePkt .write).flits ≤ base.credit 1 4 (writePkt .write) ∧
    mapGet (fun _ => []) atPort.meshWait (meshKey 2 3 0) = [] ∧ (writePkt .read).accepted = false ∧ (∀ w ∈ (writePkt .write).touches, base.zeroing w = false) ∧
    (arrived 0 (writePkt .writeAck)).writesOf s0 = [(7, true)] := by decide +kernel

theorem witness_answersAt :
    hosted.answersAt (R.MESH_PRIO 0) = true ∧ hosted.answersAt 0xF8000002 = true ∧ (Requester.cox 5 ≠ .host) ∧ base.mayAccess (.cox 5) = true ∧
    hosted.warm = false ∧ hosted.mayAccess .host = true := by decide +kernel

/-- A device in SYNC that follows device 7 through port 31, whose last message names a catch to come. -/
def following : State :=
  { (port ((stroke 1 0).setReg R.STK_MASTER 0x107) 31 5 (fun x => { x with heard := some { msg 7 1 with catchTime := 100, stroke := 5 } })) with
    stroke := { Stroke.empty with upstream := some 31 }, time := 100 }

/-- In RUN, all of the stroke's instants past; in a phase. -/
def late (phase : Nat) : State := { stroke 2 phase with time := 10 ^ 9 }

/-- Device 0 a candidate. -/
def standing (s : State) : State := s.setReg R.STK_CTRL 1

/-- Crew 95's seat 0 runs a task of record word 4 = 1, due by this stroke. -/
def overrun (policy : Word) : State :=
  ((late 1).setReg (R.COX_STROKE_CTRL 95) policy).setCore (.seat 95 0) { ready 0x100 with task := some ⟨0, [0, 0, 0, 0, 1], 0, some 0, false⟩ }

theorem witness_instants :
    following.following = some 7 ∧ following.stroke.upstream = some 31 ∧ (following.port 31).heard.map (fun m => (m.announce, m.hold, m.txtime, m.catchTime, m.stroke)) =
      some (0, false, 0, 100, 5) ∧
    ((late 3).held = false ∧ (late 3).catchTime + 10 * (late 3).effParams.period ≤ (late 3).time) ∧
    ((late 3).setBit R.STK_STAT 6 true).held = true ∧ ((late 3).catchTime + 10 * (late 3).effParams.catch_ ≤ (late 3).time) ∧
    (late 3).catchTime + 10 * ((late 3).effParams.period - (late 3).effParams.recov) + 1000 ≤ (late 3).time ∧ (standing (late 3)).self ≠ none ∧
    (overrun 1).stkPhase = 1 ∧ (overrun 1).fld (R.COX_STROKE_CTRL 95) 0 2 = 1 ∧ (overrun 2).fld (R.COX_STROKE_CTRL 95) 0 2 = 2 ∧
    ((overrun 0).core (.seat 95 0)).task.isSome = true ∧ 0 ≤ (overrun 0).stkCount := by decide +kernel

theorem witness_elections :
    (standing (stroke 2 0)).candidate = true ∧ (stroke 2 0).candidate = false ∧ ((standing (stroke 2 0)).setReg R.STK_MASTER (0x100 + BitVec.ofNat 16 base.devId)).following = some (standing (stroke 2 0)).devId := by decide +kernel

theorem witness_masters :
    (late 0).stroke.mark + max 20 ((late 0).fld R.STK_LOSSTO 0 10) * 1000 ≤ (late 0).time ∧ (late 0).stroke.evHeld = [] ∧
    (late 0).stroke.mark + 50000000 ≤ (late 0).time ∧ (late 0).stroke.upstream = none ∧ ((late 0).setBit R.STK_STAT 3 true).isMaster = true ∧
    ({ late 0 with stroke := { Stroke.empty with first := some 5 } } : State).stroke.first = some 5 ∧
    (late 0).catchTime + 10 * (late 0).effParams.period + 10 * (late 0).effParams.hold ≤ (late 0).time + 3000 ∧ (late 0).stroke.electing = false ∧
    ({ late 0 with stroke := { Stroke.empty with electing := true, cand := some (0, false) } } : State).stroke.cand = some (0, false) := by decide +kernel

/-- A port with a flit error episode that still has tries left, and one whose last try is past. -/
def episode (k : Nat) : State := { port base 31 5 (fun x => { x with episode := some (0, k) }) with time := 1999 }

theorem witness_episodes :
    ((episode 7).port 31).episode = some (0, 7) ∧ (episode 7).time < 0 + 2000 ∧ ((episode 8).port 31).episode = some (0, 8) ∧
    ((hdr 0).fvc.val < 6 ∧ (hdr 0).cvc.val < 6) ∧ ({ hdr 0 with fvc := 7 } : FlitHdr).fvc.val = 7 ∧ (port base 31 8 id).portState 31 = 8 ∧
    ((base.setReg (R.GW_TEST 31) 3).reg (R.GW_TEST 31)).getLsbD 1 = true ∧ (base.setFld (R.GW_STAT 31) 4 2 1).portWidth 31 = 1 ∧
    (base.setFld (R.GW_STAT 31) 4 2 2).portWidth 31 = 2 ∧ (base.port 31).waiting 0 = false ∧
    ({ Port.empty with rest := Vector.replicate 6 [1] } : Port).waiting 0 = true ∧ base.stroke.electing = false := by decide +kernel

theorem witness_egress :
    base.clogged 0 (.port 31) = false ∧ (jammed (.port 31) base).clogged 0 (.port 31) = true ∧ (((port base 1 5 id).setReg 0xF1400004 0x21).routePort 2 0) = some 1 ∧
    (base.routePort 2 0) = none ∧ ((port base 31 5 (fun x => { x with inbox := [⟨{ req .write with dst := 2 }, 0, some 31, 0, 1⟩] })).port 31).inbox.length = 1 := by
  decide +kernel

theorem witness_remote :
    window.opTag .own = some 0 ∧ ({ window with ops := (List.range 256).map (fun t => ⟨.own, t, .channel 0, [], 0, [], none⟩) } : State).opTag .own = none ∧
    window.clogged 0 .own = false ∧ (jammed .own window).clogged 0 .own = true ∧ (∀ o ∈ (queuedIn (req .write)).ops, o.todo = []) ∧
    (answering window (.remote (req .write) false) .own .writeAck []).ops.map MemOp.left = [1] ∧ window.takesEvent 0 0 = false ∧
    (window.setReg (R.COX_Q_CTRL 0 2) 0x403).qEvent 0 2 = true ∧ base.clogged 0 (.hail 0) = false ∧ (jammed (.hail 0) base).clogged 0 (.hail 0) = true ∧
    (waiting .write (.posted 0 1 7)).ini.length = 1 := by decide +kernel

theorem witness_slots :
    ((slot 1).cache 95).busy = none ∧ (slot 2).meshWait = [] ∧ (slot 2).ops = [] ∧ ((slot 1).fn 16).present = false ∧
    (({ slot 1 with fns := [(16, fn0)] } : State).fn 16).present = true ∧ ((slot 1).setReg (R.LANE_SLOT_CTRL 15) 1).reg (R.LANE_SLOT_CTRL 15) = 1 ∧
    ({ slot 2 with meshWait := [(0, [{ writePkt .write with accepted := true, dst := 95 }])] } : State).drained [95] = false := by decide +kernel

theorem witness_governed :
    (∀ x at_, paced.pwr.waiting = some (x, at_) → paced.time < at_) ∧ paced.pwr.out = none ∧ paced.pwr.limMoves = false ∧ paced.pwr.thermMoves = false ∧
    (up 200000000 paced).pwr.kickAt + 2 * (paced.pwr.inForce.wdog * 1000000) ≤ (up 200000000 paced).uptime ∧ paced.uptime < paced.pwr.kickAt + paced.pwr.inForce.wdog * 1000000 ∧
    paced.ballastOk 95 = true ∧ (∀ d, d < 96 → paced.ballastOk d = true → paced.fld (R.PWR_BAL d) 0 7 < 0 → False) ∧
    ({ paced with pwr := { paced.pwr with unheld := true } } : State).pwr.unheld = true := by
  refine ⟨?_, by decide +kernel, by decide +kernel, by decide +kernel, by decide +kernel, by decide +kernel, by decide +kernel, ?_, by decide⟩
  · intro x a h; rw [show paced.pwr.waiting = none from by decide +kernel] at h; cases h
  · intro d _ _ h; exact absurd h (Nat.not_lt_zero _)

/-- A step fault after which a commitment has been made, other than the one in force then. -/
def renewed : State :=
  { dark.setReg R.PWR_CAUSE 2 with bh := { dark.bh with tripId := some 4, commit := some (commitmentOf proposal, 5) } }

theorem witness_renewed :
    (renewed.reg R.PWR_CAUSE).toNat % 16 = 2 ∧ (renewed.bh.commit.map (fun x => (x.1.id, x.1.target))) = some (1, 1000000) ∧ renewed.bh.tripId = some 4 ∧
    (renewed.core bh).mode = .running ∧ renewed.onlyVbh = true ∧ ({ fw with bh := { fw.bh with phase := 4 } } : State).bh.phase = 4 ∧
    ({ base with warm := true } : State).warm = true := by decide +kernel

theorem test_renewed :
    after .packagePowerOn renewed (fun t => (t.pwr.stage1, t.bh.tripId)) = some (true, none) ∧
    after .packagePowerOn (renewed.setReg R.PWR_CAUSE 1) (fun t => t.pwr.stage1) = some false := by decide +kernel

theorem witness_host_access :
    linked.opTag .host = some 0 ∧ ({ linked with ops := (List.range 256).map (fun t => ⟨.host, t, .channel 0, [], 0, [], none⟩) } : State).opTag .host = none ∧
    linked.pfErrors ⟨.bar0, 0x78000000, 1, 15, 0, none⟩ = [] ∧ linked.barUp = true ∧ hosted.hostUp = true ∧ base.hostUp = false ∧
    (∀ o ∈ linked.ops, o.todo = []) ∧ (moving 0).chBusy 0 = false ∧ ({ moving 0 with hdma := [(0, ⟨[], 0, false, true⟩)] } : State).chan 0 = ⟨[], 0, false, true⟩ ∧
    (moving 1).chRuns 0 = true ∧ hdLen (desc 0) ≤ 128 ∧ memCrew (hdDev (desc 0) + 1) = memCrew (hdDev (desc 0)) := by decide +kernel

/-! ## The machine as a whole -/

theorem witness_canonical : base.canonical := by
  simp only [State.canonical]; decide +kernel

theorem witness_step_next :
    (match step { base with pending := [.tset] } with | .next t => t.bh.tset && t.pending.isEmpty | _ => false) = true := by decide +kernel

theorem test_idle : (match step base with | .next t => t.pending.isEmpty && t.time == 0 | _ => false) = true := by decide +kernel

theorem test_words : decodeTableWord 16 0xFFFF = none ∧ State.reset.withFetchWord 16 0 = State.reset := by decide +kernel

/-! ## Well-formed commands -/

theorem test_wellFormed :
    wellFormed (.tset) = true ∧ wellFormed (.registerWrite .host 1 true 0) = false ∧ wellFormed (.registerWrite .host 1 false 0) = true ∧
    wellFormed (.hostRequest ⟨.bar0, 0, 0, 0, 0, none⟩) = false ∧ wellFormed (.hostRequest ⟨.bar2, 1024, 1, 15, 0, none⟩) = false ∧
    wellFormed (.hostRequest ⟨.bar0, 0, 1, 15, 1, none⟩) = false ∧ wellFormed (.vfAccess 0 ⟨.bar0, 0, 2, 15, 15, some [1]⟩) = false ∧
    wellFormed (.firmwareUpdate (List.replicate 3 0)) = true ∧ wellFormed (.hdmaDescriptorFetch 0 (some [])) = false ∧
    wellFormed (.domainSectionPowerUp (.vgw 0) 8001) = false ∧ wellFormed (.thermalStep []) = false := by decide +kernel

theorem witness_fault : ((State.reset.setReg R.HST_FLT_HIE 0xFFFF).setReg R.PWR_FLT 1).hostFault = true := by decide +kernel

end Sys2Proof.Tests
end

section
/-! SUPPORT. Laws of register accesses (spec/02): what one access of a word does to the state, what its requester sees of it, and
how the host is told of a failing one. -/
namespace Sys2Proof.Machine
open Host

/-! ## What a look at the fault summary changes (R359, R483) -/

/-- An MSI-X source changes only the functions and what the device has sent. -/
theorem State.msix_frame (s : State) (n vec : Nat) : ∃ fns out, s.msix n vec = { s with fns := fns, out := out } := by
  unfold State.msix
  simp only
  split
  · exact ⟨s.fns, s.out, rfl⟩
  · split <;> exact ⟨_, _, rfl⟩

/-- A look at the fault summary changes only the functions, what the device has sent, and the summary last seen. -/
theorem State.faultEdge_frame (s : State) :
    ∃ fns out seen, s.faultEdge = { s with fns := fns, out := out, fltSeen := seen } := by
  unfold State.faultEdge
  simp only
  split
  · obtain ⟨fns, out, e⟩ := State.msix_frame { s with fltSeen := true } 0 0
    exact ⟨fns, out, true, e⟩
  · exact ⟨s.fns, s.out, s.hostFault, rfl⟩

/-! ## Side effects of a read -/

/-- A read of a FIFO's word changes only the boathouse and the count of free values. -/
theorem State.popFifo_frame (s : State) (a : Nat) : ∃ bh ctr, s.popFifo a = { s with bh := bh, freeCtr := ctr } := by
  unfold State.popFifo
  split
  · simp only
    split <;> exact ⟨_, _, rfl⟩
  · split
    · simp only
      split <;> exact ⟨_, _, rfl⟩
    · split
      · split <;> exact ⟨_, _, rfl⟩
      · exact ⟨s.bh, s.freeCtr, rfl⟩

/-- Taking a snapshot changes only the snapshots. -/
theorem State.takeSnap_frame (s : State) (who : Requester) (a : Nat) : ∃ snaps, s.takeSnap who a = { s with snaps := snaps } := by
  unfold State.takeSnap
  split
  · split
    · exact ⟨_, rfl⟩
    · exact ⟨s.snaps, rfl⟩
  · exact ⟨s.snaps, rfl⟩

/-- The RC bits of a register's word, as far as the mask lets them, clear. -/
theorem State.clearRc_of_row {a : Nat} {r : RegRow} (s : State) (hr : regRow a = some r) (m : Word) :
    s.clearRc a m = s.clrReg a (r.rc &&& m) := by
  simp only [State.clearRc, hr]

/-- Clearing RC bits changes only register words. -/
theorem State.clearRc_frame (s : State) (a : Nat) (m : Word) : ∃ regs, s.clearRc a m = { s with regs := regs } := by
  unfold State.clearRc
  split
  · exact ⟨_, rfl⟩
  · exact ⟨s.regs, rfl⟩

@[simp] theorem State.reg_clrReg_same (s : State) (a : Nat) (m : Word) : (s.clrReg a m).reg a = s.reg a &&& ~~~ m :=
  State.reg_setReg_same _ _ _

theorem State.reg_clrReg_ne (s : State) {a b : Nat} (m : Word) (h : b ≠ a) : (s.clrReg a m).reg b = s.reg b :=
  State.reg_setReg_ne _ _ h

/-- An ordinary read clears the RC bits of its word, takes its snapshot, and may move a FIFO. -/
theorem State.readEffect_frame {a : Nat} {r : RegRow} (s : State) (who : Requester) (hr : regRow a = some r) :
    ∃ bh ctr, s.readEffect who a =
      { s.clrReg a r.rc with snaps := (s.takeSnap who a).snaps, bh := bh, freeCtr := ctr } := by
  unfold State.readEffect
  obtain ⟨snaps, e⟩ := s.takeSnap_frame who a
  obtain ⟨bh, ctr, e'⟩ := State.popFifo_frame (({ s with snaps := snaps } : State).clearRc a 0xFFFF) a
  refine ⟨bh, ctr, ?_⟩
  rw [e, e', State.clearRc_of_row _ hr, show (0xFFFF : Word) = BitVec.allOnes 16 from rfl, BitVec.and_allOnes]
  rfl

@[simp] theorem State.takeSnap_mem (s : State) (who : Requester) (a : Nat) : (s.takeSnap who a).mem = s.mem := by
  obtain ⟨snaps, e⟩ := s.takeSnap_frame who a
  rw [e]

@[simp] theorem State.clearRc_mem (s : State) (a : Nat) (m : Word) : (s.clearRc a m).mem = s.mem := by
  obtain ⟨regs, e⟩ := s.clearRc_frame a m
  rw [e]

@[simp] theorem State.popFifo_mem (s : State) (a : Nat) : (s.popFifo a).mem = s.mem := by
  obtain ⟨bh, ctr, e⟩ := s.popFifo_frame a
  rw [e]

/-- A read of one word leaves memory as it is. -/
@[simp] theorem State.readOne_mem (s : State) (who : Requester) (a : Nat) : (s.readOne who a).1.mem = s.mem := by
  unfold State.readOne
  split
  · rfl
  · split
    · exact s.clearRc_mem _ _
    · simp [State.readEffect]

/-! ## Reads and writes of one word, by the range they name -/

theorem State.readOne_ordinary {a : Nat} (s : State) (who : Requester) (hlo : 0xF0000000 ≤ a) (hhi : a < 0xF8000000) :
    s.readOne who a = (s.readEffect who a, s.readValue who a) := by
  rw [State.readOne, if_neg (by omega), if_neg (by omega)]

theorem State.readOne_alias {a : Nat} (s : State) (who : Requester) (h : 0xF8000000 ≤ a) :
    s.readOne who a = (s.clearRc (aliasOf a).1 (BitVec.ofNat 16 (2 ^ (aliasOf a).2)),
      if (s.ordWord who (aliasOf a).1).getLsbD (aliasOf a).2 then 1 else 0) := by
  rw [State.readOne, if_neg (by omega), if_pos h, State.plainWord, if_pos h]

theorem State.writeOne_ordinary {a : Nat} (s : State) (who : Requester) (v : Word) (hlo : 0xF0000000 ≤ a) (hhi : a < 0xF8000000) :
    s.writeOne who a v = s.ordWrite who a v := by
  rw [State.writeOne, if_neg (by omega), if_neg (by omega)]

theorem State.writeOne_alias {a : Nat} (s : State) (who : Requester) (v : Word) (h : 0xF8000000 ≤ a) :
    s.writeOne who a v = s.aliasWrite who (aliasOf a).1 (aliasOf a).2 (v.getLsbD 0) := by
  rw [State.writeOne, if_neg (by omega), if_pos h]

/-! ## The bytes of a completion -/

/-- The two bytes of a word, low first. -/
abbrev bytesOfWord (w : Word) : List Byte := [BitVec.ofNat 8 (w.toNat % 256), BitVec.ofNat 8 (w.toNat / 256)]

theorem bytesOfWord_eq (w : Word) : bytesOfWord w = [w.setWidth 8, (w >>> 8).setWidth 8] := by
  simp only [bytesOfWord, List.cons.injEq, and_true]
  constructor <;> bv_omega

theorem wordsBytes_narrow (w : Word) : wordsBytes (w.setWidth 32) false = bytesOfWord w := by
  rw [bytesOfWord_eq]
  simp only [wordsBytes, List.range_succ, List.range_zero, List.map_cons, List.map_nil, List.nil_append, List.cons_append,
    Bool.false_eq_true, if_false, List.cons.injEq, and_true]
  constructor <;> bv_omega

/-- A byte of two words, low word first, lies in one of them. -/
theorem byte_append (hi lo : Word) (i : Nat) (h : i < 2) :
    ((hi ++ lo) >>> (8 * i)).setWidth 8 = (lo >>> (8 * i)).setWidth 8 ∧
      ((hi ++ lo) >>> (8 * (i + 2))).setWidth 8 = (hi >>> (8 * i)).setWidth 8 := by
  constructor <;> ext j hj <;>
    simp only [BitVec.getElem_setWidth, BitVec.getLsbD_ushiftRight] <;> refine BitVec.getLsbD_append.trans ?_
  · rw [if_pos (by omega)]
  · rw [if_neg (by omega), show 8 * (i + 2) + j - 16 = 8 * i + j by omega]

theorem wordsBytes_wide (hi lo : Word) : wordsBytes (hi ++ lo) true = bytesOfWord lo ++ bytesOfWord hi := by
  obtain ⟨h0, h2⟩ := byte_append hi lo 0 (by decide)
  obtain ⟨h1, h3⟩ := byte_append hi lo 1 (by decide)
  rw [bytesOfWord_eq, bytesOfWord_eq]
  show [((hi ++ lo) >>> (8 * 0)).setWidth 8, ((hi ++ lo) >>> (8 * 1)).setWidth 8, ((hi ++ lo) >>> (8 * (0 + 2))).setWidth 8,
    ((hi ++ lo) >>> (8 * (1 + 2))).setWidth 8] = _
  rw [h0, h1, h2, h3]
  rfl

/-! ## Accesses by a requester -/

/-- The state after an access, given what the look at the fault summary changes and what the requester sees. -/
def State.answered (s : State) (fns : List (Nat × HostFn)) (out : List OutMsg) (seen : Bool) (c : Completion) : State :=
  { s with fns := fns, out := out, fltSeen := seen, lastRead := some c }

/-- A requester that cannot send accesses changes nothing. -/
theorem State.regWrite_barred {who : Requester} {s : State} (h : s.mayAccess who = false) (a : Nat) (wide : Bool) (v : BitVec 32) :
    s.regWrite who a wide v = s := by
  simp [State.regWrite, h]

theorem State.regRead_barred {who : Requester} {s : State} (h : s.mayAccess who = false) (a : Nat) (wide : Bool) :
    s.regRead who a wide = s := by
  simp [State.regRead, h]

theorem State.writeAnswers_registers {a : Nat} (s : State) (h : 0xF0000000 ≤ a) : s.writeAnswers a = s.answersAt a := by
  rw [State.writeAnswers, if_neg (by omega)]

/-- A word of the peek window answers a write where the word it mirrors does (R271). -/
theorem State.writeAnswers_peek {a : Nat} (s : State) (h : a < 0x10000000) :
    s.writeAnswers (0xE0000000 + a) = s.answersAt (0xF0000000 + a) := by
  rw [State.writeAnswers, if_pos (by omega), show 0xE0000000 + a + 0x10000000 = 0xF0000000 + a by omega]

/-- A write fails where its word does not answer. -/
theorem State.regWrite_noAnswer {who : Requester} {s : State} {a : Nat} (hm : s.mayAccess who = true) (ha : 0xF0000000 ≤ a)
    (h : s.answersAt a = false) (wide : Bool) (v : BitVec 32) : s.regWrite who a wide v = s.regFail who a true := by
  have hw : s.writeAny who a wide v = (s, false) := by
    rw [State.writeAny, if_neg (by omega), if_neg (by omega), s.writeAnswers_registers ha, h]; rfl
  simp only [State.regWrite, hm, hw, if_true]

/-- A read fails where its word does not answer. -/
theorem State.regRead_noAnswer {who : Requester} {s : State} {a : Nat} (hm : s.mayAccess who = true) (h : s.answersAt a = false)
    (wide : Bool) : s.regRead who a wide = s.regFail who a false := by
  have hr : s.readAny who a wide = (s, none) := by rw [State.readAny, h]; rfl
  simp only [State.regRead, hm, hr, if_true]

/-- A write to the peek window does nothing but complete (R57). -/
theorem State.regWrite_peek {who : Requester} {s : State} {a : Nat} (hm : s.mayAccess who = true) (hlo : 0xE0000000 ≤ a)
    (hhi : a < 0xF0000000) (wide : Bool) (v : BitVec 32) :
    s.regWrite who a wide v = { s with lastRead := some ⟨.ok, []⟩ } := by
  have hw : s.writeAny who a wide v = (s, true) := by rw [State.writeAny, if_neg (by omega), if_pos hhi]
  simp only [State.regWrite, hm, hw, if_true]

/-- A write whose words answer succeeds. -/
theorem State.regWrite_lastRead {who : Requester} {s : State} {a : Nat} {wide : Bool} (hm : s.mayAccess who = true)
    (ha : 0xF0000000 ≤ a) (h : s.answersAt a = true) (h' : wide = true → s.answersAt (a + 1) = true) (v : BitVec 32) :
    (s.regWrite who a wide v).lastRead = some ⟨.ok, []⟩ := by
  have hw : (s.writeAnswers a && (!wide || s.writeAnswers (a + 1))) = true := by
    rw [s.writeAnswers_registers ha, s.writeAnswers_registers (by omega), h]
    cases wide with
    | false => rfl
    | true => exact h' rfl
  simp only [State.regWrite, hm, State.writeAny, hw, if_true, if_neg (show ¬ a < 0xE0000000 by omega),
    if_neg (show ¬ a < 0xF0000000 by omega)]

/-- A 16-bit write that is answered: the write of its word, and nothing else but the look at the fault summary. -/
theorem State.regWrite_narrow {who : Requester} {s : State} {a : Nat} (hm : s.mayAccess who = true) (ha : 0xF0000000 ≤ a)
    (h : s.answersAt a = true) (v : BitVec 32) :
    ∃ fns out seen, s.regWrite who a false v = (s.writeOne who a (v.setWidth 16)).answered fns out seen ⟨.ok, []⟩ := by
  obtain ⟨fns, out, seen, e⟩ := (s.writeOne who a (v.setWidth 16)).faultEdge_frame
  refine ⟨fns, out, seen, ?_⟩
  simp only [State.regWrite, hm, State.writeAny, s.writeAnswers_registers ha, h, if_true, Bool.not_false, Bool.true_or,
    Bool.and_true, Bool.false_eq_true, if_false, if_neg (show ¬ a < 0xE0000000 by omega), if_neg (show ¬ a < 0xF0000000 by omega), e,
    State.answered]

/-- A 16-bit read that is answered: the read of its word, and nothing else but the look at the fault summary. -/
theorem State.regRead_narrow {who : Requester} {s : State} {a : Nat} (hm : s.mayAccess who = true) (h : s.answersAt a = true) :
    ∃ fns out seen, s.regRead who a false =
      (s.readOne who a).1.answered fns out seen ⟨.ok, bytesOfWord (s.readOne who a).2⟩ := by
  obtain ⟨fns, out, seen, e⟩ := (s.readOne who a).1.faultEdge_frame
  refine ⟨fns, out, seen, ?_⟩
  simp only [State.regRead, hm, State.readAny, h, if_true, Bool.not_false, Bool.true_or, Bool.and_true, Bool.false_eq_true,
    if_false, e, wordsBytes_narrow, State.answered]

/-- A 16-bit read that is answered returns the value of its word, and leaves memory as it is. -/
theorem State.regRead_narrow_returns {who : Requester} {s : State} {a : Nat} (hm : s.mayAccess who = true)
    (h : s.answersAt a = true) :
    (s.regRead who a false).lastRead = some ⟨.ok, bytesOfWord (s.readOne who a).2⟩ ∧ (s.regRead who a false).mem = s.mem := by
  obtain ⟨fns, out, seen, e⟩ := State.regRead_narrow hm h
  rw [e]
  exact ⟨rfl, s.readOne_mem who a⟩

/-- A 32-bit read that is answered returns the value of its LO word, then that of its HI word as the LO read leaves it (R43). -/
theorem State.regRead_wide_returns {who : Requester} {s : State} {a : Nat} (hm : s.mayAccess who = true) (h : s.answersAt a = true)
    (h' : s.answersAt (a + 1) = true) :
    (s.regRead who a true).lastRead =
        some ⟨.ok, bytesOfWord (s.readOne who a).2 ++ bytesOfWord ((s.readOne who a).1.readOne who (a + 1)).2⟩ ∧
      (s.regRead who a true).mem = s.mem := by
  obtain ⟨fns, out, seen, e⟩ := ((s.readOne who a).1.readOne who (a + 1)).1.faultEdge_frame
  simp only [State.regRead, hm, State.readAny, h, h', if_true, Bool.not_true, Bool.or_true, Bool.and_true, e, wordsBytes_wide,
    State.readOne_mem, and_self]

/-! ## Failing accesses of the host (R50, R62) -/

/-- Recording an error of a host request changes only register words. -/
theorem State.accError_frame (s : State) (write : Bool) (len a : Nat) (m : Word) :
    s.accError write len a m = { s with regs := (s.accError write len a m).regs } := by
  unfold State.accError
  split
  · simp only [State.setReg, State.setReg32]
  · rfl

/-- A failing host request shows its requester the outcome; besides, only register words, the error log, the functions and what the
device sends change. -/
theorem State.hostError_frame (s : State) (write : Bool) (len a : Nat) (m : Word) (status : AccStatus) :
    ∃ aer fns out seen, s.hostError write len a m status =
      { s with regs := (s.accError write len a m).regs, aer := aer, fns := fns, out := out, fltSeen := seen,
               lastRead := some ⟨status, []⟩ } := by
  unfold State.hostError
  rw [s.accError_frame]
  obtain ⟨fns, out, seen, e⟩ := State.faultEdge_frame { s with
    regs := (s.accError write len a m).regs, lastRead := some ⟨status, []⟩, aer := s.aer ||| aerBit status }
  simp only [e]
  split <;> exact ⟨_, _, _, _, rfl⟩

/-- A LO/HI pair written reads back. -/
theorem State.reg32_setReg32_same (s : State) (a : Nat) (v : BitVec 32) : (s.setReg32 a v).reg32 a = v := by
  rw [State.reg32, State.setReg32, State.reg_setReg_same, State.reg_setReg_ne _ _ (by omega), State.reg_setReg_same]
  ext i hi
  rw [BitVec.getElem_append]
  split
  · simp [BitVec.getLsbD_eq_getElem hi]
  · rename_i h
    simp [show 16 + (i - 16) = i by omega, BitVec.getLsbD_eq_getElem hi]

/-- The first failing host request is captured: the bits of its causes, and its address. -/
theorem State.accError_captures {s : State} (h : s.reg R.HST_ACCERR_STAT = 0) (write : Bool) (len a : Nat) (m : Word) :
    (s.accError write len a m).reg R.HST_ACCERR_STAT = m ∧
      (s.accError write len a m).reg32 R.HST_ACCERR_ADDR_LO = BitVec.ofNat 32 a := by
  rw [State.accError, if_pos h]
  refine ⟨State.reg_setReg_same _ _ _, ?_⟩
  rw [State.reg32, State.reg_setReg_ne _ _ (by decide), State.reg_setReg_ne _ _ (by decide)]
  exact State.reg32_setReg32_same _ _ _

/-- What the host sees of a request that fails, and what HST_ACCERR captures of the first. -/
theorem State.hostError_shows (s : State) (write : Bool) (len a : Nat) (m : Word) (status : AccStatus) :
    (s.hostError write len a m status).lastRead = some ⟨status, []⟩ ∧ (s.hostError write len a m status).mem = s.mem ∧
    (s.hostError write len a m status).cores = s.cores ∧
    (s.reg R.HST_ACCERR_STAT = 0 → (s.hostError write len a m status).reg R.HST_ACCERR_STAT = m ∧
      (s.hostError write len a m status).reg32 R.HST_ACCERR_ADDR_LO = BitVec.ofNat 32 a) := by
  obtain ⟨aer, fns, out, seen, e⟩ := s.hostError_frame write len a m status
  rw [e]
  exact ⟨rfl, rfl, rfl, fun h => State.accError_captures h write len a m⟩

/-! ## A word that a write only stores -/

@[simp] theorem State.reg_storeWrite_same (s : State) (a : Nat) (r : RegRow) (v : Word) :
    (s.storeWrite a r v).reg a = (s.reg a &&& ~~~ r.rw) ||| (v &&& r.rw) := State.reg_setReg_same _ _ _

/-- Bits that software writes, set or cleared among the written bits, are set or cleared in the word. -/
theorem store_bits {x rw m : Word} (h : rw &&& m = m) :
    (x &&& ~~~ rw) ||| ((x &&& rw ||| m) &&& rw) = x ||| m ∧
      (x &&& ~~~ rw) ||| ((x &&& rw &&& ~~~ m) &&& rw) = x &&& ~~~ m := by
  constructor <;> ext i hi <;>
    (have hbit := congrArg (·[i]) h
     simp only [BitVec.getElem_and, BitVec.getElem_or, BitVec.getElem_not] at hbit ⊢
     cases hx : x[i] <;> cases hr : rw[i] <;> simp_all)

/-- The mask of one bit, as the model writes it and as the library does. -/
theorem ofNat_two_pow (b : Nat) : (BitVec.ofNat 16 (2 ^ b) : Word) = BitVec.twoPow 16 b :=
  BitVec.eq_of_toNat_eq (by rw [BitVec.toNat_ofNat, BitVec.toNat_twoPow])

theorem twoPow_ne_zero {b : Nat} (h : b < 16) : BitVec.twoPow 16 b ≠ 0#16 := by
  intro e
  have hbit := congrArg (BitVec.getLsbD · b) e
  simp [h] at hbit

/-- A write through an aliased bit changes that bit of a word that writes only store, where software writes it; elsewhere it is
ignored (R54). -/
theorem State.aliasWrite_stored {s : State} {who : Requester} {a b : Nat} {r : RegRow} (hr : regRow a = some r) (hw1p : r.w1p = 0)
    (hwo : r.wo = 0) (hv : s.ordWord who a = s.reg a) (hst : ∀ v, s.ordWrite who a v = s.storeWrite a r v) (hb : b < 16) (on : Bool) :
    s.aliasWrite who a b on =
      if r.rw.getLsbD b then
        s.setReg a (if on then s.reg a ||| BitVec.ofNat 16 (2 ^ b) else s.reg a &&& ~~~ BitVec.ofNat 16 (2 ^ b))
      else s := by
  have hm := BitVec.and_twoPow r.rw b
  simp only [State.aliasWrite, hr, hw1p, hwo, hv, hst, ofNat_two_pow, BitVec.ofNat_eq_ofNat, BitVec.zero_and, BitVec.and_zero,
    BitVec.or_zero, bne_self_eq_false, Bool.false_eq_true, if_false]
  by_cases h : r.rw.getLsbD b = true
  · rw [if_pos h] at hm
    obtain ⟨hset, hclear⟩ := store_bits (x := s.reg a) hm
    rw [if_pos h, hm, if_pos (bne_iff_ne.mpr (twoPow_ne_zero hb)), State.storeWrite]
    cases on
    · exact congrArg (s.setReg a) hclear
    · exact congrArg (s.setReg a) hset
  · rw [if_neg h] at hm
    rw [if_neg h, hm, if_neg (by simp)]

/-! ## Words of a crew's block (R35) -/

/-- The register of a word of a crew's block. -/
theorem regRow_crew {a c o : Nat} (ha : a = 0xF0000000 + c * 0x10000 + o) (hc : c < 96) (ho : o < 0x10000) :
    regRow a = crewRows.find? (fun r => r.covers o) := by
  rw [regRow, if_neg (by omega), if_pos (by omega), show (a - 0xF0000000) % 0x10000 = o by omega]

/-- The words of a crew's block answer while the crew is up. -/
theorem State.answersAt_crew {s : State} {a c o : Nat} (ha : a = 0xF0000000 + c * 0x10000 + o) (hc : c < 96) (ho : o < 0x10000)
    (hup : s.crewUp c = true) : s.answersAt a = true := by
  rw [State.answersAt, if_neg (by omega), if_neg (by omega), State.ordAnswers, if_pos (by omega),
    show (a - 0xF0000000) / 0x10000 = c by omega, State.crewAnswers, hup]
  simp

/-- A word of a crew's block without write-only bits reads its value. -/
theorem State.ordWord_crew {s : State} {who : Requester} {a c o : Nat} {r : RegRow} (ha : a = 0xF0000000 + c * 0x10000 + o)
    (hc : c < 96) (ho : o < 0x10000) (hr : regRow a = some r) (hw1p : r.w1p = 0#16) (hwo : r.wo = 0#16) :
    s.ordWord who a = s.crewWord who c o a := by
  simp only [State.ordWord, hr, hw1p, hwo, BitVec.or_zero, BitVec.not_zero, BitVec.and_allOnes]
  rw [if_pos (by omega), show (a - 0xF0000000) / 0x10000 = c by omega, show (a - 0xF0000000) % 0x10000 = o by omega]

theorem State.ordWrite_crew {s : State} {who : Requester} {a c o : Nat} {r : RegRow} (ha : a = 0xF0000000 + c * 0x10000 + o)
    (hc : c < 96) (ho : o < 0x10000) (hr : regRow a = some r) (hwo : r.wo = 0) (v : Word) :
    s.ordWrite who a v = s.crewBlockWrite who c o a r v := by
  simp only [State.ordWrite, hr, State.keepWo, hwo, if_true]
  rw [if_pos (by omega), show (a - 0xF0000000) / 0x10000 = c by omega, show (a - 0xF0000000) % 0x10000 = o by omega]

/-- No word of a crew's block belongs to a four-word quantity. -/
theorem quadOf_crew {a : Nat} (h : a < 0xF0600000) : quadOf a = none := by
  simp only [quadOf, List.contains_cons, List.contains_nil, Bool.or_false, Bool.or_eq_true, beq_iff_eq, ite_eq_right_iff]
  omega

/-- The register of MESH_PRIO: bits that software writes, and reserved ones (R258). -/
def meshPrioRow : RegRow := ⟨"MESH_PRIO", 0x6000, 1, 1, 1, 1, 0x343, 0x777, 0x0, 0x0, 0x0⟩

/-- The register of COX_MEM_ERR: bits that a read clears, and read-only ones (R176). -/
def memErrRow : RegRow := ⟨"COX_MEM_ERR", 0x3E0A, 1, 1, 1, 1, 0x0, 0x0, 0x3, 0x0, 0x0⟩

section
variable (c : Fin 96)

theorem meshPrio_eq : R.MESH_PRIO c.val = 0xF0000000 + c.val * 0x10000 + 0x6000 := by simp only [R.MESH_PRIO]; omega

theorem memErr_eq : R.COX_MEM_ERR c.val = 0xF0000000 + c.val * 0x10000 + 0x3E0A := by simp only [R.COX_MEM_ERR]; omega

theorem regRow_meshPrio : regRow (R.MESH_PRIO c.val) = some meshPrioRow :=
  (regRow_crew (meshPrio_eq c) c.isLt (by decide)).trans rfl

theorem regRow_memErr : regRow (R.COX_MEM_ERR c.val) = some memErrRow :=
  (regRow_crew (memErr_eq c) c.isLt (by decide)).trans rfl

theorem State.ordWord_meshPrio (s : State) (who : Requester) : s.ordWord who (R.MESH_PRIO c.val) = s.reg (R.MESH_PRIO c.val) := by
  rw [State.ordWord_crew (meshPrio_eq c) c.isLt (by decide) (regRow_meshPrio c) rfl rfl]
  simp [State.crewWord]

theorem State.ordWord_memErr (s : State) (who : Requester) :
    s.ordWord who (R.COX_MEM_ERR c.val) = s.reg (R.COX_MEM_ERR c.val) := by
  rw [State.ordWord_crew (memErr_eq c) c.isLt (by decide) (regRow_memErr c) rfl rfl]
  simp [State.crewWord]

theorem State.ordWrite_meshPrio (s : State) (who : Requester) (v : Word) :
    s.ordWrite who (R.MESH_PRIO c.val) v = s.storeWrite (R.MESH_PRIO c.val) meshPrioRow v := by
  rw [State.ordWrite_crew (meshPrio_eq c) c.isLt (by decide) (regRow_meshPrio c) rfl]
  simp [State.crewBlockWrite]

end

/-! ## System time (R45) -/

/-- The register of a word of the device-global block. -/
theorem regRow_glob {a o : Nat} (ha : a = 0xF0600000 + o) (ho : o < 0x100000) :
    regRow a = globRows.find? (fun r => r.covers o) := by
  rw [regRow, if_neg (by omega), if_neg (by omega), if_pos (by omega), show a - 0xF0600000 = o by omega]

/-- The register of the words of system time, lowest first. -/
theorem regRow_stkTime (k : Fin 4) :
    regRow (0xF0600030 + k.val) = some ⟨"STK_TIME", 0x30, 4, 1, 1, 1, 0x0, 0x0, 0x0, 0x0, 0x0⟩ := by
  rw [regRow_glob (show 0xF0600030 + k.val = 0xF0600000 + (0x30 + k.val) by omega) (by omega)]
  match k with
  | 0 => rfl
  | 1 => rfl
  | 2 => rfl
  | 3 => rfl

theorem State.ordWord_stkTime (s : State) (who : Requester) (k : Fin 4) :
    s.ordWord who (0xF0600030 + k.val) = BitVec.ofNat 16 (s.time / 65536 ^ k.val) := by
  simp only [State.ordWord, regRow_stkTime, BitVec.ofNat_eq_ofNat, BitVec.or_zero, BitVec.not_zero, BitVec.and_allOnes]
  rw [if_neg (by omega), if_pos (by omega), State.globWord, if_pos (by omega), quadWord,
    show 0xF0600030 + k.val - 0xF0600000 - 0x30 = k.val by omega, Nat.pow_mul]

/-- A snapshot of system time holds its three upper words, which the later reads of its requester return. -/
theorem State.readValue_stkTime_of_snap {s u : State} {who : Requester} (hu : u.snaps = (s.takeSnap who 0xF0600030).snaps) (k : Fin 3) :
    u.readValue who (0xF0600031 + k.val) = BitVec.ofNat 16 (s.time / 65536 ^ (k.val + 1)) := by
  have hq : quadOf 0xF0600030 = some 0xF0600030 := by decide
  have hqk : quadOf (0xF0600031 + k.val) = some 0xF0600030 := by revert k; decide
  have hsnap : u.snap who 0xF0600030 =
      [s.ordWord who 0xF0600031, s.ordWord who 0xF0600032, s.ordWord who 0xF0600033] := by
    rw [State.snap, hu]
    simp only [State.takeSnap, hq, if_true, mapGet_mapSet_same]
  have hget : (u.snap who 0xF0600030)[k.val]? = some (s.ordWord who (0xF0600030 + k.succ.val)) := by
    rw [hsnap]
    match k with
    | 0 => rfl
    | 1 => rfl
    | 2 => rfl
  rw [State.ordWord_stkTime, Fin.val_succ] at hget
  simp only [State.readValue, hqk]
  rw [if_neg (by omega), show 0xF0600031 + k.val - 0xF0600030 - 1 = k.val by omega, hget]

/-- The first word of system time answers outside a warm reset (R465). -/
theorem State.answersAt_stkTime {s : State} (h : s.warm = false) : s.answersAt 0xF0600030 = true := by
  simp [State.answersAt, State.ordAnswers, State.globAnswers, h]

/-! ## Word offsets of the commands -/

/-- The offset of an ordinary word names that word. -/
theorem ordinary_offset {x : Nat} (hlo : 0xF0000000 ≤ x) (hhi : x < 0xF8000000) :
    0xF0000000 + (BitVec.ofNat 27 (x - 0xF0000000)).toNat = x := by
  rw [BitVec.toNat_ofNat]; omega

/-- The word and bit that an aliased bit's address names, by its offset (R52). -/
theorem aliasOf_add (n : Nat) : aliasOf (0xF8000000 + n) = (0xF0000000 + n / 16, n % 16) := by
  rw [aliasOf, Prod.mk.injEq]
  constructor <;> omega

/-- The offset of an aliased bit names its word and bit. -/
theorem aliasOf_offset {x i : Nat} (hlo : 0xF0000000 ≤ x) (hhi : x < 0xF0800000) (hi : i < 16) :
    aliasOf (0xF8000000 + (BitVec.ofNat 27 (16 * (x - 0xF0000000) + i)).toNat) = (x, i) := by
  rw [aliasOf_add, BitVec.toNat_ofNat, Prod.mk.injEq]
  constructor <;> omega

/-- An aliased bit answers where the word it names does. -/
theorem State.answersAt_alias {s : State} {a x i : Nat} (ha : 0xF8000000 ≤ a) (hx : aliasOf a = (x, i)) (hlo : 0xF0000000 ≤ x)
    (hhi : x < 0xF8000000) (h : s.answersAt x = true) : s.answersAt a = true := by
  rw [State.answersAt, if_neg (by omega), if_neg (by omega)] at h
  rw [State.answersAt, if_neg (by omega), if_pos ha, hx]
  exact h

/-! ## One word, seen from outside -/

/-- From s to t, no register word but x changes, nor do memory and the cores. -/
def State.sameBut (s t : State) (x : Nat) : Prop := (∀ y, y ≠ x → t.reg y = s.reg y) ∧ t.mem = s.mem ∧ t.cores = s.cores

theorem State.sameBut_refl (s : State) (x : Nat) : s.sameBut s x := ⟨fun _ _ => rfl, rfl, rfl⟩

theorem State.sameBut_setReg (s : State) (x : Nat) (v : Word) : s.sameBut (s.setReg x v) x :=
  ⟨fun _ h => s.reg_setReg_ne v h, rfl, rfl⟩

theorem State.sameBut.answered {s t : State} {x : Nat} (h : s.sameBut t x) (fns : List (Nat × HostFn)) (out : List OutMsg) (seen : Bool)
    (c : Completion) : s.sameBut (t.answered fns out seen c) x := h

section
variable {s : State} {who : Requester} {a : Nat}

/-- An ordinary read of a register's word returns its value and clears its RC bits, takes the snapshot it begins, and leaves the rest
as it is (R10, R45). -/
theorem State.regRead_ordinary {r : RegRow} (hm : s.mayAccess who = true) (h : s.answersAt a = true) (hlo : 0xF0000000 ≤ a)
    (hhi : a < 0xF8000000) (hr : regRow a = some r) :
    (s.regRead who a false).lastRead = some ⟨.ok, bytesOfWord (s.readValue who a)⟩ ∧
      (s.regRead who a false).reg a = s.reg a &&& ~~~ r.rc ∧ s.sameBut (s.regRead who a false) a ∧
      (s.regRead who a false).snaps = (s.takeSnap who a).snaps := by
  obtain ⟨fns, out, seen, e⟩ := State.regRead_narrow hm h
  obtain ⟨bh, ctr, e'⟩ := s.readEffect_frame who hr
  rw [e, s.readOne_ordinary who hlo hhi, e']
  exact ⟨rfl, s.reg_clrReg_same a r.rc, ⟨fun y hy => s.reg_clrReg_ne r.rc hy, rfl, rfl⟩, rfl⟩

/-- A read of an aliased bit returns it and clears it where it is RC (R53). -/
theorem State.regRead_alias {r : RegRow} {x i : Nat} (hm : s.mayAccess who = true) (h : s.answersAt a = true) (ha : 0xF8000000 ≤ a)
    (hx : aliasOf a = (x, i)) (hr : regRow x = some r) :
    (s.regRead who a false).lastRead = some ⟨.ok, bytesOfWord (if (s.ordWord who x).getLsbD i then 1 else 0)⟩ ∧
      (s.regRead who a false).reg x = s.reg x &&& ~~~ (r.rc &&& BitVec.ofNat 16 (2 ^ i)) ∧
      s.sameBut (s.regRead who a false) x := by
  obtain ⟨fns, out, seen, e⟩ := State.regRead_narrow hm h
  rw [e, s.readOne_alias who ha, hx, s.clearRc_of_row hr]
  exact ⟨rfl, s.reg_clrReg_same x _, (s.sameBut_setReg x _).answered ..⟩

/-- A 16-bit write of an ordinary word, by the write of the word. -/
theorem State.regWrite_ordinary (hm : s.mayAccess who = true) (h : s.answersAt a = true) (hlo : 0xF0000000 ≤ a) (hhi : a < 0xF8000000)
    (v : BitVec 32) :
    ∃ fns out seen, s.regWrite who a false v = (s.ordWrite who a (v.setWidth 16)).answered fns out seen ⟨.ok, []⟩ := by
  rw [← s.writeOne_ordinary who _ hlo hhi]
  exact State.regWrite_narrow hm hlo h v

/-- A 16-bit write of an aliased bit, by the write of the bit. -/
theorem State.regWrite_alias {x i : Nat} (hm : s.mayAccess who = true) (h : s.answersAt a = true) (ha : 0xF8000000 ≤ a)
    (hx : aliasOf a = (x, i)) (v : BitVec 32) :
    ∃ fns out seen, s.regWrite who a false v = (s.aliasWrite who x i (v.getLsbD 0)).answered fns out seen ⟨.ok, []⟩ := by
  have hbit : (v.setWidth 16).getLsbD 0 = v.getLsbD 0 := by simp
  have e := s.writeOne_alias who (v.setWidth 16) ha
  rw [hx, hbit] at e
  rw [← e]
  exact State.regWrite_narrow hm (by omega) h v

end

/-! ## The commands -/

theorem exec_registerWrite (who : Requester) (a : BitVec 27) (wide : Bool) (v : BitVec 32) (s : State) :
    exec (.registerWrite who a wide v) s = .next (s.regWrite who (0xF0000000 + a.toNat) wide v) := rfl

theorem exec_clearingRead (who : Requester) (a : BitVec 27) (wide : Bool) (s : State) :
    exec (.clearingRead who a wide) s = .next (s.regRead who (0xF0000000 + a.toNat) wide) := rfl

theorem exec_snapshotRead (who : Requester) (a : BitVec 27) (s : State) :
    exec (.snapshotRead who a) s = .next (s.regRead who (0xF0000000 + a.toNat) false) := rfl

theorem exec_aliasRead (who : Requester) (a : BitVec 27) (wide : Bool) (s : State) :
    exec (.aliasRead who a wide) s = .next (s.regRead who (0xF8000000 + a.toNat) wide) := rfl

theorem exec_aliasWrite (who : Requester) (a : BitVec 27) (wide : Bool) (v : BitVec 32) (s : State) :
    exec (.aliasWrite who a wide v) s = .next (s.regWrite who (0xF8000000 + a.toNat) wide v) := rfl

/-- A peek write by the host fails; any other is ignored (R57). -/
theorem exec_peekWrite (who : Requester) (a : BitVec 28) (wide : Bool) (v : BitVec 32) (s : State) :
    exec (.peekWrite who a wide v) s = .next (if who == .host then
      (if s.mayAccess who then
        s.hostError true 1 (0xE0000000 + a.toNat) (if s.writeAnswers (0xE0000000 + a.toNat) then 0x10 else 0x18) .discarded
       else s)
    else s.regWrite who (0xE0000000 + a.toNat) wide v) := rfl

/-- Requesters on the device can always send accesses. -/
theorem State.mayAccess_of_ne_host {who : Requester} (s : State) (h : who ≠ .host) : s.mayAccess who = true := by
  cases who with
  | host => exact absurd rfl h
  | _ => rfl

/-- A requester on the device gets an error response from what does not answer. -/
theorem State.regFail_of_ne_host {who : Requester} (s : State) (h : who ≠ .host) (a : Nat) (write : Bool) :
    s.regFail who a write = { s with lastRead := some ⟨.busErr, []⟩ } := by
  cases who with
  | host => exact absurd rfl h
  | _ => rfl

/-- What the host sees of an access to a word that does not answer, and what HST_ACCERR captures of the first (R50, R62). -/
theorem State.regFail_host_shows {s : State} {a : Nat} (h : s.answersAt a = false) (h0 : s.reg R.HST_ACCERR_STAT = 0) (write : Bool) :
    (s.regFail .host a write).lastRead = some ⟨if write then .discarded else .completerAbort, []⟩ ∧
      (s.regFail .host a write).reg R.HST_ACCERR_STAT = 8 ∧
      (s.regFail .host a write).reg32 R.HST_ACCERR_ADDR_LO = BitVec.ofNat 32 a ∧
      (s.regFail .host a write).mem = s.mem ∧ (s.regFail .host a write).cores = s.cores := by
  have e : s.regFail .host a write = s.hostError write 1 a 8 (if write then .discarded else .completerAbort) := by
    simp only [State.regFail, h, Bool.false_eq_true, if_false]
  obtain ⟨hread, hmem, hcores, hcapture⟩ := s.hostError_shows write 1 a 8 (if write then .discarded else .completerAbort)
  obtain ⟨hstat, haddr⟩ := hcapture h0
  rw [e]
  exact ⟨hread, hstat, haddr, hmem, hcores⟩

/-! ## MESH_PRIO and COX_MEM_ERR by every requester -/

section
variable {s : State} {who : Requester} (c : Fin 96)

theorem meshPrio_range : 0xF0000000 ≤ R.MESH_PRIO c.val ∧ R.MESH_PRIO c.val < 0xF0600000 := by rw [meshPrio_eq]; omega

theorem memErr_range : 0xF0000000 ≤ R.COX_MEM_ERR c.val ∧ R.COX_MEM_ERR c.val < 0xF0600000 := by rw [memErr_eq]; omega

theorem State.readValue_crew {a : Nat} (s : State) (who : Requester) (h : a < 0xF0600000) : s.readValue who a = s.ordWord who a := by
  simp only [State.readValue, quadOf_crew h]

/-- The RW bits of MESH_PRIO take the written value, its other bits keep theirs (R10, R36). -/
theorem State.regWrite_meshPrio (hm : s.mayAccess who = true) (hup : s.crewUp c.val = true) (v : BitVec 32) :
    let t := s.regWrite who (R.MESH_PRIO c.val) false v
    t.reg (R.MESH_PRIO c.val) = (s.reg (R.MESH_PRIO c.val) &&& 0xF888) ||| (v.setWidth 16 &&& 0x0777) ∧
      s.sameBut t (R.MESH_PRIO c.val) ∧ t.lastRead = some ⟨.ok, []⟩ := by
  obtain ⟨hlo, hhi⟩ := meshPrio_range c
  obtain ⟨fns, out, seen, e⟩ :=
    State.regWrite_ordinary hm (State.answersAt_crew (meshPrio_eq c) c.isLt (by decide) hup) hlo (by omega) v
  have hreg := s.reg_storeWrite_same (R.MESH_PRIO c.val) meshPrioRow (v.setWidth 16)
  rw [show meshPrioRow.rw = 0x777 from rfl, show ~~~ (0x777 : Word) = 0xF888 from rfl] at hreg
  rw [e, State.ordWrite_meshPrio]
  exact ⟨hreg, (s.sameBut_setReg _ _).answered .., rfl⟩

/-- A read of COX_MEM_ERR returns it and clears its RC bits (R10). -/
theorem State.regRead_memErr (hm : s.mayAccess who = true) (hup : s.crewUp c.val = true) :
    let t := s.regRead who (R.COX_MEM_ERR c.val) false
    t.lastRead = some ⟨.ok, bytesOfWord (s.reg (R.COX_MEM_ERR c.val))⟩ ∧
      t.reg (R.COX_MEM_ERR c.val) = s.reg (R.COX_MEM_ERR c.val) &&& 0xFFFC ∧ s.sameBut t (R.COX_MEM_ERR c.val) := by
  obtain ⟨hlo, hhi⟩ := memErr_range c
  obtain ⟨hread, hreg, hsame, -⟩ := State.regRead_ordinary hm
    (State.answersAt_crew (memErr_eq c) c.isLt (by decide) hup) hlo (by omega) (regRow_memErr c)
  rw [State.readValue_crew _ _ hhi, State.ordWord_memErr] at hread
  exact ⟨hread, hreg, hsame⟩

/-- A read of MESH_PRIO returns it and changes nothing. -/
theorem State.regRead_meshPrio (hm : s.mayAccess who = true) (hup : s.crewUp c.val = true) :
    let t := s.regRead who (R.MESH_PRIO c.val) false
    t.lastRead = some ⟨.ok, bytesOfWord (s.reg (R.MESH_PRIO c.val))⟩ ∧ t.reg (R.MESH_PRIO c.val) = s.reg (R.MESH_PRIO c.val) ∧
      s.sameBut t (R.MESH_PRIO c.val) := by
  obtain ⟨hlo, hhi⟩ := meshPrio_range c
  obtain ⟨hread, hreg, hsame, -⟩ := State.regRead_ordinary hm
    (State.answersAt_crew (meshPrio_eq c) c.isLt (by decide) hup) hlo (by omega) (regRow_meshPrio c)
  rw [State.readValue_crew _ _ hhi, State.ordWord_meshPrio] at hread
  exact ⟨hread, hreg.trans BitVec.and_allOnes, hsame⟩

variable {a : Nat} (ha : 0xF8000000 ≤ a)
include ha

/-- A read of an aliased bit of COX_MEM_ERR returns it, and clears it alone where it is RC (R53). -/
theorem State.regRead_memErr_alias {i : Nat} (hm : s.mayAccess who = true) (hup : s.crewUp c.val = true)
    (hx : aliasOf a = (R.COX_MEM_ERR c.val, i)) :
    let t := s.regRead who a false
    t.lastRead = some ⟨.ok, bytesOfWord (if (s.reg (R.COX_MEM_ERR c.val)).getLsbD i then 1 else 0)⟩ ∧
      t.reg (R.COX_MEM_ERR c.val) = s.reg (R.COX_MEM_ERR c.val) &&& ~~~ (3 &&& BitVec.ofNat 16 (2 ^ i)) ∧
      s.sameBut t (R.COX_MEM_ERR c.val) := by
  obtain ⟨hlo, hhi⟩ := memErr_range c
  have hans := State.answersAt_alias ha hx hlo (by omega) (State.answersAt_crew (memErr_eq c) c.isLt (by decide) hup)
  obtain ⟨hread, hreg, hsame⟩ := State.regRead_alias hm hans ha hx (regRow_memErr c)
  rw [State.ordWord_memErr] at hread
  exact ⟨hread, hreg, hsame⟩

/-- A write of an aliased bit of COX_MEM_ERR changes nothing: none of its bits is writable (R54). -/
theorem State.regWrite_memErr_alias {i : Nat} (hm : s.mayAccess who = true) (hup : s.crewUp c.val = true)
    (hx : aliasOf a = (R.COX_MEM_ERR c.val, i)) (v : BitVec 32) :
    (∀ y, (s.regWrite who a false v).reg y = s.reg y) ∧ (s.regWrite who a false v).mem = s.mem ∧
      (s.regWrite who a false v).cores = s.cores := by
  obtain ⟨hlo, hhi⟩ := memErr_range c
  have hans := State.answersAt_alias ha hx hlo (by omega) (State.answersAt_crew (memErr_eq c) c.isLt (by decide) hup)
  obtain ⟨fns, out, seen, e⟩ := State.regWrite_alias hm hans ha hx v
  have hnone : ∀ on, s.aliasWrite who (R.COX_MEM_ERR c.val) i on = s := by
    intro on
    simp [State.aliasWrite, regRow_memErr, memErrRow]
  rw [e, hnone]
  exact ⟨fun y => rfl, rfl, rfl⟩

/-- A write of an aliased bit of MESH_PRIO sets or clears it where it is RW, and changes nothing else (R54). -/
theorem State.regWrite_meshPrio_alias {i : Nat} (hm : s.mayAccess who = true) (hup : s.crewUp c.val = true) (hi : i < 16)
    (hx : aliasOf a = (R.MESH_PRIO c.val, i)) (v : BitVec 32) :
    let t := s.regWrite who a false v
    s.sameBut t (R.MESH_PRIO c.val) ∧
      ((0x777 : Word).getLsbD i = true → t.reg (R.MESH_PRIO c.val) =
        if v.getLsbD 0 then s.reg (R.MESH_PRIO c.val) ||| BitVec.ofNat 16 (2 ^ i)
        else s.reg (R.MESH_PRIO c.val) &&& ~~~ BitVec.ofNat 16 (2 ^ i)) ∧
      ((0x777 : Word).getLsbD i = false → t.reg (R.MESH_PRIO c.val) = s.reg (R.MESH_PRIO c.val)) := by
  obtain ⟨hlo, hhi⟩ := meshPrio_range c
  have hans := State.answersAt_alias ha hx hlo (by omega) (State.answersAt_crew (meshPrio_eq c) c.isLt (by decide) hup)
  obtain ⟨fns, out, seen, e⟩ := State.regWrite_alias hm hans ha hx v
  rw [State.aliasWrite_stored (regRow_meshPrio c) rfl rfl (s.ordWord_meshPrio c who) (s.ordWrite_meshPrio c who) hi] at e
  rw [e, show meshPrioRow.rw = 0x777 from rfl]
  cases hbit : (0x777 : Word).getLsbD i with
  | true => exact ⟨(s.sameBut_setReg _ _).answered .., fun _ => State.reg_setReg_same _ _ _, nofun⟩
  | false => exact ⟨(s.sameBut_refl _).answered .., nofun, fun _ => rfl⟩

end

/-- A read of the first word of system time returns it, changes no register word, and takes the snapshot that the reads of the other
three words by its requester return (R45). -/
theorem State.regRead_stkTime {s : State} {who : Requester} (hm : s.mayAccess who = true) (hw : s.warm = false) :
    let t := s.regRead who 0xF0600030 false
    t.lastRead = some ⟨.ok, bytesOfWord (BitVec.ofNat 16 s.time)⟩ ∧ (∀ y, t.reg y = s.reg y) ∧
      ∀ u : State, u.snaps = t.snaps → ∀ k : Fin 3,
        u.readValue who (0xF0600031 + k.val) = BitVec.ofNat 16 (s.time / 65536 ^ (k.val + 1)) := by
  obtain ⟨hread, hreg, ⟨hother, -, -⟩, hsnap⟩ :=
    State.regRead_ordinary (who := who) hm (State.answersAt_stkTime hw) (by decide) (by decide) (regRow_stkTime 0)
  have hvalue : s.readValue who 0xF0600030 = BitVec.ofNat 16 s.time := by
    have hq : quadOf 0xF0600030 = some 0xF0600030 := by decide
    have hword := s.ordWord_stkTime who 0
    simp only [Fin.val_zero, Nat.pow_zero, Nat.div_one, Nat.add_zero] at hword
    simp only [State.readValue, hq, if_true, hword]
  refine ⟨hvalue ▸ hread, fun y => ?_, fun u hu k => State.readValue_stkTime_of_snap (hu.trans hsnap) k⟩
  by_cases hy : y = 0xF0600030
  · exact hy ▸ hreg.trans BitVec.and_allOnes
  · exact hother y hy

end Sys2Proof.Machine

open Sys2Proof Sys2Proof.Machine Host

/-- Settles O42: where the words answer, an access is the read or write of its words and a look at the fault summary; where one does
not, it fails as R62 says for the host; and a write to the peek window does neither. -/
theorem registerAccesses : Obligations.RegisterAccesses := by
  unfold Obligations.RegisterAccesses
  intro s who a wide v crew b
  have ha := a.isLt
  refine ⟨?noAnswer, ?hostFails, ?barred, ?answered, ?aliases, ?crewWords, ?snapshot, ?peek⟩
  case noAnswer =>
    intro h hw
    have hm := s.mayAccess_of_ne_host hw
    have hread := (State.regRead_noAnswer hm h false).trans (s.regFail_of_ne_host hw _ false)
    refine ⟨congrArg Outcome.next ?_, congrArg Outcome.next ?_, congrArg Outcome.next hread⟩
    · exact (State.regWrite_noAnswer hm (by omega) h wide v).trans (s.regFail_of_ne_host hw _ true)
    · exact (State.regRead_noAnswer hm h wide).trans (s.regFail_of_ne_host hw _ false)
  case hostFails =>
    rintro h rfl hm
    exact ⟨fun h0 => ⟨_, congrArg Outcome.next (State.regWrite_noAnswer hm (by omega) h wide v), State.regFail_host_shows h h0 true⟩,
      fun h0 => ⟨_, congrArg Outcome.next (State.regRead_noAnswer hm h wide), State.regFail_host_shows h h0 false⟩,
      fun h0 => ⟨_, congrArg Outcome.next (State.regRead_noAnswer hm h false), State.regFail_host_shows h h0 false⟩⟩
  case barred =>
    intro h
    simp only [exec_registerWrite, exec_clearingRead, exec_snapshotRead, exec_aliasRead, exec_aliasWrite, State.regWrite_barred h,
      State.regRead_barred h, and_self]
  case answered =>
    intro hm h
    have hone := s.readOne_ordinary (a := 0xF0000000 + a.toNat) who (by omega) (by omega)
    have hread := State.regRead_narrow_returns hm h
    rw [hone] at hread
    refine ⟨⟨_, exec_registerWrite .., State.regWrite_lastRead hm (by omega) h (by nofun) v⟩,
      fun h' => ⟨_, exec_registerWrite .., State.regWrite_lastRead hm (by omega) h (fun _ => h') v⟩,
      ⟨_, exec_clearingRead .., hread⟩, fun h' => ?_, ⟨_, exec_snapshotRead .., hread⟩⟩
    have hwide := State.regRead_wide_returns hm h h'
    rw [hone] at hwide
    exact ⟨_, _, exec_clearingRead .., hwide⟩
  case aliases =>
    intro hm h
    have hone := s.readOne_alias (a := 0xF8000000 + a.toNat) who (by omega)
    rw [aliasOf_add] at hone
    have hread := State.regRead_narrow_returns hm h
    rw [hone] at hread
    refine ⟨⟨_, exec_aliasWrite .., State.regWrite_lastRead hm (by omega) h (by nofun) v⟩,
      fun h' => ⟨_, exec_aliasWrite .., State.regWrite_lastRead hm (by omega) h (fun _ => h') v⟩,
      ⟨_, exec_aliasRead .., hread⟩, fun h' => ?_⟩
    have hwide := State.regRead_wide_returns hm h h'
    rw [hone] at hwide
    exact ⟨_, _, exec_aliasRead .., hwide⟩
  case crewWords =>
    intro hm hup
    obtain ⟨hMlo, hMhi⟩ := meshPrio_range crew
    obtain ⟨hElo, hEhi⟩ := memErr_range crew
    have hb := b.isLt
    have hM := ordinary_offset hMlo (by omega)
    have hE := ordinary_offset hElo (by omega)
    have hMb := aliasOf_offset hMlo (by omega) (show b.val < 16 by omega)
    have hE0 := aliasOf_offset hElo (by omega) (show 0 < 16 by decide)
    have hE1 := aliasOf_offset hElo (by omega) (show 1 < 16 by decide)
    obtain ⟨hsame, hset, hkeep⟩ := State.regWrite_meshPrio_alias crew (by omega) hm hup (by omega) hMb v
    obtain ⟨hreg, hmem, hcores⟩ := State.regWrite_memErr_alias crew (by omega) hm hup hE0 v
    refine ⟨⟨_, ?_, State.regWrite_meshPrio crew hm hup v⟩, ⟨_, ?_, State.regRead_memErr crew hm hup⟩,
      ⟨_, ?_, State.regRead_meshPrio crew hm hup⟩, ⟨_, exec_aliasRead .., State.regRead_memErr_alias crew (by omega) hm hup hE1⟩,
      ⟨_, exec_aliasWrite .., hsame, fun h _ => hset h, hkeep⟩,
      ⟨_, exec_aliasWrite .., hreg _, fun y _ => hreg y, hmem, hcores⟩⟩
    · exact (exec_registerWrite ..).trans (by rw [hM])
    · exact (exec_clearingRead ..).trans (by rw [hE])
    · exact (exec_clearingRead ..).trans (by rw [hM])
  case snapshot =>
    intro hm hw
    exact ⟨_, exec_snapshotRead .., State.regRead_stkTime hm hw⟩
  case peek =>
    intro p
    have hp := p.isLt
    refine ⟨fun hw => ?_, fun hw hm => ?_, fun hw hm => ?_⟩
    · rw [exec_peekWrite, if_neg (by simpa using hw), State.regWrite_peek (s.mayAccess_of_ne_host hw) (by omega) (by omega)]
    · rw [exec_peekWrite, if_pos (by simpa using hw), if_neg (by simp [hm])]
    · have e := exec_peekWrite who p wide v s
      rw [if_pos (by simpa using hw), if_pos hm, s.writeAnswers_peek (by omega)] at e
      exact ⟨_, e, s.hostError_shows true 1 _ _ .discarded⟩
end
